-- ==== Sys2Proof/Word.lean ====
section
/-! DEFINITION. The word types of the block and its sparse tables (R4, R5, R6). -/

namespace Sys2Proof

/-- A register word: 32 bits (R6). -/
abbrev Word := BitVec 32

/-- One byte of a frame, a message or a host structure (R5). -/
abbrev Byte := BitVec 8

/-- A sparse table: the entries that differ from the value an unlisted key reads as, keys strictly rising. -/
abbrev Table (α : Type) := List (Nat × α)

end Sys2Proof
end

