-- ==== Sys2Proof/Syntax.lean ====
section
/-! DEFINITION. The commands of the block: one constructor for every row of the table of operations and events. -/

namespace Sys2Proof

/-- What a fabric read made within one command brings: its data, an error response, or nothing in 100 µs (R25). -/
inductive Answer (α : Type) where
  | data (x : α) | error | timeout
  deriving DecidableEq, Repr

/-- A write of the doorbell window: its offset there and its width in bytes (R29). -/
structure BellWrite where
  off : BitVec 16
  width : Nat
  deriving DecidableEq, Repr

/-- A handshake with a port's framer: which port, and whether both of its tries met a parity error, so that it is dropped (R46). -/
structure Ind where
  p : Fin 64
  lost : Bool
  deriving DecidableEq, Repr

/-- A write's offset in the register window, and whether both tries of its handshake met a parity error (R46). -/
structure RegAddr where
  off : BitVec 20
  lost : Bool
  deriving DecidableEq, Repr

/-- The end of a downstream frame: its port, and the bytes that had crossed before a last beat that cuts it short (R54). -/
structure BeatEnd where
  p : Fin 64
  sent : Nat
  deriving DecidableEq, Repr

/-- A fabric request that fails with an error response: a write or a read; `parity` 1 is a parity error on the request at its
crossing, 2 one on the response (R46), 3 one on an internal bus (R293). -/
structure FabFail where
  write : Bool
  parity : Fin 4
  deriving DecidableEq, Repr

/-- A read's response: the number of its request, and the words of its lines (R23). -/
structure ReadBack where
  id : Nat
  ws : List Word
  deriving DecidableEq, Repr

/-- What stands beside the payload of an ordered set: its `TYPE` and CRC-16 as received, and the code and disparity errors on the
lane since the set before (R232, R234). -/
structure SetTail where
  type : Byte
  crc : BitVec 16
  errors : Nat
  deriving DecidableEq, Repr

/-- A lane that loses a lock, and its errors that no earlier command has brought (R234, R239). -/
structure LaneLoss where
  l : Fin 16
  errors : Nat
  deriving DecidableEq, Repr

/-- A lane that reaches alignment, and the in-port number that its ALIGN blocks carry (R240). -/
structure LaneAlign where
  l : Fin 16
  pos : Fin 4
  deriving DecidableEq, Repr

/-- A 66-bit block on a lane: its sync header, and its scrambled payload (R237). -/
structure LineBlock where
  header : BitVec 2
  payload : BitVec 64
  deriving DecidableEq, Repr

/-- Blocks received on a lane, the last of which is in question: `mid` when a message is in progress there, `poison` 1 when a parity
error met it at its crossing (R46), 2 on an internal bus (R293). -/
structure RxBlocks where
  line : List LineBlock
  mid : Bool
  poison : Fin 3
  deriving DecidableEq, Repr

/-- A cluster port whose message ends: the capture cell's measurement of the next one's START in 1/16 ns (R47, R251), and which of
the blocks of the one that ends was found poisoned on its way to the lanes (R46). -/
structure LinkSend where
  c : Fin 4
  sub : Fin 16
  bad : Option Nat
  deriving DecidableEq, Repr

/-- The framer's constant table, as the block reads it (R142). -/
structure FramerConst where
  profile : Nat
  cap : Nat
  guardBytes : Nat
  preamble : Nat
  delim : Nat
  encap : Nat
  report : Nat
  byteTime : Nat
  dsLat : Nat
  usLat : Nat
  deriving DecidableEq, Repr

/-- One upstream frame as the framer presents it (R33): its bytes with the FCS, and its side-band fields.
`sub` is the capture cell's measurement of the `FU_SOF` edge in 1/16 ns (R47); `poison` a parity error met on
the way in: 1 at the crossing (R46), 2 on an internal bus (R293). -/
structure UsPresented where
  bytes : List Byte
  bad : Bool
  first : Bool
  stamp : Word
  term : Fin 512
  alloc : Fin 4
  delimOfs : BitVec 16
  fecCorr : BitVec 16
  fecUncorr : Byte
  sub : Fin 16
  poison : Fin 3
  deriving DecidableEq, Repr

/-- The fields of a link message's header that a receiver uses (R242). -/
structure MsgHdr where
  cls : Fin 8
  hops : Nat
  dest : Nat
  origin : Nat
  seq : Word
  len : Nat
  deriving DecidableEq, Repr

/-- The body of a DATA message (R244): the frame is without its FCS. -/
structure DataMsg where
  ring : Fin 1024
  cls : Fin 64
  colour : Nat
  alloc : Fin 4
  terminal : Nat
  flow : Nat
  stamp : Word
  bytes : List Byte
  deriving DecidableEq, Repr

/-- A stamp carried by a time message: seconds, nanoseconds and quarter-nanoseconds (R250, R251). -/
structure LinkStamp where
  sec : Nat
  ns : Nat
  qns : Nat
  deriving DecidableEq, Repr

/-- The body of MIG_BEGIN (R252). -/
structure MigBegin where
  mid : BitVec 16
  srcPort : Fin 64
  dstPort : Fin 64
  terms : Nat
  flows : Nat
  deriving DecidableEq, Repr

/-- The commands: what the host, the fabric, the framers, the cipher engine, the far ends of the link, the pins and
the block's own timers and engines do to the block, one whole step each. -/
inductive Instr where
  /-- COLD_RESET (R48): PRST_COLD_N is held low, abandoning every other reset and holding all state in reset. Operand: the pulse is shorter than the 1 µs of R48. -/
  | coldReset (short : Bool)
  /-- COLD_RESET_RELEASE (R48): PRST_COLD_N rises and the block begins initialising every SRAM and calibrating the capture cells. -/
  | coldResetRelease
  /-- RESET_INITIALISATION_DONE (R213): The initialisation after a cold or warm reset ends, the block leaves reset, POLLYN_ID becomes readable and, after a cold reset, the time base starts counting. -/
  | resetInitialisationDone
  /-- WARM_RESET_BY_PIN (R48): The reset controller asserts PRST_WARM_N and the block starts a warm reset with its quiesce phase. -/
  | warmResetByPin
  /-- WARM_RESET (R51): A write of WARM = 1 with KEY 0xA5C3 to HIF_RESET_CTRL starts a warm reset, and a wrong key is refused with cause 0x4. Operand: `KEY` of the write of `HIF_RESET_CTRL` with `WARM` = 1. -/
  | warmReset (key : BitVec 16)
  /-- QUIESCE_END (R51): The quiesce phase ends when all five steps are done or 500 µs have passed, and the block records the reset status and losses and then initialises. Operand: the 500 µs bound ended the phase. -/
  | quiesceEnd (bound : Bool)
  /-- PORT_FLUSH_ACK (R54): The port side acknowledges the flush of a per-port reset once its frame in transfer has finished, and both sides reinitialise. -/
  | portFlushAck (p : Ind)
  /-- PORT_RESET_TRUNCATE (R54): A downstream frame still in transfer 20 µs into a per-port reset is ended at the next accepted beat with an inverted FCS and completes TRUNCATED. -/
  | portResetTruncate (p : BeatEnd)
  /-- PORT_RESET_DONE (R56): The framer constants are read again, which ends the per-port reset and completes PORT_RESTART or PORT_DISABLE. Operand: the constants read again. -/
  | portResetDone (p : Fin 64) (fc : FramerConst)
  /-- LANE_RESET_DONE (R48): A per-lane reset ends and the lane re-enters DETECT if it is still enabled. -/
  | laneResetDone (l : Fin 16)
  /-- PORT_CLOCK_LOST (R57): No port-clock edge arrives for 160 ns, and the port side of the crossings is reset and an enabled port becomes clock-lost. -/
  | portClockLost (p : Fin 64)
  /-- PORT_CLOCK_MEASURE (R43): A 10 µs port-clock measurement ends, updating TPT_CLOCK_STATUS and detecting an out-of-range clock or a clock that has become good again. Operand: the frequency measured, in kHz. -/
  | portClockMeasure (p : Fin 64) (khz : Nat)
  /-- TIME_REF_LOST (R37): The timing PLL's lock indication falls, and the block raises EV_TIME_REF_LOST while the time base runs on in holdover. -/
  | timeRefLost
  /-- TIME_REF_RESTORED (R37): The timing PLL's lock indication returns, and the block raises EV_TIME_REF_RESTORED. -/
  | timeRefRestored
  /-- CAPTURE_CALIBRATION (R47): Once per second the block recalibrates every stamp capture cell in the background. -/
  | captureCalibration
  /-- REGISTER_WRITE (R334): A write to a register that has no row of its own is applied under its access codes, or refused and recorded in HIF_REFUSED_WRITE. -/
  | registerWrite (off : RegAddr) (width : Nat) (value : Word)
  /-- AQ0_ENABLE (R84): Writing 1 to HIF_AQ0_CTRL.ENABLE checks the bootstrap set-up and starts admin queue 5,120 and completion ring 6,144, or restarts a stopped member. Operand: the word written to `HIF_AQ0_CTRL`. -/
  | aq0Enable (value : Word)
  /-- CADDIE_ENABLE (R191): Writing 1 to PGR_CTRL.ENABLE checks the caddie set-up and starts clearing or restoring the flow table. Operand: the word written to `PGR_CTRL`. -/
  | caddieEnable (value : Word)
  /-- CADDIE_ENABLE_DONE (R191): The enable action ends, the flow repair map is applied and cleared, and READY is set, or the enable fails after a failed flow-table access. Operand: every flow-table access succeeded; the host entries that are not 0. -/
  | caddieEnableDone (ok : Bool) (entries : List (Nat × BitVec 16))
  /-- TSQ_ENABLE (R221): Writing 1 to TIM_TSQ_CTRL.ENABLE checks the alignments and index area of the transmit stamp ring and starts it. Operand: the word written; what the read of PI and CI brings. -/
  | tsqEnable (value : Word) (index : Answer (Word × Word))
  /-- TRACE_RING_ENABLE (R325): Writing 1 to MON_TRACE_CTRL.ENABLE checks the trace ring set-up and starts the ring and marking. Operand: the word written; what the read of PI and CI brings. -/
  | traceRingEnable (value : Word) (index : Answer (Word × Word))
  /-- TIM_NOW_SNAP (R228): Writing 1 to TIM_NOW_CTRL.SNAP latches the time base into the TIM_NOW registers. -/
  | timNowSnap
  /-- REFUSED_WRITE_CLEAR (R337): Writing 1 to HIF_REFUSED_WRITE.STICKY clears the sticky flag and HIF_REFUSED_COUNT. -/
  | refusedWriteClear
  /-- CANCEL_IN (R272): Writing 1 to TPT_PROT_CTRL.CANCEL_IN completes an armed MIGRATE_IN with FLUSHED and returns the port to disabled. -/
  | cancelIn (p : Fin 64)
  /-- STAT_COUNTER_LOW_READ (R116): A read of a 48-bit counter's low word returns bits [31:0] and latches bits [47:32] for the high-word read. Operand: the offset of the counter's low word. -/
  | statCounterLowRead (off : BitVec 20)
  /-- BW_LATCH_READ (R315): A read of word +0x0 of MON_BW[n] latches all four words of the port's bandwidth result. -/
  | bwLatchRead (n : Fin 64)
  /-- IND_DATA_READ (R139): A read of CLS_IND_DATA returns the indirection entry named by CLS_IND_ADDR and advances the address. -/
  | indDataRead
  /-- IND_DATA_WRITE (R135): A write of CLS_IND_DATA replaces the indirection entry named by CLS_IND_ADDR in one update and advances the address. -/
  | indDataWrite (value : Word)
  /-- REC_SEL_WRITE (R186): A write to RNG_REC_SEL takes a snapshot of one terminal record's ranging words for RNG_REC_DATA0-2. -/
  | recSelWrite (value : Word)
  /-- ROUTE_DATA_READ (R259): A read of LNK_ROUTE_DATA returns the route entry named by LNK_ROUTE_ADDR and advances the address. -/
  | routeDataRead
  /-- ROUTE_DATA_WRITE (R245): A write of LNK_ROUTE_DATA sets the route entry named by LNK_ROUTE_ADDR and advances the address. -/
  | routeDataWrite (value : Word)
  /-- REPAIR_DATA_READ (R209): A read of PGR_REPAIR_DATA returns one word of the flow repair map and advances PGR_REPAIR_ADDR. -/
  | repairDataRead
  /-- MARK_SEED_WRITE (R322): A write to MON_MARK_SEED reloads the upstream generator with the seed and the downstream generator with its inverse, and a seed of 0 is refused. -/
  | markSeedWrite (value : Word)
  /-- LANE_ENABLE (R230): Setting a bit of LNK_LANE_CTRL.ENABLE moves the lane from disabled to DETECT. -/
  | laneEnable (l : Fin 16)
  /-- LANE_DISABLE (R230): Clearing a bit of LNK_LANE_CTRL.ENABLE causes a per-lane reset and leaves the lane disabled. -/
  | laneDisable (l : Fin 16)
  /-- POWER_ENABLE (R308): A write of PWR_CTRL sets or clears ENABLE, letting domains of enabled ports and lanes sleep or waking them all. Operand: the word written to `PWR_CTRL`. -/
  | powerEnable (value : Word)
  /-- POWER_CAP_WRITE (R308): A write of a group or port cap that is lowered below the depth in force starts a wake within 1 µs. Operand: `PWR_GROUP_CAP` or a `PWR_PORT_CAP[n]`. -/
  | powerCapWrite (off : BitVec 20) (value : Word)
  /-- BW_WINDOW_CHANGE (R315): A change of MON_BW_CTRL.WINDOW abandons the window in progress, and the next result is marked SHORT. -/
  | bwWindowChange (value : Word)
  /-- DOORBELL (R29): A write to the doorbell window sets the queue's bit in the pending map, or is counted as stray, or is ignored during reset. -/
  | doorbell (b : BellWrite)
  /-- DOORBELL_SERVICE (R69): The core takes a set pending bit of an active queue, clears it and issues the index-area read. -/
  | doorbellService (q : Fin 8192)
  /-- POLL (R71): A queue's poll interval expires and the block issues one 64-byte poll read, or skips the poll. Operand: issued more than one interval late. -/
  | poll (q : Fin 8192) (late : Bool)
  /-- POLL_RESPONSE (R71): A poll read returns and the block either finds new entries by their tags or finds that the host's CI has advanced. Operand: the tag found at F, or the CI word of a ring. -/
  | pollResponse (q : Fin 8192) (tag : BitVec 16) (ci : Word)
  /-- POLL_OVERRUN_EPISODE_END (R72): One millisecond passes with no late poll, ending the EV_POLL_OVERRUN episode. -/
  | pollOverrunEpisodeEnd
  /-- INDEX_READ_RESPONSE (R66): An index-area read returns and the block takes a valid PI or CI, or stops the queue or ring on an invalid index. Operand: the two words of the index area. -/
  | indexReadResponse (q : Fin 8192) (pi : Word) (ci : Word)
  /-- INDEX_WRITE_TIMER (R68): One microsecond after the first unreported entry the block writes its own index word. -/
  | indexWriteTimer (q : Fin 8192)
  /-- SEQ_TAG_RETRY (R73): One microsecond after a wrong tag inside [F, PI) the block rereads the entry and stops the queue if the tag is still wrong. Operand: none when the microsecond has passed, the entry when it has been read again. -/
  | seqTagRetry (q : Fin 8192) (ws : Option (List Word))
  /-- TX_FETCH (R74): The weighted round robin visits an eligible transmit queue and issues reads for up to BURST descriptors, or skips it under R76. -/
  | txFetch
  /-- ADMIN_FETCH (R75): The admin round robin visits an eligible admin queue and issues reads for its descriptors. -/
  | adminFetch
  /-- TX_DESCRIPTOR_ARRIVE (R77): A transmit descriptor reaches the core and passes the let window, field, context and nonce checks, or is refused. Operand: its 8 words. -/
  | txDescriptorArrive (q : Fin 4096) (idx : Word) (ws : List Word)
  /-- ADMIN_DESCRIPTOR_ARRIVE (R98): An admin descriptor reaches the core and is checked for duplicate, fields and length before it waits for its object's turn. Operand: admin queue 5,120 + q; its 16 words. -/
  | adminDescriptorArrive (q : Fin 64) (idx : Word) (ws : List Word)
  /-- SEGMENT_LIST_ARRIVE (R78): A segment list read returns and the block checks its entries and the total length. Operand: 4 words an entry. -/
  | segmentListArrive (q : Fin 4096) (idx : Word) (ws : List Word)
  /-- CELL_RESERVE (R106): Cells free under R105 and a waiting transmit descriptor reserves all its cells and issues its payload read. -/
  | cellReserve
  /-- LAUNCH_READ_START (R80): Ten microseconds before a waiting descriptor's launch time the block starts its payload read. -/
  | launchReadStart (q : Fin 4096) (idx : Word)
  /-- LAUNCH_TIME_REACHED (R80): A waiting descriptor's launch time arrives and its complete frame may enter its priority queue. -/
  | launchTimeReached (q : Fin 4096) (idx : Word)
  /-- PAYLOAD_READ_DONE (R114): A frame's whole payload is in the packet buffer, its check value is compared, and the frame goes on to classification or completes CHECK_MISMATCH. Operand: the payload as posted. -/
  | payloadReadDone (q : Fin 4096) (idx : Word) (bytes : List Byte)
  /-- FRAME_DISPATCH (R121): The dispatcher admits a waiting frame of a port direction to a parse engine. Operand: port direction. -/
  | frameDispatch (p : Fin 64) (up : Bool)
  /-- CLASSIFY_DONE (R127): A frame's parse program ends and its flow, class, colour and queue results are released in arrival order. -/
  | classifyDone (p : Fin 64) (up : Bool)
  /-- FRAME_HANDOFF (R31): A frame's FD_SOF beat transfers, so the frame takes its counter value, is stamped and updates its flow's transmit counters. Operand: capture measurement in 1/16 ns; 1 crossing parity, 2 bus parity. -/
  | frameHandoff (p : Fin 64) (sub : Fin 16) (poison : Fin 3)
  /-- DS_FRAME_END (R107): A downstream frame's last beat transfers, its cells return to the pool and its completion becomes ready. -/
  | dsFrameEnd (p : BeatEnd)
  /-- COMPLETION_WRITE (R89): A ready completion is written into its ring in order when space exists, or becomes pending. Operand: completion ring 6,144 + r. -/
  | completionWrite (r : Fin 1024)
  /-- CQ_RECOVERY_READ (R91): While a ring has pending or held entries, its poll interval or the 4.096 ms timer expires and the block reads its index area. -/
  | cqRecoveryRead (q : Fin 8192)
  /-- RATE_TOKEN_REFILL (R284): A code's rate bucket gains a token at each multiple of its refill interval. -/
  | rateTokenRefill (code : Fin 4096)
  /-- FABRIC_WRITE_ACK (R24): The fabric acknowledges a write, which lets the entries that report it be issued. -/
  | fabricWriteAck (id : Nat)
  /-- VECTOR_TIMER (R290): TIMER_US passes since a vector's first counted entry and the vector sends its message. -/
  | vectorTimer (v : Fin 64)
  /-- INTERRUPT_ACK (R30): The interrupt controller acknowledges a message, and sources merged meanwhile go in the next message. -/
  | interruptAck (v : Fin 64)
  /-- FABRIC_ERROR_RESPONSE (R25): A fabric read or write returns an error response and fails as its request's kind gives. -/
  | fabricErrorResponse (write : FabFail) (id : Nat)
  /-- FABRIC_TIMEOUT (R25): A fabric request has no response after 100 µs, fails, and a read's tag is quarantined. -/
  | fabricTimeout (write : Bool) (id : Nat)
  /-- LATE_RESPONSE (R26): A late response to a timed-out read arrives, is discarded and frees its quarantined tag. Operand: also the response of a read that no row of its own answers. -/
  | lateResponse (r : ReadBack)
  /-- CIPHER_TIMEOUT (R36): A cipher request has no result within 20 µs, the page operation fails and its tag is quarantined. -/
  | cipherTimeout (flow : Fin 262144)
  /-- CIPHER_LATE_RESULT (R36): The late result of a timed-out cipher request arrives, is discarded and frees its tag. -/
  | cipherLateResult
  /-- RX_BUFFER_FETCH (R83): A receive ring's buffer cache holds 16 or fewer descriptors and the block reads up to 16 more. -/
  | rxBufferFetch (r : Fin 1024)
  /-- RX_BUFFER_ARRIVE (R83): Receive buffer descriptors return and enter the cache, and a descriptor with a must-be-0 bit set is consumed unused. Operand: 4 words a descriptor. -/
  | rxBufferArrive (r : Fin 1024) (ws : List (List Word))
  /-- US_FRAME_ARRIVAL (R108): The framer presents an upstream frame, which is charged to the hold budget, sized and FCS-checked, then discarded, delivered or sent on. -/
  | usFrameArrival (p : Fin 64) (f : UsPresented)
  /-- RX_BUFFERS_TAKE (R112): An upstream frame at stage 6 takes all the buffers it needs at once and its data write begins. -/
  | rxBuffersTake (id : Nat)
  /-- RX_NO_BUFFER_TIMEOUT (R112): A frame waits 20 µs at stage 6 without buffers or departure, and is discarded and counted. -/
  | rxNoBufferTimeout (id : Nat)
  /-- CYCLE_START (R34): A CYC_START pulse is stamped, the framer swaps pages, the plan and expectations come into force and the cycle number rises. Operand: capture measurement in 1/16 ns. -/
  | cycleStart (p : Ind) (sub : Fin 16)
  /-- CYCLE_LOST (R34): No CYC_START arrives within 250 µs, and the block raises EV_CYCLE_LOST and sends no lists until pulses resume. -/
  | cycleLost (p : Fin 64)
  /-- GARBLED (R178): A GARBLED pulse is stamped and passed to the ranging unit for collision detection. Operand: capture measurement in 1/16 ns. -/
  | garbled (p : Ind) (sub : Fin 16)
  /-- SD_DEGRADED_RISE (R35): The filtered degraded-signal level rises and EV_PORT_DEGRADED is raised. -/
  | sdDegradedRise (p : Ind)
  /-- SD_DEGRADED_FALL (R35): The filtered degraded-signal level falls and EV_PORT_RECOVERED is raised. -/
  | sdDegradedFall (p : Ind)
  /-- GRANT_READ_POINT (R140): At T - 65 µs the grant engine reads the tree's terminal records as one set and starts the computation for the next cycle. -/
  | grantReadPoint (t : Fin 64)
  /-- PLAN_PUBLISH (R16): A computation ends, its plan is published and its grant list is written to the framer's standby page. -/
  | planPublish (t : Fin 64)
  /-- GRANT_COMPUTE_DEADLINE (R141): A computation not ended by T - 40 µs is abandoned and its plan withdrawn. -/
  | grantComputeDeadline (t : Fin 64)
  /-- GL_COMMIT (R141): The list write ends with GL_COMMIT, which commits deficits, rotation, excess pointer and ledger. -/
  | glCommit (t : Fin 64) (poison : Fin 3)
  /-- GRANT_LIST_DEADLINE (R34): At T - 25 µs with no commit the block writes and commits an empty list and raises EV_GRANT_LATE where required. -/
  | grantListDeadline (t : Fin 64)
  /-- BURST_MISSED (R169): An expected burst is still unmatched at E + ALIGN_LIMIT + 1 µs and counts as missed. -/
  | burstMissed (t : Fin 64)
  /-- RANGING_SLOT_JUDGE (R175): One microsecond after a ranging slot ends it is judged, applying RANGE_OK, a failed try or RANGE_FAIL. -/
  | rangingSlotJudge (t : Fin 64)
  /-- JB_WINDOW_JUDGE (R178): One microsecond after a jump-ball window ends it is judged and the back-off exponent is updated. -/
  | jbWindowJudge (t : Fin 64)
  /-- PROT_SWITCH (R264): A PROT_SWITCH pulse raises EV_PROT_SWITCH and may start a re-homing of the tree. -/
  | protSwitch (p : Ind) (side : Bool)
  /-- REHOME_REBIND (R265): Once the frame in transfer finishes, the tree is rebound to its partner and re-equalised. -/
  | rehomeRebind (t : Fin 64)
  /-- REHOME_RESUME (R265): The first granted cycle after re-equalising comes into force and EV_REHOME_DONE is raised. -/
  | rehomeResume (t : Fin 64)
  /-- PREFETCH_ISSUE (R198): A prefetch's issue time comes and it joins the rank-2 page-in queue. -/
  | prefetchIssue (flow : Fin 262144)
  /-- PAGE_IN_ISSUE (R199): The caddie issues the next ranked page-in, finding a victim slot. -/
  | pageInIssue
  /-- PAGE_IN_READ_DONE (R200): A page read returns and the caddie issues its decrypt request. Operand: the 32 words of the page. -/
  | pageInReadDone (flow : Fin 262144) (ws : List Word)
  /-- PAGE_IN_DONE (R189): A decrypt result returns, the page is checked, and the slot becomes CLEAN or the flow is held for CHECK. Operand: cipher status, 0 for none; the 32 words decrypted. -/
  | pageInDone (flow : Fin 262144) (status : BitVec 16) (ws : List Word)
  /-- PAGE_OUT_ENCRYPTED (R200): An encrypt result returns and the caddie issues the page write. -/
  | pageOutEncrypted (flow : Fin 262144) (status : BitVec 16) (ws : List Word)
  /-- PAGE_OUT_DONE (R200): A page write is acknowledged and the slot becomes CLEAN or FREE. -/
  | pageOutDone (flow : Fin 262144)
  /-- CLEANING_PAGE_OUT (R196): Free and clean slots fall below FREE_TARGET and the caddie pages out a dirty slot ahead of need. -/
  | cleaningPageOut
  /-- PAGE_RETRY (R202): Ten microseconds after a failed page operation it is retried, and a second failure applies R202 or R203. -/
  | pageRetry (flow : Fin 262144)
  /-- FAULT_HOLD_END (R204): A FAULT hold ends 1 ms after it was set. -/
  | faultHoldEnd (flow : Fin 262144)
  /-- VICTIM_BAR_END (R203): One millisecond after a failed page-out the slot may be chosen as a victim again. -/
  | victimBarEnd (slot : Fin 49152)
  /-- PROTECTION_END (R198): A prefetched slot's protection end time passes. -/
  | protectionEnd (flow : Fin 262144)
  /-- CACHE_PRESSURE_EPISODE_END (R196): After 1 ms at or above FREE_TARGET the EV_CACHE_PRESSURE episode ends. -/
  | cachePressureEpisodeEnd
  /-- PREFETCH_LATE_EPISODE_END (R199): One millisecond with no late prefetch ends the EV_PREFETCH_LATE episode. -/
  | prefetchLateEpisodeEnd
  /-- WHISTLE_RISE (R226): A whistle pulse's time is reached and the pin rises, or the pulse is counted as missed. -/
  | whistleRise (w : Fin 8)
  /-- WHISTLE_FALL (R226): A whistle pulse's width has passed and the pin falls. -/
  | whistleFall (w : Fin 8)
  /-- TSQ_CI_READ (R224): The transmit stamp ring shows full and the block issues a CI read, at most one per microsecond. -/
  | tsqCiRead
  /-- TSQ_CI_RESPONSE (R224): A CI read returns, held stamps are written or lost, or an invalid CI stops the ring. -/
  | tsqCiResponse (ci : Word)
  /-- TRACE_CI_READ (R325): The trace ring shows full and the block reads its CI as for the stamp ring. -/
  | traceCiRead
  /-- LANE_PROBE (R230): Every 100 µs a DETECT lane probes for far-end termination and moves to TRAIN if found with its clock present. Operand: far-end termination found; reference clock present. -/
  | laneProbe (l : Fin 16) (found : Bool) (refClk : Bool)
  /-- LANE_TIME_LIMIT (R230): A lane state's time limit passes and the lane undergoes a per-lane reset. -/
  | laneTimeLimit (l : Fin 16)
  /-- CHARACTER_ALIGNMENT (R234): K28.5 appears at one phase four times within 64 characters and the receiver aligns. -/
  | characterAlignment (l : Fin 16)
  /-- SYMBOL_LOCK_LOST (R234): Sixteen code or disparity errors within 256 characters lose symbol lock. -/
  | symbolLockLost (l : LaneLoss)
  /-- TS_RECEIVED (R233): A TS ordered set is received, driving the tap handshake and training. Operand: P0–P11. -/
  | tsReceived (l : Fin 16) (ps : List Byte) (tail : SetTail)
  /-- LK_RECEIVED (R230): An LK ordered set is received toward the LOCK exit. Operand: 4,096 consecutive characters arrived without error. -/
  | lkReceived (l : Fin 16) (ps : List Byte) (tail : SetTail) (clean : Bool)
  /-- CAP_SET_RECEIVED (R235): A CAP ordered set is received and checked, and ACK is set after three valid sets. -/
  | capSetReceived (l : Fin 16) (ps : List Byte) (tail : SetTail)
  /-- MARK_RECEIVED (R236): A MARK set with COUNT c schedules the switch to full-rate hunting. -/
  | markReceived (l : Fin 16) (ps : List Byte) (tail : SetTail)
  /-- RATE_SWITCH (R236): The countdown ends and the lane switches to full rate. -/
  | rateSwitch (l : Fin 16)
  /-- BLOCK_LOCK (R239): Sixty-four consecutive valid headers give block lock and the lane enters ACTIVE. -/
  | blockLock (l : Fin 16)
  /-- BLOCK_LOCK_LOST (R239): Thirty-two invalid headers within 1,024 blocks lose lock and reset the lane. -/
  | blockLockLost (l : LaneLoss)
  /-- ALIGNMENT_LOST (R240): Missing or disagreeing ALIGN blocks or excess skew reset the lane. -/
  | alignmentLost (l : Fin 16)
  /-- INVALID_BLOCK (R238): An invalid or poisoned block ends the message in progress, which is discarded. Operand: the blocks received. -/
  | invalidBlock (l : Fin 16) (rx : RxBlocks)
  /-- SLEEP_RECEIVED (R257): A receiver sees SLEEP and suspends its lock and alignment checks. -/
  | sleepReceived (c : Fin 4)
  /-- WAKE_RECEIVED (R257): A receiver sees WAKE and must regain lock within Tw + 1 µs. -/
  | wakeReceived (c : Fin 4)
  /-- LPI_ENTER (R257): After LPI_IDLE µs without a message the transmitter sends SLEEP and enters low-power idle. -/
  | lpiEnter (c : Fin 4)
  /-- LPI_WAKE (R257): A queued message wakes a sleeping port, which sends WAKE and ALIGN first. -/
  | lpiWake (c : Fin 4)
  /-- LPI_WAKE_TIMEOUT (R257): A receiver lacks lock Tw + 1 µs after WAKE and the lane resets. -/
  | lpiWakeTimeout (l : Fin 16)
  /-- LINK_TRANSMIT (R243): A port finishes a message and starts the next by rank. -/
  | linkTransmit (c : LinkSend)
  /-- DATA_RECEIVED (R246): A DATA message is consumed, forwarded or discarded. -/
  | dataReceived (c : Fin 4) (h : MsgHdr) (d : DataMsg)
  /-- ACK_RECEIVED (R247): An ACK releases acknowledged messages or triggers retransmission. -/
  | ackReceived (c : Fin 4) (next : Word) (gap : Bool)
  /-- PAUSE_RECEIVED (R255): A PAUSE starts or ends pauses of its classes. -/
  | pauseReceived (c : Fin 4) (enable : Byte) (quanta : List (BitVec 16))
  /-- CAP_RECEIVED (R249): A CAP control message is accepted and compared with the port's CAP sets. Operand: P1–P10. -/
  | capReceived (c : Fin 4) (h : MsgHdr) (ps : List Byte)
  /-- SNAP_RECEIVED (R253): A SNAP message schedules a freeze and is forwarded, unless already seen. -/
  | snapReceived (c : Fin 4) (h : MsgHdr) (number : BitVec 16) (sec : Nat) (ns : Nat)
  /-- SYNC_RECEIVED (R250): A Sync message is stamped t2 at the slave. -/
  | syncReceived (c : Fin 4) (seqId : BitVec 16) (sub : Fin 16)
  /-- FOLLOW_UP_RECEIVED (R250): A Follow_Up delivers t1 and the slave sends Delay_Req. -/
  | followUpReceived (c : Fin 4) (seqId : BitVec 16) (t : LinkStamp)
  /-- DELAY_REQ_RECEIVED (R250): A Delay_Req is stamped t4 and the master sends Delay_Resp. -/
  | delayReqReceived (c : Fin 4) (seqId : BitVec 16) (sub : Fin 16)
  /-- DELAY_RESP_RECEIVED (R251): A Delay_Resp ends the exchange and the slave writes LNK_TIME_RES or drops the result. -/
  | delayRespReceived (c : Fin 4) (seqId : BitVec 16) (t : LinkStamp)
  /-- TIME_EXCHANGE_START (R250): Every TIME_IVL ms the master starts an exchange with Sync. -/
  | timeExchangeStart (c : Fin 4)
  /-- TIME_EXCHANGE_TIMEOUT (R250): A step has not arrived 1 ms after the previous one and the exchange is abandoned. -/
  | timeExchangeTimeout (c : Fin 4)
  /-- MIG_BEGIN_RECEIVED (R272): MIG_BEGIN makes an armed port the tree's home, or is refused. -/
  | migBeginReceived (c : Fin 4) (h : MsgHdr) (m : MigBegin)
  /-- MIG_TERMINAL_RECEIVED (R272): MIG_TERMINAL installs a terminal record with the port's delta, or is refused. Operand: the 16 words of the record. -/
  | migTerminalReceived (c : Fin 4) (h : MsgHdr) (mid : BitVec 16) (term : Fin 512) (ws : List Word)
  /-- MIG_FLOW_RECEIVED (R272): MIG_FLOW checks and installs a flow context under its destination handle. Operand: the 32 words of the context. -/
  | migFlowReceived (c : Fin 4) (h : MsgHdr) (mid : BitVec 16) (flow : Fin 262144) (ws : List Word)
  /-- MIG_END_RECEIVED (R272): MIG_END compares counts, answers MIG_DONE, enables the port and completes MIGRATE_IN. -/
  | migEndReceived (c : Fin 4) (h : MsgHdr) (mid : BitVec 16) (terms : Nat) (flows : Nat)
  /-- MIG_DONE_RECEIVED (R271): MIG_DONE closes the migration at the source or fails it. -/
  | migDoneReceived (c : Fin 4) (h : MsgHdr) (mid : BitVec 16) (status : Byte)
  /-- MIGRATION_DRAIN_END (R271): The source's drain ends and it sends the migration messages. Operand: the migration list, once its read has returned. -/
  | migrationDrainEnd (t : Fin 64) (list : Option (List (Word × Word)))
  /-- MIG_DONE_TIMEOUT (R273): No MIG_DONE within 1 ms of MIG_END resends the migration or fails it. -/
  | migDoneTimeout (t : Fin 64)
  /-- MIG_END_TIMEOUT (R273): No MIG_END within 4 ms of MIG_BEGIN removes the installed items. -/
  | migEndTimeout (p : Fin 64)
  /-- TRANSIT_TIMEOUT (R246): A forwarded message waits 1 ms in a receive store and is discarded. Operand: the oldest forwarded message of the receive store. -/
  | transitTimeout (c : Fin 4)
  /-- RETRANSMIT_TIMEOUT (R247): Twenty microseconds without an advancing ACK retransmits from the oldest unacknowledged message. -/
  | retransmitTimeout (c : Fin 4)
  /-- RETX_EPISODE_END (R247): One millisecond without retransmission ends the EV_LINK_RETX episode. -/
  | retxEpisodeEnd (c : Fin 4)
  /-- ACK_TIMER (R248): One microsecond after the first unacknowledged message the receiver sends an ACK. -/
  | ackTimer (c : Fin 4)
  /-- PAUSE_EXPIRY (R255): A received pause's quanta run out and the class may send again. -/
  | pauseExpiry (c : Fin 4) (cls : Fin 8)
  /-- PAUSE_REFRESH (R254): Every 100 µs above XON the receiver resends PAUSE for the class. -/
  | pauseRefresh (c : Fin 4) (cls : Fin 8)
  /-- BW_WINDOW_END (R315): A bandwidth window ends and per-port byte counts are latched. -/
  | bwWindowEnd
  /-- SNAPSHOT_FREEZE (R316): The freeze edge for time T copies every counter into the freeze buffer. -/
  | snapshotFreeze
  /-- SNAPSHOT_IMAGE_DONE (R318): The image sections are acknowledged, the header is written and EV_SNAPSHOT_DONE is raised. -/
  | snapshotImageDone
  /-- PATROL_SCRUB (R294): The scrubber reads, corrects and rewrites one word per bank. Operand: the item of the store that the word belongs to; 1 single-bit, 2 double-bit error, 3 a parity error on the internal bus that carries the item. -/
  | patrolScrub (store : Fin 21) (word : Nat) (item : Nat) (err : Fin 4)
  /-- DOMAIN_IDLE (R303): A domain becomes idle and the power manager chooses a depth and schedules its wake. Operand: the instant within the present ns, in 1/16 ns. -/
  | domainIdle (d : Fin 216) (sub : Fin 16)
  /-- DEPTH_ENTERED (R301): A domain finishes entering its depth. -/
  | depthEntered (d : Fin 216)
  /-- WAKE_START (R303): A scheduled or event-driven wake begins. -/
  | wakeStart (d : Fin 216)
  /-- DOMAIN_AWAKE (R301): A domain finishes waking and accepts work. Operand: the instant within the present ns, in 1/16 ns; the shadow showed a double-bit error. -/
  | domainAwake (d : Fin 216) (sub : Fin 16) (shadowErr : Bool)
  /-- WAKE_FAILED (R307): A domain has not woken after four wake times and is handled as failed. -/
  | wakeFailed (d : Fin 216)
  /-- COMMIT_FLIP (R136): At t0 + 1.45 µs or when engines empty the pages flip and restarts are made. -/
  | commitFlip
  /-- COMMIT_COPY_DONE (R137): The copy of new active pages into standby ends. -/
  | commitCopyDone
  /-- CURVE_LOAD_APPLY (R152): A CURVE_LOAD waiting for 20 µs since the last load makes its curve current. -/
  | curveLoadApply (curve : Fin 1024)
  /-- QUEUE_CREATE (R64): Creates a queue from its queue-table entry after the ordered checks. -/
  | queueCreate (q : Fin 64) (idx : Word)
  /-- QUEUE_MODIFY (R64): Rereads a queue's entry and index and returns a stopped queue to active. -/
  | queueModify (q : Fin 64) (idx : Word)
  /-- QUEUE_DRAIN (R100): Drains a queue, returns cached buffers as FLUSHED, and stops it. -/
  | queueDrain (q : Fin 64) (idx : Word)
  /-- QUEUE_DESTROY (R100): Destroys a stopped, empty queue and clears its let window. -/
  | queueDestroy (q : Fin 64) (idx : Word)
  /-- FLOW_CREATE (R192): Creates a flow with a new generation, writing its page and table entry. -/
  | flowCreate (q : Fin 64) (idx : Word)
  /-- FLOW_DESTROY (R193): Writes back and frees a flow and marks it not live. -/
  | flowDestroy (q : Fin 64) (idx : Word)
  /-- FLOW_PIN (R197): Pages in a flow and pins its slot. -/
  | flowPin (q : Fin 64) (idx : Word)
  /-- FLOW_UNPIN (R197): Clears a flow's pinned attribute. -/
  | flowUnpin (q : Fin 64) (idx : Word)
  /-- REKEY_FLOW (R206): Pages in a flow, sets its counter to 0 and its new key index, and ends a NONCE hold. -/
  | rekeyFlow (q : Fin 64) (idx : Word)
  /-- TERMINAL_SET_STATE (R182): Applies a host input through the registration table and may set allocations. -/
  | terminalSetState (q : Fin 64) (idx : Word)
  /-- RANGE_ARM (R176): Applies input ARM and completes when the measurement ends. -/
  | rangeArm (q : Fin 64) (idx : Word)
  /-- EQUALISE_SET (R167): Writes EQD and clears drift state, setting SETTLE to 15. -/
  | equaliseSet (q : Fin 64) (idx : Word)
  /-- RULE_INSERT (R131): Inserts an exact-match entry into its bucket. -/
  | ruleInsert (q : Fin 64) (idx : Word)
  /-- RULE_DELETE (R131): Deletes an exact-match entry by its key. -/
  | ruleDelete (q : Fin 64) (idx : Word)
  /-- TERNARY_STAGE (R133): Writes ternary rules into the standby page. -/
  | ternaryStage (q : Fin 64) (idx : Word)
  /-- PARSE_STAGE (R125): Writes parse steps into the standby page. -/
  | parseStage (q : Fin 64) (idx : Word)
  /-- CLASS_COMMIT (R136): Starts the classification hold for a page flip. -/
  | classCommit (q : Fin 64) (idx : Word)
  /-- CURVE_LOAD (R150): Checks and loads a service curve image. -/
  | curveLoad (q : Fin 64) (idx : Word)
  /-- PLAYBOOK_LOAD (R283): Checks and installs playbook entries at one instant. -/
  | playbookLoad (q : Fin 64) (idx : Word)
  /-- SNAPSHOT (R319): Sets a freeze time locally or cluster-wide. -/
  | snapshot (q : Fin 64) (idx : Word)
  /-- TIME_STEP (R214): Sets the time base once and shifts held scheduling times. -/
  | timeStep (q : Fin 64) (idx : Word)
  /-- TIME_RATE (R216): Replaces the rate adjustment A. -/
  | timeRate (q : Fin 64) (idx : Word)
  /-- WHISTLE_SET (R225): Replaces a whistle's programme and arms its first pulse. -/
  | whistleSet (q : Fin 64) (idx : Word)
  /-- LINK_RETRAIN (R48): Starts a per-lane reset of the lane. -/
  | linkRetrain (q : Fin 64) (idx : Word)
  /-- MIGRATE_OUT (R271): Starts a migration of the tree to another instance. -/
  | migrateOut (q : Fin 64) (idx : Word)
  /-- MIGRATE_IN (R272): Reads the constants and arms the port for a migration. Operand: the constants read from the framer. -/
  | migrateIn (q : Fin 64) (idx : Word) (fc : FramerConst)
  /-- PORT_ENABLE (R17): Reads the framer constants and enables the port. Operand: the constants read from the framer. -/
  | portEnable (q : Fin 64) (idx : Word) (fc : FramerConst)
  /-- PORT_DISABLE (R54): Starts a per-port reset leaving the port disabled. -/
  | portDisable (q : Fin 64) (idx : Word)
  /-- PORT_RESTART (R56): Starts a per-port reset returning the port to service. -/
  | portRestart (q : Fin 64) (idx : Word)
  /-- TRACE_CI_RESPONSE (R325): A CI read of the trace ring returns, and held trace records are written, or an invalid CI stops the ring and sets STOPPED. -/
  | traceCiResponse (ci : Word)
  /-- ADMIN_BUFFER_READ_DONE (R98): The host-buffer or queue-table read of an admin command returns, and the command completes FABRIC_ERROR or BAD_FIELD or goes on toward its turn. Operand: the words read, none for a failed read. -/
  | adminBufferReadDone (q : Fin 64) (idx : Word) (data : Option (List Word))
  /-- LIST_TIME (R302): At the cycle's start less 45 µs, a grant list that was ready earlier is written to the framer and committed within 5 µs. -/
  | listTime (t : Fin 64)
  /-- LANE_RECOVERED_CLOCK_LOST (R58): A lane's recovered clock is lost, which flushes the lane's queues in both directions as a per-lane reset. -/
  | laneRecoveredClockLost (l : Fin 16)
  /-- BLOCK_SUPPLY_OFF (R39): The block's supply goes off while the Ngaid chip stays powered, and the whistle pins, lane transmitters and lane receivers go to high impedance. -/
  | blockSupplyOff
  /-- RECEIVER_TRAINED (R233): A lane's CTLE and DFE converge with all its tap requests at hold, so it sets RX_TRAINED and may move from TRAIN to LOCK. -/
  | receiverTrained (l : Fin 16)
  /-- LANE_ALIGNED (R240): A lane's receiver reaches lane alignment from the ALIGN blocks, which can bring the cluster port up. -/
  | laneAligned (l : LaneAlign)
  /-- INVALID_MESSAGE_RECEIVED (R242): A link message arrives with a wrong CRC, a wrong length or an unknown KIND or SUB, and is discarded and counted. Operand: the message as received. -/
  | invalidMessageReceived (c : Fin 4) (bytes : List Byte)
  deriving DecidableEq, Repr

end Sys2Proof
end

