-- ==== Sys2Proof/Config.lean ====
section
/-! DEFINITION. What the part or chance fixes and the manual leaves open. Every constant here is opaque: it has no body,
so nothing can evaluate it and every theorem holds whatever it is. The counter that numbers the draws is `State.freeCtr`. -/

namespace Sys2Proof.Config

/-- Draw `n`: whether a `PRST_COLD_N` pulse shorter than 1 µs is taken as a full cold reset or ignored (R48). -/
opaque shortPulseTaken : Nat → Bool

/-- Draw `n`: the 16-bit `SESSION` that the block draws at random at a cold or warm reset (R235). -/
opaque session : Nat → BitVec 16

/-- Draw `k` of the generator loaded with a seed (R322): the manual gives no polynomial, only that the same seed gives
the same draws in order. -/
opaque markDraw : Word → Nat → Word

/-- `POLLYN_SLOT.SLOT`, set by the Ngaid part (R341). -/
opaque slot : BitVec 1

/-- `POLLYN_SLOT.DUAL`, set by the Ngaid part (R341). -/
opaque dual : BitVec 1

/-- Draw `n`: the tap steps that a lane's receiver asks for next, coded as P1 of a TS set; how it adapts is left open (R233). -/
opaque tapRequest : Nat → BitVec 7

/-- Draw `n`: the state of a lane's scrambler at its first block, of which the manual gives no seed (R237). -/
opaque scrambler : Nat → BitVec 58

/-- Draw `n`: whether a message was being received on a lane's port when the lane was reset (R58). -/
opaque midMessage : Nat → Bool

/-- Draw `n`: the CTLE setting in dB that a lane's receiver adapted to, of which the manual gives the range 0–15 and no
procedure (R258, R259). -/
opaque ctle : Nat → BitVec 4

/-- Draw `n`: the packet buffer bank that the allocator looks at first among those awake, of which the manual says no more than
that awake banks come first (R304). -/
opaque firstBank : Nat → BitVec 5

/-- Draw `n`: the lookup-cycles that a frame's lookups waited for a bank serving another lookup; the manual does not give a
lookup's own time (R131, R312). -/
opaque bankWait : Nat → BitVec 8

/-- Edge `n`: the lookups that wait for exact-match bank `b` (R131, R313). -/
opaque bankQueue : Nat → Nat → BitVec 9

/-- Draw `n`: the round trip that RECORD_RANGE stores when software's registration table performs it for an input that
brings no measurement, of which the manual gives no value (R175, R181). -/
opaque rangeValue : Nat → BitVec 24

/-- Draw `n`: the identifier of an internal bus whose parity failed, of which the manual lists none (R281, R293). -/
opaque busId : Nat → BitVec 8

/-- Draw `n`: how many bytes of a frame had crossed the downstream bus when its port's clock was lost or its tree left the port,
of which the commands say nothing (R54, R57, R265). -/
opaque sentBytes : Nat → BitVec 14

/-- Draw `n`: which way a half is rounded where the manual says only that a value is rounded (R172). -/
opaque tieUp : Nat → Bool

/-- Draw `n`: the cluster port whose `LNK_NO_ROUTE` counts a message of the block's own, which no port brought (R245, R260). -/
opaque noRoutePort : Nat → BitVec 2

/-- The bank of a store that holds a word of the packet buffer or a slot of the context cache, of which the manual gives no rule
(R299, R307). -/
opaque bankOf : Nat → Nat → BitVec 5

end Sys2Proof.Config
end

