-- ==== Sys2Proof/Machine/State.lean ====
section
/-! DEFINITION. The state of one instance of the block, as plain data: every register, table, queue, engine and timer
that the manual gives it, the free counter of the model, and the queue of waiting commands. Lists keyed by a number are
sparse tables (`Table`): an unlisted key reads as the reset value that `Machine/Flags.lean` and `Machine/Ops.lean` give. -/

namespace Sys2Proof.Machine

/-- The reset the block is in (R48–R53), or its supply gone (R39). -/
inductive Phase where
  | off | coldHeld | coldInit | running | quiesce | warmInit
  deriving DecidableEq, Repr

/-- Queue states, coded 0–3 in this order in `HIF_QSTATE` (R61). -/
inductive QState where
  | notCreated | active | stopped | draining
  deriving DecidableEq, Repr

/-- The block's copy of a queue-table entry (R63, R64); `bufKib` is in KiB, `cq` a queue number. -/
structure QCfg where
  log2 : Nat := 0
  pollIvl : Nat := 0
  weight : Nat := 0
  burst : Nat := 0
  bufKib : Nat := 0
  ringBase : Nat := 0
  indexAddr : Nat := 0
  cq : Nat := 0
  vector : Nat := 0
  intEn : Bool := false
  deriving DecidableEq, Repr

/-- A completion that is ready for its ring: every field of R85 but the slot's tag. `src` names the descriptor or
command in flight that the written entry ends (R94). -/
structure Cpl where
  status : Nat := 0
  kind : Nat := 0
  stampLost : Bool := false
  held : Bool := false
  padded : Bool := false
  stampValid : Bool := false
  queue : Nat := 0
  orig : Nat := 0
  body : List Word := []
  src : Option (Nat × Word) := none
  deriving DecidableEq, Repr

/-- An event entry before its slot is known (R88). -/
structure EvEnt where
  code : Nat
  level : Nat
  stamp : Word
  arg0 : Word
  arg1 : Word
  deriving DecidableEq, Repr

/-- A receive buffer in a ring's descriptor cache (R83). -/
structure RxBuf where
  cookie : Word
  addr : Nat
  deriving DecidableEq, Repr

/-- One queue or ring (R61–R76, R90–R95). For a transmit, receive or admin queue `pi` is the host's index last taken,
`ci` the block's own and `f` the fetch index; for a completion or event ring `pi` is the block's own index and `ci` the
host's last taken. -/
structure Queue where
  st : QState := .notCreated
  cfg : QCfg := {}
  pi : Word := 0
  ci : Word := 0
  f : Word := 0
  bell : Bool := false
  credit : Nat := 0
  pollFound : Bool := false
  unreported : Nat := 0
  idxAt : Option Word := none
  tagRetry : Option Word := none
  letw : List (Word × Nat) := []
  drained : Nat := 0
  ready : List Cpl := []
  pend : List Cpl := []
  episode : Bool := false
  hold : List EvEnt := []
  lost : Nat := 0
  cache : List RxBuf := []
  deriving DecidableEq, Repr

/-- A full stamp: 48-bit seconds, nanoseconds and quarters (R222). -/
structure FullStamp where
  sec : Nat := 0
  ns : Nat := 0
  qns : Nat := 0
  deriving DecidableEq, Repr

/-- What a marked frame carries (R322–R324): its MARK_ID, the seven stage stamps, and its parse figures. -/
structure Mark where
  id : Word
  stamps : List (Option Word) := [none, none, none, none, none, none, none]
  steps : Nat := 0
  lookups : Nat := 0
  ternHit : Bool := false
  deriving DecidableEq, Repr

/-- Where a fetched transmit descriptor stands (R77, R80, R82, R106, R107). -/
inductive TxStage where
  | fetching | listRead | cached | parked | launch | cells | reading | classify | engine | waitOrder | twin | queued | transfer | stampWait | ended | ready
  deriving DecidableEq, Repr

/-- A transmit descriptor in flight, from its fetch to its completion (R77–R82, R94). `pageSeen` and `protSeen` say that it has
been counted as parked for its page and for a frozen tree (R210, R267). -/
structure Tx where
  q : Nat
  idx : Word
  stage : TxStage := .fetching
  ws : List Word := []
  segs : List (Nat × Nat) := []
  len : Nat := 0
  payload : List Byte := []
  check : Word := 0
  status : Nat := 0
  stamp : Option Word := none
  stampLost : Bool := false
  tsWait : Bool := false
  padded : Bool := false
  dup : Bool := false
  launched : Bool := false
  inUse : Bool := false
  inP : Bool := false
  hasPark : Bool := false
  pageSeen : Bool := false
  protSeen : Bool := false
  cells : Nat := 0
  poolCells : Nat := 0
  banks : List (Nat × Nat) := []
  cls : Nat := 0
  colour : Nat := 0
  prio : Nat := 0
  depth : Nat := 0
  tree : Nat := 0
  port : Nat := 0
  mark : Option Mark := none
  deriving DecidableEq, Repr

/-- Where an admin command stands (R98, R99): fetched, waiting for its turn, at its turn and waiting for a read or for
its effect's end, ended. -/
inductive AdmStage where
  | fetching | waiting | turned | ended
  deriving DecidableEq, Repr

/-- An admin command in flight. `buf` is the result of its host read, once returned: none inside for a failed read. -/
structure Adm where
  q : Nat
  idx : Word
  stage : AdmStage := .fetching
  ws : List Word := []
  buf : Option (Option (List Word)) := none
  dup : Bool := false
  status : Nat := 0
  deriving DecidableEq, Repr

/-- What a fabric read was for (R25). `qtable` is the queue-table entry of an admin command; `flowEntry` and
`queueEntry` are read again after an error (R291), `migList` is a migration's list (R270), `restore` a part of the flow table
at an enable, for the second time or not (R191). `orphan` is what is left of a use that ended before its responses came: its tag is held
until they do (R23), under the use code of R281. -/
inductive RdUse where
  | index (q : Nat) | enableIndex (q : Nat) | poll (q : Nat) | txDesc (q : Nat) (idxs : List Word)
  | adminDesc (q : Nat) (idxs : List Word) | rxDesc (q : Nat) (idxs : List Word) | segList (q : Nat) (idx : Word) | payload (q : Nat) (idx : Word)
  | adminBuf (q : Nat) (idx : Word) | qtable (q : Nat) (idx : Word) | page (flow : Nat) | tsqCi | traceCi
  | flowEntry (flow : Nat) | queueEntry (q : Nat) | migList (tree : Nat) | restore (again : Bool) | orphan (code : Nat)
  deriving DecidableEq, Repr

/-- What a fabric write was for (R25). `clearTable` fills a part of the flow table with zeros at an enable, and `dead` writes the
entry of a flow that the repair map marks DEAD (R191); a request of the first lists no words, and its bytes are all 0. -/
inductive WrUse where
  | index (q : Nat) | cpl (q : Nat) (c : Cpl) | event (q : Nat) (level : Nat) | rxData (id : Nat) | page (flow : Nat)
  | tsq (q : Nat) (idx : Word) | tsqIndex | trace | traceIndex | snapshot | ftable (flow : Nat)
  | clearTable | dead (flow : Nat)
  deriving DecidableEq, Repr

/-- A fabric request without a response yet (R23): its number, address, length of a read in bytes or words of a write. -/
structure RdReq where
  id : Nat
  use : RdUse
  addr : Nat
  len : Nat
  deriving DecidableEq, Repr

structure WrReq where
  id : Nat
  use : WrUse
  addr : Nat
  len : Nat
  ws : List Word
  retried : Bool := false
  deriving DecidableEq, Repr

/-- The fabric side: requests outstanding, oldest first, reads that wait for a free tag, the quarantined read tags (R26), and the entry and index writes that
have failed twice and wait for their queue or ring to be active again (R25, R90). -/
structure Fab where
  next : Nat := 0
  reads : List RdReq := []
  wait : List RdReq := []
  writes : List WrReq := []
  again : List WrReq := []
  quar : List Nat := []
  quarEp : Bool := false
  deriving DecidableEq, Repr

/-- Where an upstream frame stands (R108, R112, R13): waiting for a re-homing, for dispatch, in an engine, waiting for its
context, behind earlier frames, at stage 6, its data write outstanding, behind earlier completions, bound for the link. -/
inductive UsStage where
  | rebind | dispatch | engine | context | ready | buffers | writing | acked | link
  deriving DecidableEq, Repr

/-- An upstream frame in the packet buffer (R108–R113). `kept` holds its bytes without the FCS; `ring` is the receive ring
less 4,096. A DATA message consumed from the link is one too, with the cluster port and store number it holds (R246). -/
structure Us where
  id : Nat
  port : Nat
  tree : Nat
  stage : UsStage
  kept : List Byte
  len : Nat
  cells : Nat := 0
  poolCells : Nat := 0
  banks : List (Nat × Nat) := []
  term : Nat := 0
  alloc : Nat := 0
  stamp : Word := 0
  status : Nat := 0
  held : Bool := false
  err : Bool := false
  hasFlow : Bool := false
  flow : Nat := 0
  cls : Nat := 0
  colour : Nat := 0
  ring : Nat := 0
  ringFix : Option Nat := none
  cycle : Option Nat := none
  depth : Nat := 0
  path : Option Nat := none
  poly : Nat := 0
  link : Option (Nat × Nat) := none
  bufs : List RxBuf := []
  mark : Option Mark := none
  deriving DecidableEq, Repr

/-- The refused-write record (R337). -/
structure Refused where
  offset : Nat := 0
  cause : Nat := 0
  sticky : Bool := false
  count : Nat := 0
  deriving DecidableEq, Repr

/-- The host interface: reset record, refused writes, queues, descriptors and commands in flight. -/
structure Hif where
  cause : Nat := 0
  quiesceTimeout : Bool := false
  unwritten : Nat := 0
  wbLost : Nat := 0
  warmRx : Nat := 0
  warmCause : Nat := 0
  refused : Refused := {}
  readData : Word := 0
  aq0Bad : Bool := false
  aq0Idx : Option (Nat × Word) := none
  aq0Set : Option (QCfg × QCfg) := none
  queues : Table Queue := []
  txPtr : Nat := 0
  admPtr : Nat := 0
  tx : List Tx := []
  adm : List Adm := []
  parkEp : Bool := false
  pollEp : Bool := false
  cellWait : List (Nat × Word) := []
  deriving DecidableEq, Repr

/-- A frame or control frame in a tree's downstream priority queues, in order of entry (R107, R173). `src` is the
descriptor it came from, none for a control frame of the ranging unit. `banks` are the packet buffer banks that hold the cells of
a control frame, with the cells in each (R299). -/
structure DsItem where
  tree : Nat
  prio : Nat
  src : Option (Nat × Word)
  bytes : List Byte
  term : Nat
  cells : Nat := 0
  poolCells : Nat := 0
  banks : List (Nat × Nat) := []
  deriving DecidableEq, Repr

/-- The frame on a port's downstream bus with the side-band values it holds to its last beat (R31). -/
structure Xfer where
  item : DsItem
  nonce : Nat
  keyIdx : Nat
  clear : Bool
  stamp : Word
  poisoned : Bool := false
  truncated : Bool := false
  deriving DecidableEq, Repr

/-- A per-port reset in progress: whether it returns the port to service, the command that started it, and whether
the flush has been acknowledged (R54–R56). -/
structure PortReset where
  restart : Bool
  cmd : Option (Nat × Word)
  flushed : Bool := false
  deriving DecidableEq, Repr

/-- One tree port (R17, R43, R105, R340). `former` names the tree that left the port and, in 1/16 ns, until when frames
presented here still belong to it (R267). `lastOut` holds the bytes, FCS included, of the last downstream frame that ended with
`FD_EOF` (R31, R54). -/
structure Port where
  enabled : Bool := false
  reset : Option PortReset := none
  clockLost : Bool := false
  held : Bool := false
  heldLater : Bool := false
  armed : Option (Nat × Word) := none
  freqMhz : Nat := 0
  present : Bool := false
  good : Bool := false
  lostSeen : Bool := false
  consts : Option FramerConst := none
  usCells : Nat := 0
  dsCells : Nat := 0
  usPool : Nat := 0
  dsPool : Nat := 0
  xfer : Option Xfer := none
  lastOut : List Byte := []
  dsDisp : List (Nat × Word) := []
  sPulse : Option Int := none
  burst : Option Nat := none
  former : Option (Nat × Int) := none
  cycLost : Bool := false
  degraded : Bool := false
  protSide : Bool := false
  lastProt : Option Nat := none
  deriving DecidableEq, Repr

/-- A migration in progress at its source (R271, R273): its ID, where it goes, the entries of its list, the terminals and flows
that it carries, the flows still to be sent, those sent, and whether MIG_END has been sent. -/
structure MigOut where
  mid : Nat
  dest : Nat
  partner : Nat
  cmd : Option (Nat × Word)
  attempt : Nat := 0
  count : Nat := 0
  terms : List Nat := []
  flows : List (Nat × Nat) := []
  left : List (Nat × Nat) := []
  sent : Nat := 0
  ended : Bool := false
  deriving DecidableEq, Repr

/-- A migration being installed at its destination (R272, R273); `ended` once MIG_END has come with the right counts. -/
structure MigIn where
  origin : Nat
  mid : Nat
  begun : Bool := false
  terms : List Nat := []
  flows : List Nat := []
  termsRefused : Nat := 0
  flowsRefused : Nat := 0
  anyHeld : Bool := false
  ended : Bool := false
  deriving DecidableEq, Repr

/-- The protection side of one tree (R262–R273). `home` none means its own port. `phase` is coded as
`TPT_PROT_STATUS.PHASE`. -/
structure Prot where
  home : Option Nat := none
  side : Bool := false
  phase : Nat := 0
  target : Bool := false
  t0 : Nat := 0
  equalised : Bool := false
  mig : Option MigOut := none
  deriving DecidableEq, Repr

/-- The tree port interface: ports, the trees' protection state, the frames queued downstream, the upstream frames. -/
structure Tpt where
  ports : Table Port := []
  prot : Table Prot := []
  dsq : List DsItem := []
  us : List Us := []
  usNext : Nat := 0
  migIn : Table MigIn := []
  migDone : List (Nat × Nat × Nat) := []
  migNext : Nat := 0
  deriving DecidableEq, Repr

/-- An exact-match entry (R130): profile, key bytes, action words 0x18 and 0x1C. -/
structure EmEnt where
  prof : Nat
  key : List Byte
  act0 : Word
  act1 : Word
  bad : Bool := false
  deriving DecidableEq, Repr

/-- The classifier: exact-match entries in order of insertion, both pages of rules and parse steps, indirection
entries, the commit in progress (R122–R139). A ternary rule is its 24 words; a parse step its 64 bits. -/
structure Cls where
  em : List EmEnt := []
  ternA : Table (List Word) := []
  ternS : Table (List Word) := []
  parseA : Table (BitVec 64) := []
  parseS : Table (BitVec 64) := []
  ternPage : Bool := false
  parsePage : Bool := false
  hold : Option (Nat × Word) := none
  copy : Option (Bool × Bool) := none
  commits : Nat := 0
  ind : Table Word := []
  badItems : List (Nat × Nat) := []
  rrUs : Nat := 0
  rrDs : Nat := 0
  stepRem : Nat := 0
  deriving DecidableEq, Repr

/-- One allocation of a terminal record (R144). -/
structure AllocRec where
  curve : Nat := 0
  flow : Nat := 0
  enable : Bool := false
  flowValid : Bool := false
  backlog : Nat := 0
  granted : Nat := 0
  owed : Nat := 0
  excess : Int := 0
  deriving DecidableEq, Repr

/-- A terminal record (R144, R167); `flagged` for a double-bit error (R161, R184). -/
structure TermRec where
  state : Nat := 0
  mode : Nat := 0
  rangePend : Bool := false
  tries : Nat := 0
  miss : Nat := 0
  rttValid : Bool := false
  driftOut : Bool := false
  drift : Int := 0
  rtt : Nat := 0
  settle : Nat := 0
  samples : Nat := 0
  eqd : Nat := 0
  autoAdj : Int := 0
  reportCycle : Nat := 0
  pollAge : Nat := 0
  burstsM1 : Nat := 0
  seqValid : Bool := false
  lastSeq : Nat := 0
  allocs : List AllocRec := [{}, {}, {}, {}]
  flagged : Bool := false
  deriving DecidableEq, Repr

/-- A service curve (R150–R152, R161). -/
structure Curve where
  guar : Nat := 0
  assured : Nat := 0
  max : Nat := 0
  weight : Nat := 0
  pollLog2 : Nat := 0
  pts : List (Nat × Nat) := []
  flagged : Bool := false
  loadedAt : Option Nat := none
  deriving DecidableEq, Repr

/-- Kinds of grant list entries, coded 0–3 in this order (R157). -/
inductive GKind where
  | data | poll | slot | window
  deriving DecidableEq, Repr

/-- A grant list entry; `start` and `len` in units of 4 bytes (R157). -/
structure GEntry where
  term : Nat
  alloc : Nat
  kind : GKind
  report : Bool := false
  first : Bool := false
  start : Nat
  len : Nat
  last : Bool := false
  flow : Option Nat := none
  deriving DecidableEq, Repr

/-- What one computation commits with its list (R141, R155). `recs` holds the new records of the terminals it changed. -/
structure Comp where
  cycle : Nat
  entries : List GEntry := []
  recs : List (Nat × TermRec) := []
  grants : List (Nat × Nat) := []
  excessPtr : Nat := 0
  granted : Nat := 0
  overhead : Nat := 0
  reserved : Nat := 0
  guarShort : Nat := 0
  entryHits : Nat := 0
  firstHit : Nat := 0
  polls : Nat := 0
  deriving DecidableEq, Repr

/-- One tree in the grant engine (R140–R163). -/
structure GTree where
  cycle : Nat := 0
  counting : Bool := false
  rot : Nat := 0
  excessPtr : Nat := 0
  lastEmpty : Bool := false
  skipNext : Bool := false
  comp : Option Comp := none
  published : Bool := false
  planNext : List GEntry := []
  planAct : List GEntry := []
  standby : Option Comp := none
  committed : Bool := false
  actList : List GEntry := []
  ledger : List (Nat × List (Nat × Nat)) := []
  guarEp : Bool := false
  entryEp : Bool := false
  deriving DecidableEq, Repr

structure Gnt where
  trees : Table GTree := []
  recs : Table TermRec := []
  curves : Table Curve := []
  loads : List (Nat × Nat × Word) := []
  deriving DecidableEq, Repr

/-- An expected burst of a cycle in force; times in 1/16 ns (R164, R166). `rtt` is the round trip taken when the cycle came
into force, none where it was not valid. -/
structure Exp where
  cycle : Nat
  term : Nat
  e : Int
  base : Int
  eqd : Int
  rtt : Option Nat
  deriving DecidableEq, Repr

/-- A ranging slot or jump-ball window whose judgement is awaited (R175, R178); `lo` and `hi` bound it in 1/16 ns.
`burst` is the arrival, `FU_STAMP` and `FU_DELIM_OFS` of the first burst of a slot's terminal. -/
structure Slot where
  cycle : Nat
  term : Nat
  lo : Int
  hi : Int
  base : Int
  eqd : Int
  burst : Option (Int × Word × BitVec 16) := none
  answers : Nat := 0
  garbled : Nat := 0
  deriving DecidableEq, Repr

/-- One tree in the ranging unit (R165–R179). `pend` lists the terminals with `RANGE_PEND` in order; `jbAt`
is the first cycle that the next window may be offered for. -/
structure RTree where
  exps : List Exp := []
  slots : List Slot := []
  wins : List Slot := []
  spans : List (Int × Int) := []
  pend : List Nat := []
  placed : List Nat := []
  jbAt : Nat := 0
  be : Nat := 0
  lastAns : Nat := 0
  lastCol : Nat := 0
  cfgBad : Bool := false
  useDelta : Int := 0
  deriving DecidableEq, Repr

structure Rng where
  trees : Table RTree := []
  recData : List Word := [0, 0, 0]
  deriving DecidableEq, Repr

/-- A flow context in plaintext, less its `CRC` (R188). -/
structure Ctx where
  flow : Nat := 0
  txPort : Nat := 0
  txTerm : Nat := 0
  clear : Bool := false
  keyIndex : Nat := 0
  nonce : Nat := 0
  txFrames : Nat := 0
  txBytes : Nat := 0
  rxFrames : Nat := 0
  rxBytes : Nat := 0
  host : List Word := [0, 0, 0, 0, 0, 0, 0, 0]
  deriving DecidableEq, Repr

/-- The block's own entry of one flow: generation, live, the causes it is held for, p and the pin (R190–R205). -/
structure Flow where
  gen : Nat := 0
  live : Bool := false
  hCheck : Bool := false
  hFault : Bool := false
  hPlaybook : Bool := false
  hNonce : Bool := false
  p : Nat := 0
  nearDone : Bool := false
  pinned : Bool := false
  slot : Option Nat := none
  deriving DecidableEq, Repr

inductive SlotSt where
  | free | filling | clean | dirty | evicting
  deriving DecidableEq, Repr

/-- A cache slot (R194–R198, R203). `victim` marks an eviction whose slot becomes FREE. -/
structure CSlot where
  st : SlotSt := .free
  flow : Nat := 0
  ctx : Ctx := {}
  prot : Option Int := none
  inUse : Nat := 0
  ref : Bool := false
  barred : Bool := false
  victim : Bool := false
  changed : Bool := false
  deriving DecidableEq, Repr

/-- Where a page operation stands (R200, R202, R203, R192). -/
inductive PagePh where
  | read | decrypt | encrypt | write | retryWait | entry
  deriving DecidableEq, Repr

/-- What a page operation is for: a page-in of a rank, a page-out of a slot, or the writes of FLOW_CREATE and
FLOW_DESTROY by a command. -/
inductive PageWhy where
  | pageIn (rank : Nat) | pageOut | create (q : Nat) (idx : Word) | destroy (q : Nat) (idx : Word) (r0 : Nat) | migrate (tree : Nat)
  deriving DecidableEq, Repr

/-- A request that the cipher engine holds (R36, R200): tag, direction, key index, tweak, and the 32 words of the data unit. -/
structure CipherReq where
  tag : Nat
  decrypt : Bool
  key : Nat
  tweak : Nat
  unit : List Word
  deriving DecidableEq, Repr

/-- A page operation. `unit` is the page that a page-in has read, `clean` marks a page-out ahead of need (R196), `a0` lists the A₀
of the prefetches that the page-in serves (R199), and `req` is the request outstanding. In phase `decrypt` or `encrypt` without
one the operation waits for a tag (R201). -/
structure PageOp where
  flow : Nat
  slot : Nat
  why : PageWhy
  ph : PagePh
  retried : Bool := false
  ctx : Ctx := {}
  unit : List Word := []
  clean : Bool := false
  a0 : List Int := []
  req : Option CipherReq := none
  deriving DecidableEq, Repr

/-- A need waiting for a page-in in rank 3 (R199): a parked descriptor, FLOW_PIN, REKEY_FLOW, or a flow to be sent. -/
inductive Need where
  | desc (flow : Nat) | cmd (flow : Nat) (q : Nat) (idx : Word) | send (flow : Nat)
  deriving DecidableEq, Repr

/-- A prefetch scheduled by a plan (R198): its flow, the tree and cycle that it belongs to, A₀, A₁ and its issue time, in
1/16 ns. -/
structure Prefetch where
  flow : Nat
  tree : Nat
  cycle : Nat
  a0 : Int
  a1 : Int
  issue : Int := 0
  deriving DecidableEq, Repr

/-- The caddie (R188–R211). `repair` holds 2 bits a flow: bit 0 REKEY, bit 1 DEAD. `shields` are prefetches whose place a
stage-5 need has taken (R199) and whose protection is still to come (R198); `waitVictim` lists the flows whose page-in has
been counted as waiting for a victim (R210). `quarTags` are the quarantined request tags, oldest first, and `lastIn` is set when
the last request admitted was a page-in's (R201). -/
structure Pgr where
  starting : Bool := false
  ready : Bool := false
  bad : Bool := false
  enabled : Bool := false
  flows : Table Flow := []
  slots : Table CSlot := []
  hand : Nat := 0
  rank1 : List (Nat × Nat) := []
  sched : List Prefetch := []
  rank2 : List Prefetch := []
  shields : List Prefetch := []
  rank3 : List Need := []
  since3 : Nat := 0
  ops : List PageOp := []
  waitVictim : List Nat := []
  quarTags : List Nat := []
  lastIn : Bool := false
  pressEp : Bool := false
  lateEp : Bool := false
  repair : Table Nat := []
  deriving DecidableEq, Repr

/-- A whistle's programme (R225–R227): next pulse and, while high, the falling time, in ns of the time base from its first epoch on. -/
structure Whistle where
  mode : Nat := 0
  width : Nat := 0
  period : Nat := 0
  start : Nat := 0
  nextAt : Nat := 0
  fallAt : Option Nat := none
  missed : Nat := 0
  deriving DecidableEq, Repr

/-- An entry of the transmit stamp ring before its slot is known (R222). -/
structure TsEnt where
  src : Nat × Word
  stampId : Word
  stamp : FullStamp
  port : Nat
  tries : Nat := 0
  deriving DecidableEq, Repr

/-- The time island (R212–R229). `epoch` is the model's own: it counts the wraps of the seconds, so that times beyond one can be
held. -/
structure Tim where
  sec : Nat := 0
  ns : Nat := 0
  frac : Nat := 0
  rate : Int := 0
  stepped : Bool := false
  refLock : Bool := false
  refLostSeen : Bool := false
  now : Word × Word × Word × Word := (0, 0, 0, 0)
  tsqEn : Bool := false
  tsqBad : Bool := false
  tsqStopped : Bool := false
  tsqPi : Word := 0
  tsqCi : Word := 0
  tsqUnrep : Nat := 0
  tsqIdx : Option Word := none
  tsqReadAt : Option Nat := none
  tsqHold : List TsEnt := []
  tsqEp : Bool := false
  whistles : Table Whistle := []
  epoch : Nat := 0
  calibrations : Nat := 0
  deriving DecidableEq, Repr

/-- The body of a link message (R244, R247–R255). A terminal record and a context travel as their words, unchanged (R252). -/
inductive Body where
  | data (d : DataMsg)
  | time (sub : Nat) (seqId : Nat) (t : FullStamp)
  | migBegin (m : MigBegin)
  | migTerm (mid : Nat) (term : Nat) (ws : List Word)
  | migFlow (mid : Nat) (flow : Nat) (page : List Word)
  | migEnd (mid terms flows : Nat)
  | migDone (mid status : Nat)
  | ack (next : Nat) (gap : Bool)
  | pause (cls : Nat) (quanta : Nat)
  | cap (ps : List Byte)
  | snap (number : Nat) (sec ns : Nat)
  | other (len : Nat)
  deriving DecidableEq, Repr

/-- A link message of a transmitter's queues. `us` is the upstream frame a DATA message carries. -/
structure Msg where
  body : Body
  cls : Nat := 0
  hops : Nat := 0
  dest : Nat := 0
  origin : Nat := 0
  seq : Nat := 0
  us : Option Nat := none
  store : Option (Nat × Nat) := none
  deriving DecidableEq, Repr

/-- A lane (R230–R240, R257, R258). `st` is the code of R230. Its receiver: `req` the tap request that it holds (P1 of a TS set),
`locked` its `RX_LOCKED`, `farAck` a CAP set with `ACK` received, `pos` the in-port number that ALIGN brings, `rxScr` the last bits
received at full rate, `full` once it hunts for blocks. Its transmitter: `txSet` the ordered set on the line and `txAcc` how far it
has gone, `codes` the last set sent and `rd` a positive running disparity after it, `ackSent` CAP sets sent with `ACK`, `markTx` the
`COUNT` that comes next, `fullTx` once it sends blocks, `begun` once it has sent one, `txScr` its scrambler and `line` the blocks last sent. -/
structure Lane where
  st : Nat := 0
  resetting : Bool := false
  pre : Nat := 4
  main : Nat := 52
  post : Nat := 8
  tapStat : Nat := 0
  trained : Bool := false
  tsSeen : Nat := 0
  lkSeen : Nat := 0
  symLock : Bool := false
  cap : List Byte := []
  capSame : Nat := 0
  ack : Bool := false
  sawBad : Bool := false
  marking : Bool := false
  markLeft : Option Nat := none
  full : Bool := false
  aligned : Bool := false
  wakeLock : Bool := false
  noClkSaid : Bool := false
  ctle : Nat := 0
  req : Nat := 0
  locked : Bool := false
  farAck : Bool := false
  pos : Nat := 0
  rxScr : BitVec 58 := 0
  txSet : List Byte := []
  txAcc : Nat := 0
  codes : List (BitVec 10) := []
  rd : Bool := false
  ackSent : Nat := 0
  markTx : Option Nat := none
  fullTx : Bool := false
  begun : Bool := false
  txScr : BitVec 58 := 0
  line : List LineBlock := []
  deriving DecidableEq, Repr

/-- The time exchange a port has in progress (R250, R251). -/
structure Exch where
  step : Nat
  seqId : Nat
  t1 : FullStamp := {}
  t2 : FullStamp := {}
  t3 : FullStamp := {}
  deriving DecidableEq, Repr

/-- A message held in a port's receive store: its number, class, cells, and the message (R246, R254). -/
structure Stored where
  id : Nat
  cls : Nat
  cells : Nat
  msg : Msg
  local_ : Bool
  deriving DecidableEq, Repr

/-- A cluster port (R241–R257). `blk` is the place of its next block among the 16,384 from one row of ALIGN to the next, `marker`
the marker count of that row, and `rowAcc` how far an idle row has gone, in 1/25 ns (R237, R240). -/
structure CPort where
  up : Bool := false
  blocked : Bool := false
  farId : Nat := 0
  farPort : Nat := 0
  farClasses : Nat := 0
  farRole : Nat := 0
  session : Option Nat := none
  paused : Table Nat := []
  asleep : Bool := false
  rxAsleep : Bool := false
  nextSeq : Nat := 0
  expect : Nat := 0
  accepted : Nat := 0
  unacked : List Msg := []
  retx : List Msg := []
  retxEp : Bool := false
  gapAt : Option Nat := none
  crcAt : Option Nat := none
  txq : List Msg := []
  cur : Option Msg := none
  store : List Stored := []
  xoffs : List Nat := []
  exch : Option Exch := none
  seqId : Nat := 0
  resValid : Bool := false
  resSeq : Nat := 0
  res : List FullStamp := []
  blk : Nat := 0
  marker : Nat := 0
  rowAcc : Nat := 0
  deriving DecidableEq, Repr

/-- The link. `out` holds the DATA and MIGRATE messages that wait for a port, in order (R243, R245). -/
structure Lnk where
  lanes : Table Lane := []
  ports : Table CPort := []
  routes : Table Word := []
  session : Nat := 0
  seen : List (Nat × Nat) := []
  out : List Msg := []
  storeNext : Nat := 0
  deriving DecidableEq, Repr

/-- A power domain (R299–R307): depth, the depth being entered, waking, a wake that waits for the entry's end, the scheduled
wake and the next event that was known at its entry (1/16 ns), failed, its shadow found bad (R291). Disabled ports and lanes sit
in locker. -/
structure Dom where
  depth : Nat := 3
  entering : Option Nat := none
  waking : Bool := false
  wakeDue : Bool := false
  wakeAt : Option Int := none
  known : Option Int := none
  failed : Bool := false
  shadowBad : Bool := false
  deriving DecidableEq, Repr

structure Pwr where
  doms : Table Dom := []
  subUs : List Nat := [0, 0, 0]
  deriving DecidableEq, Repr

/-- An entry of the always-on error log (R295). -/
structure LogEnt where
  number : Nat
  code : Nat
  level : Nat
  seconds : Word
  arg0 : Word
  arg1 : Word
  deriving DecidableEq, Repr

/-- One interrupt vector (R30, R290). -/
structure Vec where
  count : Nat := 0
  timer : Bool := false
  unacked : Bool := false
  due : Bool := false
  deriving DecidableEq, Repr

structure Err where
  playbook : Table Word := []
  tokens : Table Nat := []
  log : Table LogEnt := []
  logged : Nat := 0
  lastLog : Table Nat := []
  noRing : Nat := 0
  fired : BitVec 64 := 0
  vecs : Table Vec := []
  sbStore : Nat := 0
  dbStore : Nat := 0
  sbWord : Nat := 0
  dbWord : Nat := 0
  sbSeen : List (Nat × Nat) := []
  scrubAt : Nat := 0
  scrubMs : Nat := 0
  pbBad : List Nat := []
  deriving DecidableEq, Repr

/-- A freeze time waiting (R321): T in quarter-nanoseconds of the time base, number, origin, cluster, the command. -/
structure Freeze where
  t : Nat
  number : Nat
  origin : Nat
  cluster : Bool
  cmd : Option (Nat × Word)
  deriving DecidableEq, Repr

/-- The freeze buffer (R317, R318): the counters as they stood, and the header's fields. -/
structure Image where
  fz : Freeze
  late : Bool
  lateNs : Nat
  ctrs : Table (BitVec 48)
  slot : Option Nat
  base : Nat
  deriving DecidableEq, Repr

/-- The monitor (R312–R327). -/
structure Mon where
  drawsUs : Nat := 0
  drawsDs : Nat := 0
  trEn : Bool := false
  trBad : Bool := false
  trStopped : Bool := false
  trPi : Word := 0
  trCi : Word := 0
  trUnrep : Nat := 0
  trIdx : Option Word := none
  trReadAt : Option Nat := none
  trHold : List (List Word) := []
  trLost : Nat := 0
  bwSeq : Nat := 0
  bwShort : Bool := false
  bwAbandoned : Bool := false
  bwBase : Table (Nat × Nat) := []
  bwRes : Table (Nat × Nat) := []
  bwLatch : Table (List Word) := []
  freezes : List Freeze := []
  image : Option Image := none
  snapCount : Nat := 0
  snapLast : Nat := 0
  snapSlot : Nat := 0
  snapNext : Nat := 0
  coreAcc : Nat := 0
  deriving DecidableEq, Repr

/-- The whole block. `regs` holds the words that software sets, by offset; `ctrs` the 48-bit counters, by the offset of
their low word, and `latches` the bits [47:32] latched by a read (R116). `uptime` counts time-island edges since the
block left cold reset and is never stepped; `freeCtr` numbers the free values taken; `pending` holds the commands that
wait, first in first out (the last two are the model's own). -/
structure State where
  phase : Phase := .coldHeld
  uptime : Nat := 0
  regs : Table Word := []
  ctrs : Table (BitVec 48) := []
  latches : Table (BitVec 16) := []
  fab : Fab := {}
  hif : Hif := {}
  tpt : Tpt := {}
  cls : Cls := {}
  gnt : Gnt := {}
  rng : Rng := {}
  pgr : Pgr := {}
  tim : Tim := {}
  lnk : Lnk := {}
  pwr : Pwr := {}
  err : Err := {}
  mon : Mon := {}
  freeCtr : Nat := 0
  pending : List Instr := []
  deriving DecidableEq, Repr

/-- The block right after a cold reset, at the instant it leaves reset (R213): every store empty, every register at its
reset value (R49, R342), the time base at 0, the capture cells calibrated (R47), and the session drawn (R235). -/
def State.reset : State :=
  { phase := .running, tim := { calibrations := 1 }, lnk := { session := (Config.session 0).toNat }, freeCtr := 1 }

/-- Faults: none. The manual names no condition in which the block stops instead of going on (R22), so no command ends
in a fault. -/
inductive Fault where
  deriving DecidableEq, Repr

/-- Refusals. -/
inductive Refusal where
  /-- Raised by an arm of `exec` whose command has no meaning yet; safe: the run stops. -/
  | notModelled (mnemonic : String)
  deriving DecidableEq, Repr

end Sys2Proof.Machine
end

