-- ==== Sys2Proof/Machine/Ops.lean ====
section
/-! DEFINITION. The named operations on the state: sparse tables, bit fields, one accessor a unit, the time base and its
stamps, the counters, and the requests on the fabric. -/

namespace Sys2Proof.Machine

/-! Sparse tables: keys strictly rising, no entry equal to the default. -/

/-- The entry of a key, when one is listed. -/
def tfind {α : Type} (t : Table α) (k : Nat) : Option α :=
  match t with
  | [] => none
  | (k', a) :: r => if k' = k then some a else tfind r k

/-- What a key reads as. -/
def tget {α : Type} (t : Table α) (k : Nat) (d : α) : α := (tfind t k).getD d

/-- The table with an entry listed, in the order of the keys. -/
def tins {α : Type} (t : Table α) (k : Nat) (x : α) : Table α :=
  match t with
  | [] => [(k, x)]
  | (k', a) :: r => if k < k' then (k, x) :: (k', a) :: r else if k = k' then (k, x) :: r else (k', a) :: tins r k x

/-- The table with one key listed or unlisted. -/
def tput {α : Type} (t : Table α) (k : Nat) (v : Option α) : Table α :=
  match v with
  | some x => tins t k x
  | none => t.filter fun e => e.1 ≠ k

/-- A write in canonical form: writing the default unlists the key. -/
def tset {α : Type} [DecidableEq α] (t : Table α) (d : α) (k : Nat) (v : α) : Table α :=
  tput t k (if v = d then none else some v)

/-- The canonical form, for keys from `lo` up. -/
def twfFrom {α : Type} [DecidableEq α] (d : α) (lo : Nat) (t : Table α) : Bool :=
  match t with
  | [] => true
  | (k, a) :: r => decide (lo ≤ k) && decide (a ≠ d) && twfFrom d (k + 1) r

/-- The canonical form of a table. -/
def twf {α : Type} [DecidableEq α] (d : α) (t : Table α) : Bool := twfFrom d 0 t

/-! Lists. -/

/-- The first element that a test picks, changed. -/
def updFirst {α : Type} (p : α → Bool) (f : α → α) : List α → List α
  | [] => []
  | a :: r => if p a then f a :: r else a :: updFirst p f r

/-- The list less the first element that a test picks. -/
def dropFirst {α : Type} (p : α → Bool) : List α → List α
  | [] => []
  | a :: r => if p a then r else a :: dropFirst p r

/-- One at a time over the numbers below `n`, in rising order. -/
def eachBelow {α : Type} (n : Nat) (f : Nat → α → α) (a : α) : α := (List.range n).foldl (fun b k => f k b) a

/-! Bit fields. -/

/-- Bits `[lo + n - 1 : lo]` of a word. -/
def bitsOf (w : Word) (lo n : Nat) : Nat := w.toNat / 2 ^ lo % 2 ^ n

/-- Bit `i` of a word. -/
def bitOf (w : Word) (i : Nat) : Bool := bitsOf w i 1 = 1

def ofBit (b : Bool) : Nat := if b then 1 else 0

def wordOf (n : Nat) : Word := BitVec.ofNat 32 n

/-- The two's complement value of an integer in a word. -/
def wordOfInt (n : Int) : Word := BitVec.ofInt 32 n

/-- A word of a list of words; a word past the end is 0. -/
def wAt (ws : List Word) (i : Nat) : Word := ws.getD i 0

/-- Saturation. -/
def sat (m n : Nat) : Nat := if n ≤ m then n else m

def ceilDiv (a b : Nat) : Nat := (a + b - 1) / b

/-! Bytes. -/

/-- The four bytes of a word, lowest address first (R5). -/
def wordBytes (w : Word) : List Byte :=
  [BitVec.ofNat 8 (bitsOf w 0 8), BitVec.ofNat 8 (bitsOf w 8 8), BitVec.ofNat 8 (bitsOf w 16 8), BitVec.ofNat 8 (bitsOf w 24 8)]

def wordsBytes (ws : List Word) : List Byte := ws.flatMap wordBytes

/-- A little-endian number of bytes (R5). -/
def leNat : List Byte → Nat
  | [] => 0
  | b :: r => b.toNat + 256 * leNat r

/-- A big-endian number of bytes, as frames carry them. -/
def beNat (bs : List Byte) : Nat := bs.foldl (fun a b => a * 256 + b.toNat) 0

/-- Bytes as words, the last padded with zeros; `n` bounds the words. -/
def packWords : Nat → List Byte → List Word
  | 0, _ => []
  | n + 1, bs => match bs with
    | [] => []
    | _ => wordOf (leNat (bs.take 4)) :: packWords n (bs.drop 4)

def bytesWords (bs : List Byte) : List Word := packWords bs.length bs

/-- One bit step of a reflected CRC. -/
def crcBit (poly : Nat) (r : Nat) : Nat := if r % 2 = 1 then Nat.xor (r / 2) poly else r / 2

/-- A reflected CRC over bytes, least significant bit of each byte first (R103); `poly` in reflected form. -/
def crcRun (poly : Nat) (r : Nat) : List Byte → Nat
  | [] => r
  | b :: bs =>
    crcRun poly (crcBit poly (crcBit poly (crcBit poly (crcBit poly
      (crcBit poly (crcBit poly (crcBit poly (crcBit poly (Nat.xor r b.toNat))))))))) bs

/-- CRC-32 as in IEEE 802.3 (R103). -/
def crc32 (bs : List Byte) : Nat := Nat.xor (crcRun 0xEDB88320 0xFFFFFFFF bs) 0xFFFFFFFF

/-- CRC-32C (R103). -/
def crc32c (bs : List Byte) : Nat := Nat.xor (crcRun 0x82F63B78 0xFFFFFFFF bs) 0xFFFFFFFF

/-- CRC-16 as in ITU-T X.25 (R103). -/
def crc16 (bs : List Byte) : Nat := Nat.xor (crcRun 0x8408 0xFFFF bs) 0xFFFF

/-- The check value that a `CHK_POLY` code names, 0 for none (R103). -/
def checkValue (code : Nat) (bs : List Byte) : Word :=
  wordOf (match code with
    | 1 => crc32 bs
    | 2 => crc32c bs
    | 3 => crc16 bs
    | _ => 0)

/-- A number in `n` bytes, most significant first. -/
def beBytes (n v : Nat) : List Byte := (List.range n).map fun i => BitVec.ofNat 8 (v / 256 ^ (n - 1 - i))

/-! One accessor a unit. -/

def State.modFab (f : Fab → Fab) (s : State) : State := { s with fab := f s.fab }
def State.modHif (f : Hif → Hif) (s : State) : State := { s with hif := f s.hif }
def State.modTpt (f : Tpt → Tpt) (s : State) : State := { s with tpt := f s.tpt }
def State.modCls (f : Cls → Cls) (s : State) : State := { s with cls := f s.cls }
def State.modGnt (f : Gnt → Gnt) (s : State) : State := { s with gnt := f s.gnt }
def State.modRng (f : Rng → Rng) (s : State) : State := { s with rng := f s.rng }
def State.modPgr (f : Pgr → Pgr) (s : State) : State := { s with pgr := f s.pgr }
def State.modTim (f : Tim → Tim) (s : State) : State := { s with tim := f s.tim }
def State.modLnk (f : Lnk → Lnk) (s : State) : State := { s with lnk := f s.lnk }
def State.modPwr (f : Pwr → Pwr) (s : State) : State := { s with pwr := f s.pwr }
def State.modErr (f : Err → Err) (s : State) : State := { s with err := f s.err }
def State.modMon (f : Mon → Mon) (s : State) : State := { s with mon := f s.mon }

def getQueue (s : State) (q : Nat) : Queue := tget s.hif.queues q {}
def modQueue (q : Nat) (f : Queue → Queue) (s : State) : State :=
  s.modHif fun h => { h with queues := tset h.queues {} q (f (tget h.queues q {})) }

def getPort (s : State) (n : Nat) : Port := tget s.tpt.ports n {}
def modPort (n : Nat) (f : Port → Port) (s : State) : State :=
  s.modTpt fun h => { h with ports := tset h.ports {} n (f (tget h.ports n {})) }

def getProt (s : State) (t : Nat) : Prot := tget s.tpt.prot t {}
def modProt (t : Nat) (f : Prot → Prot) (s : State) : State :=
  s.modTpt fun h => { h with prot := tset h.prot {} t (f (tget h.prot t {})) }

def getGTree (s : State) (t : Nat) : GTree := tget s.gnt.trees t {}
def modGTree (t : Nat) (f : GTree → GTree) (s : State) : State :=
  s.modGnt fun h => { h with trees := tset h.trees {} t (f (tget h.trees t {})) }

def getRec (s : State) (h : Nat) : TermRec := tget s.gnt.recs h {}
def modRec (h : Nat) (f : TermRec → TermRec) (s : State) : State :=
  s.modGnt fun g => { g with recs := tset g.recs {} h (f (tget g.recs h {})) }

def getCurve (s : State) (i : Nat) : Curve := tget s.gnt.curves i {}
def modCurve (i : Nat) (f : Curve → Curve) (s : State) : State :=
  s.modGnt fun g => { g with curves := tset g.curves {} i (f (tget g.curves i {})) }

def getRTree (s : State) (t : Nat) : RTree := tget s.rng.trees t {}
def modRTree (t : Nat) (f : RTree → RTree) (s : State) : State :=
  s.modRng fun h => { h with trees := tset h.trees {} t (f (tget h.trees t {})) }

def getFlow (s : State) (f : Nat) : Flow := tget s.pgr.flows f {}
def modFlow (k : Nat) (f : Flow → Flow) (s : State) : State :=
  s.modPgr fun h => { h with flows := tset h.flows {} k (f (tget h.flows k {})) }

def getSlot (s : State) (i : Nat) : CSlot := tget s.pgr.slots i {}
def modSlot (i : Nat) (f : CSlot → CSlot) (s : State) : State :=
  s.modPgr fun h => { h with slots := tset h.slots {} i (f (tget h.slots i {})) }

def getLane (s : State) (l : Nat) : Lane := tget s.lnk.lanes l {}
def modLane (l : Nat) (f : Lane → Lane) (s : State) : State :=
  s.modLnk fun h => { h with lanes := tset h.lanes {} l (f (tget h.lanes l {})) }

def getCPort (s : State) (c : Nat) : CPort := tget s.lnk.ports c {}
def modCPort (c : Nat) (f : CPort → CPort) (s : State) : State :=
  s.modLnk fun h => { h with ports := tset h.ports {} c (f (tget h.ports c {})) }

def getDom (s : State) (d : Nat) : Dom := tget s.pwr.doms d {}
def modDom (d : Nat) (f : Dom → Dom) (s : State) : State :=
  s.modPwr fun h => { h with doms := tset h.doms {} d (f (tget h.doms d {})) }

/-- A sleeping domain's wake starts; one that is entering a depth finishes its entry first (R301). -/
def Dom.roused (D : Dom) : Dom :=
  if D.entering.isSome then { D with wakeDue := true }
  else if D.depth = 0 then D
  else { D with waking := true, wakeDue := false, wakeAt := none }

/-- An access to a core unit: at bench, it wakes (R304). -/
def access (d : Nat) (s : State) : State :=
  if (getDom s d).depth = 1 || (getDom s d).entering.isSome then modDom d Dom.roused s else s

def getVec (s : State) (v : Nat) : Vec := tget s.err.vecs v {}
def modVec (v : Nat) (f : Vec → Vec) (s : State) : State :=
  s.modErr fun h => { h with vecs := tset h.vecs {} v (f (tget h.vecs v {})) }

/-- The pair of a flag and a value that draws a free value: the counter moves on (the model's own). -/
def drawn (s : State) : State := { s with freeCtr := s.freeCtr + 1 }

/-- The block has left reset and accepts work (R28, R48). -/
def running (s : State) : Bool := s.phase = .running

/-- An effect that happens only outside the resets. -/
def whenRunning (f : State → State) (s : State) : State := if running s then f s else s

/-- Work that the quiesce phase of a warm reset still carries on (R51). -/
def whenLive (f : State → State) (s : State) : State := if running s || s.phase = .quiesce then f s else s

/-! The time base (R212) and its stamps (R217–R222). -/

/-- The time base in units of 2^-32 ns. -/
def now32 (t : Tim) : Int := ((t.sec * 1000000000 + t.ns : Nat) : Int) * 4294967296 + (t.frac : Int)

/-- The time base in 1/16 ns, cut (R217). -/
def now16 (s : State) : Int := now32 s.tim / 268435456

/-- One 125 µs cycle, and other spans, in 1/16 ns. -/
def cycle16 : Int := 2000000
def us16 (n : Nat) : Int := (n * 16000 : Nat)

/-- The time base in whole ns. -/
def nowNs (s : State) : Nat := s.tim.sec * 1000000000 + s.tim.ns

/-- The ns from the first instant of the time base's present epoch back to that of its first, and the time base counted from there
(R212). -/
def epochNs (s : State) : Nat := s.tim.epoch * 281474976710656 * 1000000000
def nowAbs (s : State) : Nat := epochNs s + nowNs s

/-- An instant in units of 2^-32 ns cut to a short stamp (R218, R220). -/
def shortStamp (t : Int) : Word :=
  wordOfInt ((t / 4294967296 / 1000000000) % 4 * 1073741824 + t / 4294967296 % 1000000000)

/-- An instant cut to a full stamp (R218, R222). -/
def fullStamp (t : Int) : FullStamp :=
  { sec := (t / 1073741824 / 4000000000 % 281474976710656).toNat,
    ns := (t / 1073741824 / 4 % 1000000000).toNat, qns := (t / 1073741824 % 4).toNat }

/-- The short stamp of the moment (R88, R218). -/
def stampNow (s : State) : Word := shortStamp (now32 s.tim)

/-- A captured instant: the time base, the cell's measurement in 1/16 ns, and an offset in 1/256 ns (R47, R217, R219). -/
def captured (s : State) (sub : Nat) (offset : Int) : Int :=
  now32 s.tim + (sub : Int) * 268435456 + offset * 16777216

/-- The words of a full stamp as a ring entry carries them, seconds [47:32] last (R222). -/
def FullStamp.words (f : FullStamp) : List Word :=
  [wordOf (f.ns * 4 + f.qns), wordOf (f.sec % 4294967296), wordOf (f.sec / 4294967296)]

/-- One edge of the 1.000 GHz clock (R212). -/
def timeEdge (t : Tim) : Tim :=
  let sum : Int := ((t.ns : Nat) : Int) * 4294967296 + (t.frac : Int) + 4294967296 + t.rate
  let ns := (sum / 4294967296).toNat
  let frac := (sum % 4294967296).toNat
  if ns < 1000000000 then { t with ns := ns, frac := frac }
  else
    { t with sec := (t.sec + 1) % 281474976710656, ns := ns - 1000000000, frac := frac,
             epoch := t.epoch + (t.sec + 1) / 281474976710656 }

/-! Counters (R116): 48 bits, free running. -/

def getCtr (s : State) (off : Nat) : BitVec 48 := tget s.ctrs off 0

/-- A counter without half-range events counts. -/
def addCtr (off n : Nat) (s : State) : State :=
  { s with ctrs := tset s.ctrs 0 off (getCtr s off + BitVec.ofNat 48 n) }

/-- Offsets of the counters (R116, R260, R339, R139, R163, R187, R210, R229, R277, R298, R311, R312). -/
def hifCtr (k : Nat) : Nat := 0x00200 + k * 8
def protCtr (k : Nat) : Nat := 0x20000 + k * 8
def clsCtr (k : Nat) : Nat := 0x30100 + k * 8
def gntCtr (n k : Nat) : Nat := 0x44000 + n * 0x80 + k * 8
def rngCtr (n k : Nat) : Nat := 0x54000 + n * 0x80 + k * 8
def pgrCtr (k : Nat) : Nat := 0x60100 + k * 8
def timCtr (k : Nat) : Nat := 0x70100 + k * 8
def laneCtr (l : Nat) : Nat := 0x80500 + l * 8
def lnkCtr (p k : Nat) : Nat := 0x88000 + p * 0x200 + k * 8
def pwrCtr (k : Nat) : Nat := 0x90400 + k * 8
def errCtr (k : Nat) : Nat := 0xA0400 + k * 8
def perfCtr (k : Nat) : Nat := 0xB4000 + k * 8
def statCtr (n k : Nat) : Nat := 0xB8000 + n * 0x200 + k * 8

/-! Ring arithmetic (R65, R67). -/

def ringSize (c : QCfg) : Nat := 2 ^ c.log2

/-- The slot of an index. -/
def slotOf (c : QCfg) (i : Word) : Nat := i.toNat % 2 ^ c.log2

/-- The sequence tag of an index (R67). -/
def tagOf (log2 : Nat) (i : Word) : Nat := i.toNat / 2 ^ log2 % 65536

/-- (a − b) mod 2^32. -/
def gap (a b : Word) : Nat := (a - b).toNat

/-- Types of queue numbers, coded as in R61; 7 for an unassigned number. -/
def qType (q : Nat) : Nat :=
  if q < 4096 then 0 else if q < 5120 then 1 else if q < 5184 then 2
  else if q < 6144 then 7 else if q < 7168 then 3 else if q < 7184 then 4 else 7

/-- Bytes of an entry of a queue's ring (R61). -/
def entryBytes (q : Nat) : Nat :=
  match qType q with
  | 0 => 32
  | 1 => 16
  | 2 => 64
  | 3 => 32
  | _ => 16

def QState.code : QState → Nat
  | .notCreated => 0
  | .active => 1
  | .stopped => 2
  | .draining => 3

/-- The completion ring a queue is bound to. -/
def ringOfQueue (s : State) (q : Nat) : Nat := (getQueue s q).cfg.cq

/-- The host address of a slot. -/
def slotAddr (c : QCfg) (bytes : Nat) (i : Word) : Nat := c.ringBase + slotOf c i * bytes

/-! Fabric requests (R23): reads start on 64-byte lines; no request passes 512 bytes or a 4 KiB boundary. -/

/-- Pieces of at most 512 bytes inside 4 KiB pages, as pairs of address and length. -/
def pieces : Nat → Nat → Nat → List (Nat × Nat)
  | 0, _, _ => []
  | n + 1, addr, len =>
    if len = 0 then []
    else
      let l := min len (min 512 (4096 - addr % 4096))
      (addr, l) :: pieces n (addr + l) (len - l)

/-- The requests that a read of a span of bytes makes, in whole 64-byte lines. -/
def readPieces (addr len : Nat) : List (Nat × Nat) :=
  if len = 0 then [] else
  let a := addr / 64 * 64
  let e := ceilDiv (addr + len) 64 * 64
  pieces (len / 512 + 4) a (e - a)

/-- The use that an event names (R281). -/
def RdUse.code : RdUse → Nat
  | .payload _ _ => 0
  | .txDesc _ _ => 1
  | .adminDesc _ _ => 1
  | .rxDesc _ _ => 1
  | .poll q => if qType q < 3 then 1 else 2
  | .index _ => 2
  | .enableIndex _ => 2
  | .qtable _ _ => 2
  | .queueEntry _ => 2
  | .tsqCi => 2
  | .traceCi => 2
  | .page _ => 3
  | .segList _ _ => 5
  | .adminBuf _ _ => 5
  | .flowEntry _ => 5
  | .migList _ => 5
  | .restore _ => 5
  | .orphan c => c

/-- The order of R20 in which reads are served. -/
def RdUse.order : RdUse → Nat
  | .rxDesc _ _ => 1
  | .page _ => 2
  | .poll _ => 3
  | .index _ => 3
  | .enableIndex _ => 3
  | .qtable _ _ => 3
  | .queueEntry _ => 3
  | .tsqCi => 3
  | .traceCi => 3
  | _ => 4

/-- Waiting reads in the order of R20, those of one order as they came. -/
def byOrder (l : List RdReq) : List RdReq := (List.range 4).flatMap fun k => l.filter fun r => r.use.order = k + 1

/-- Reads that wait for a tag go out as tags are free (R18, R20, R26). -/
def admitReads (s : State) : State :=
  s.modFab fun f =>
    let l := byOrder f.wait
    let n := 1024 - (f.reads.length + f.quar.length)
    { f with reads := f.reads ++ l.take n, wait := l.drop n }

/-- Read requests go out, one tag each, or wait for a free tag. -/
def issueReads (use : RdUse) (ps : List (Nat × Nat)) (s : State) : State :=
  admitReads (State.modFab (fun f =>
    { f with next := f.next + ps.length,
             wait := f.wait ++ (List.range ps.length).map fun i =>
               { id := f.next + i, use := use, addr := (ps.getD i (0, 0)).1, len := (ps.getD i (0, 0)).2 } }) (access 208 s))

/-- A read of a span of bytes is issued. -/
def fabRead (use : RdUse) (addr len : Nat) (s : State) : State := issueReads use (readPieces addr len) s

/-- The read tags in use, quarantined ones included (R26). -/
def tagsUsed (s : State) : Nat := sat 1024 (s.fab.reads.length + s.fab.quar.length)

/-- Every read of a use, waiting or outstanding. -/
def readsOf (s : State) (p : RdUse → Bool) : List RdReq := (s.fab.reads ++ s.fab.wait).filter fun r => p r.use

/-- A read for a use has been made and not answered. -/
def asked (s : State) (u : RdUse) : Bool := !(readsOf s fun v => v = u).isEmpty

/-- The reads of a use are all outstanding, so its data may come. -/
def reading (s : State) (u : RdUse) : Bool :=
  (s.fab.reads.any fun r => r.use = u) && !s.fab.wait.any fun r => r.use = u

/-- The reads that a test picks are answered: their tags free. -/
def endReads (p : RdUse → Bool) (s : State) : State :=
  admitReads (s.modFab fun f => { f with reads := f.reads.filter fun r => !p r.use })

/-- The uses that a test picks have ended before all their responses came: the tags of the requests outstanding are held until
those come, and the requests that wait for a tag are not made (R23, R26). -/
def dropReads (p : RdUse → Bool) (s : State) : State :=
  s.modFab fun f => { f with reads := f.reads.map fun r => if p r.use then { r with use := .orphan r.use.code } else r,
                             wait := f.wait.filter fun r => !p r.use }

/-- The write requests of words laid from an address, cut as R23 asks. -/
def issueWrite (use : WrUse) (addr len : Nat) (ws : List Word) (s : State) : State :=
  (access 208 s).modFab fun f =>
    let ps := pieces (len / 512 + 4) addr len
    { f with next := f.next + ps.length,
             writes := f.writes ++ (List.range ps.length).map fun i =>
               let p := ps.getD i (0, 0)
               { id := f.next + i, use := use, addr := p.1, len := p.2,
                 ws := (ws.drop ((p.1 - addr) / 4)).take (ceilDiv p.2 4) } }

/-- A write for a use is outstanding. -/
def writing (s : State) (p : WrUse → Bool) : Bool := s.fab.writes.any fun w => p w.use

/-! Frames. -/

/-- Cells of a frame of `len` bytes (R105). -/
def cellsOf (len : Nat) : Nat := ceilDiv len 64

/-- A destination address of all ones, or with the group bit set (R117). -/
def isBroadcast (bs : List Byte) : Bool := decide (6 ≤ bs.length) && (bs.take 6).all fun b => b = 0xFF
def isMulticast (bs : List Byte) : Bool := (bs.headD 0).toNat % 2 = 1 && !isBroadcast bs

/-- The size bucket of R117, 0–6, of a frame of 64 bytes or more. -/
def sizeBucket (len : Nat) : Nat :=
  if len ≤ 64 then 0 else if len ≤ 127 then 1 else if len ≤ 255 then 2 else if len ≤ 511 then 3
  else if len ≤ 1023 then 4 else if len ≤ 1518 then 5 else 6

end Sys2Proof.Machine
end

