-- ==== Sys2Proof/Machine/Flags.lean ====
section
/-! DEFINITION. The fields of the registers that software writes: access codes, reset values, locks and refusals
(R6, R7, R27, R28, R335–R337), and the register map (R333–R341). -/

namespace Sys2Proof.Machine

/-- The access codes of R7. -/
inductive Acc where
  | rw | ro | w1c | w1s | wo | rwl
  deriving DecidableEq, Repr

/-- The conditions of R336 under which RWL fields are locked. -/
inductive Lock where
  | never | aq0 | port | home | caddie | tsq | trace | link | lport
  deriving DecidableEq, Repr

/-- The value checks that R337 lists under cause 0x3, and the uses of cause 0x5. -/
inductive Check where
  | any | profile | maxFrame | stampOffset | protCfg | protDelta | migCount | treeCfg | rngCfg | rngTree | regTable
  | pgrCfg | pgrLead | lnkCfg | snapLead | portCfg | watermark | vecMod | pwrCtrl | groupCap | portCap | markCtrl
  | markSeed | traceCtrl | bwCtrl | snapCtrl | routeData | filter | hashKey
  deriving DecidableEq, Repr

/-- A field: its lowest bit, width, access code and reset value. -/
structure RField where
  lo : Nat
  width : Nat
  acc : Acc
  reset : Nat := 0
  deriving DecidableEq, Repr

/-- A row of the map: `n1` blocks `s1` bytes apart of `n2` words `s2` bytes apart. -/
structure RRow where
  base : Nat
  s1 : Nat := 4
  n1 : Nat := 1
  s2 : Nat := 4
  n2 : Nat := 1
  fields : List RField := []
  lock : Lock := .never
  check : Check := .any
  deriving DecidableEq, Repr

def fRW (lo width : Nat) (reset : Nat := 0) : RField := { lo := lo, width := width, acc := .rw, reset := reset }
def fRWL (lo width : Nat) (reset : Nat := 0) : RField := { lo := lo, width := width, acc := .rwl, reset := reset }
def fOf (acc : Acc) (lo width : Nat) : RField := { lo := lo, width := width, acc := acc }

/-- Host interface (R338). -/
def rowsHif : List RRow := [
  { base := 0x00040, fields := [fOf .w1c 31 1] },
  { base := 0x00044 },
  { base := 0x00080, fields := [fOf .wo 0 1, fOf .wo 16 16] },
  { base := 0x00084, n1 := 5 },
  { base := 0x000A0, fields := [fRW 0 10, fRW 31 1] },
  { base := 0x000C0, n1 := 16 },
  { base := 0x00100, fields := [fRWL 12 20], lock := .aq0 },
  { base := 0x00104, fields := [fRWL 0 20], lock := .aq0 },
  { base := 0x00110, s1 := 16, n1 := 2, fields := [fRWL 6 26], lock := .aq0 },
  { base := 0x00114, s1 := 8, n1 := 4, fields := [fRWL 0 20], lock := .aq0 },
  { base := 0x00118, s1 := 16, n1 := 2, fields := [fRWL 3 29], lock := .aq0 },
  { base := 0x00130, fields := [fOf .w1s 0 1, fOf .ro 1 1, fRWL 8 5, fRWL 16 5, fRWL 24 6, fRWL 30 1], lock := .aq0 },
  { base := 0x00200, n1 := 64 },
  { base := 0x01000, n1 := 512 },
  { base := 0x01800, n1 := 64, fields := [fRW 0 32] }]

/-- Tree port interface (R340). -/
def rowsTpt : List RRow := [
  { base := 0x10000, s1 := 0x400, n1 := 64, fields := [fRWL 0 2 2], lock := .port, check := .profile },
  { base := 0x10004, s1 := 0x400, n1 := 64 },
  { base := 0x10010, s1 := 0x400, n1 := 64, fields := [fRWL 0 14 1518], lock := .port, check := .maxFrame },
  { base := 0x10018, s1 := 0x400, n1 := 64 },
  { base := 0x10040, s1 := 0x400, n1 := 64, fields := [fOf .w1c 18 1] },
  { base := 0x10050, s1 := 0x400, n1 := 64, n2 := 2 },
  { base := 0x10060, s1 := 0x400, n1 := 64, n2 := 2, fields := [fRW 0 32], check := .stampOffset },
  { base := 0x10070, s1 := 0x400, n1 := 64, fields := [fRWL 0 2, fRWL 2 6, fRWL 8 14], lock := .home, check := .protCfg },
  { base := 0x10074, s1 := 0x400, n1 := 64, fields := [fRW 0 32], check := .protDelta },
  { base := 0x10078, s1 := 0x400, n1 := 64, fields := [fRW 3 29] },
  { base := 0x1007C, s1 := 0x400, n1 := 64, fields := [fRW 0 20] },
  { base := 0x10080, s1 := 0x400, n1 := 64, fields := [fRW 0 15], check := .migCount },
  { base := 0x10084, s1 := 0x400, n1 := 64 },
  { base := 0x10088, s1 := 0x400, n1 := 64, fields := [fOf .wo 0 1] },
  { base := 0x20000, n1 := 32 }]

/-- Classifier (R139, R110). -/
def rowsCls : List RRow := [
  { base := 0x30000, fields := [fRW 0 2 3] },
  { base := 0x30004, n1 := 3 },
  { base := 0x30100, n1 := 32 },
  { base := 0x30200, n1 := 64, fields := [fRW 0 10, fRW 10 6, fRW 16 3, fRW 24 6] },
  { base := 0x30400, n1 := 64, fields := [fRW 0 4, fRW 4 2, fRW 31 1] },
  { base := 0x30600, s1 := 0x40, n1 := 16, n2 := 10, fields := [fRW 0 32], check := .hashKey },
  { base := 0x30A00, fields := [fRW 0 9, fRW 9 6] },
  { base := 0x30A04, fields := [fRW 0 10, fRW 31 1] },
  { base := 0x38000, s1 := 0x10, n1 := 1024, fields := [fRW 0 32], check := .filter },
  { base := 0x38004, s1 := 0x10, n1 := 1024, fields := [fRW 0 12, fRW 12 3, fRW 16 12, fRW 28 3], check := .filter },
  { base := 0x38008, s1 := 0x10, n1 := 1024, fields := [fRW 0 6, fRW 6 1, fRW 7 2, fRW 16 10, fRW 26 6], check := .filter },
  { base := 0x3800C, s1 := 0x10, n1 := 1024, fields := [fRW 0 1, fRW 1 2] }]

/-- Grant engine and ranging unit (R162, R163, R185–R187). -/
def rowsGnt : List RRow := [
  { base := 0x40100, n1 := 64, fields := [fRW 0 21], check := .treeCfg },
  { base := 0x41000, n1 := 256 },
  { base := 0x42000, n1 := 64 },
  { base := 0x44000, n1 := 2048 },
  { base := 0x50000, fields := [fRW 0 4 4, fRW 4 3 3, fRW 8 2 3, fRW 12 10 128, fRW 24 8 8], check := .rngCfg },
  { base := 0x50008, fields := [fRW 0 32] },
  { base := 0x5000C, fields := [fRW 0 16] },
  { base := 0x50010, fields := [fRW 0 15] },
  { base := 0x50014, n1 := 3 },
  { base := 0x51000, s1 := 0x20, n1 := 64, n2 := 3, fields := [fRWL 0 20], lock := .home },
  { base := 0x5100C, s1 := 0x20, n1 := 64, fields := [fRWL 0 12, fRWL 12 16], lock := .home },
  { base := 0x51010, s1 := 0x20, n1 := 64, fields := [fRWL 0 16, fRWL 16 16], lock := .home },
  { base := 0x51014, s1 := 0x20, n1 := 64, fields := [fRWL 0 11, fRWL 12 4 10], lock := .home, check := .rngTree },
  { base := 0x51800, n1 := 64 },
  { base := 0x52000, n1 := 16, fields := [fRW 0 4] },
  { base := 0x53000, n1 := 256, fields := [fRW 0 9], check := .regTable },
  { base := 0x54000, n1 := 2048 }]

/-- Caddie and time island (R209, R210, R228, R229). -/
def rowsPgr : List RRow := [
  { base := 0x60000, fields := [fOf .w1s 0 1, fRWL 1 1, fOf .ro 2 2], lock := .caddie },
  { base := 0x60004, fields := [fRW 0 14 2048, fRW 16 15 16384], check := .pgrCfg },
  { base := 0x60008, fields := [fRW 0 10 40], check := .pgrLead },
  { base := 0x6000C, fields := [fRWL 0 12], lock := .caddie },
  { base := 0x60010, s1 := 8, n1 := 2, fields := [fRWL 12 20], lock := .caddie },
  { base := 0x60014, s1 := 8, n1 := 2, fields := [fRWL 0 20], lock := .caddie },
  { base := 0x60020, n1 := 4 },
  { base := 0x60030, fields := [fRW 0 14] },
  { base := 0x60034 },
  { base := 0x60100, n1 := 64 },
  { base := 0x70000, fields := [fOf .w1c 2 1] },
  { base := 0x70004, fields := [fOf .wo 0 1] },
  { base := 0x70008, n1 := 5 },
  { base := 0x70020, fields := [fOf .w1s 0 1, fOf .ro 1 2] },
  { base := 0x70028, fields := [fRWL 6 26], lock := .tsq },
  { base := 0x7002C, s1 := 8, n1 := 2, fields := [fRWL 0 20], lock := .tsq },
  { base := 0x70030, fields := [fRWL 3 29], lock := .tsq },
  { base := 0x70040, n1 := 8 },
  { base := 0x70100, n1 := 16 }]

/-- Ebivios link (R259, R260). -/
def rowsLnk : List RRow := [
  { base := 0x80000, fields := [fRWL 0 14, fRW 16 6 16, fRW 24 3 6], lock := .link, check := .lnkCfg },
  { base := 0x80004, fields := [fRW 0 16] },
  { base := 0x80008, fields := [fRW 0 10 100], check := .snapLead },
  { base := 0x80010, n1 := 4, fields := [fRWL 0 8 255, fRW 8 8, fRW 16 2, fRW 18 10], lock := .lport, check := .portCfg },
  { base := 0x80020, n1 := 4 },
  { base := 0x80040, n1 := 16 },
  { base := 0x80100, s1 := 0x20, n1 := 4, n2 := 8, fields := [fRW 0 14 64, fRW 16 14 32], check := .watermark },
  { base := 0x80200, fields := [fRW 0 14] },
  { base := 0x80204, fields := [fRW 0 32], check := .routeData },
  { base := 0x80300, n1 := 8, fields := [fRW 0 32], check := .stampOffset },
  { base := 0x80400, s1 := 0x40, n1 := 4, fields := [fOf .w1c 0 1] },
  { base := 0x80404, s1 := 0x40, n1 := 4, n2 := 12 },
  { base := 0x80500, n1 := 32 },
  { base := 0x81000, n1 := 1024, fields := [fRW 0 10, fRW 10 14, fRW 31 1] },
  { base := 0x88000, n1 := 512 }]

/-- Power manager, error unit, monitor and identity (R310, R311, R297, R298, R327, R341). -/
def rowsMon : List RRow := [
  { base := 0x90000, fields := [fRW 0 1, fRW 8 16 500], check := .pwrCtrl },
  { base := 0x90004 },
  { base := 0x90010, fields := [fRW 0 2 3, fRW 2 2 2, fRW 4 2 2, fRW 6 2 3, fRW 8 2 1, fRW 10 2 1], check := .groupCap },
  { base := 0x90100, n1 := 64, fields := [fRW 0 2 3, fRW 2 2 1], check := .portCap },
  { base := 0x90200, n1 := 14 },
  { base := 0x90400, n1 := 32 },
  { base := 0xA0000 },
  { base := 0xA0004, fields := [fRW 0 8] },
  { base := 0xA0008, n1 := 4 },
  { base := 0xA0020, fields := [fRW 0 12] },
  { base := 0xA0024, n1 := 8 },
  { base := 0xA0048, n1 := 2, fields := [fOf .w1c 0 32] },
  { base := 0xA0100, n1 := 64, fields := [fRW 0 8 1, fRW 8 16], check := .vecMod },
  { base := 0xA0400, n1 := 32 },
  { base := 0xB0000, fields := [fRW 0 1, fRW 1 1, fRW 8 5 16], check := .markCtrl },
  { base := 0xB0004, fields := [fRW 0 32 0x1F2E3D4C], check := .markSeed },
  { base := 0xB0008, n1 := 2, fields := [fRW 0 32 0xFFFFFFFF] },
  { base := 0xB0010, fields := [fOf .w1s 0 1, fOf .ro 1 2, fRWL 8 5 6], lock := .trace, check := .traceCtrl },
  { base := 0xB0018, fields := [fRWL 12 20], lock := .trace },
  { base := 0xB001C, s1 := 8, n1 := 2, fields := [fRWL 0 20], lock := .trace },
  { base := 0xB0020, fields := [fRWL 3 29], lock := .trace },
  { base := 0xB0030, fields := [fRW 0 3 3], check := .bwCtrl },
  { base := 0xB0034 },
  { base := 0xB0040, fields := [fRW 12 20] },
  { base := 0xB0044, fields := [fRW 0 20] },
  { base := 0xB0048, fields := [fRW 0 3, fRW 16 1], check := .snapCtrl },
  { base := 0xB004C },
  { base := 0xB1000, n1 := 256 },
  { base := 0xB2000, s1 := 8, n1 := 1024, fields := [fRW 0 4, fRW 16 10] },
  { base := 0xB2004, s1 := 8, n1 := 1024, fields := [fRW 0 24] },
  { base := 0xB4000, n1 := 4096 },
  { base := 0xB8000, n1 := 8192 },
  { base := 0xC0000, n1 := 3 }]

/-- A row holds the word at an offset. -/
def RRow.holds (r : RRow) (off : Nat) : Bool :=
  decide (r.base ≤ off) && decide ((off - r.base) / r.s1 < r.n1 ∨ r.n1 = 1) &&
    (let w := if r.n1 = 1 then off - r.base else (off - r.base) % r.s1
     decide (w % r.s2 = 0) && decide (w / r.s2 < r.n2))

/-- The rows of the unit that an offset lies in (R333). -/
def rowsAt (off : Nat) : List RRow :=
  match off / 65536 with
  | 0 => rowsHif
  | 1 => rowsTpt
  | 2 => rowsTpt
  | 3 => rowsCls
  | 4 => rowsGnt
  | 5 => rowsGnt
  | 6 => rowsPgr
  | 7 => rowsPgr
  | 8 => rowsLnk
  | 9 => rowsMon
  | 10 => rowsMon
  | 11 => rowsMon
  | 12 => rowsMon
  | _ => []

/-- The row of the word at an offset; none where no register sits (R27). -/
def rowOf (off : Nat) : Option RRow := (rowsAt off).find? fun r => r.holds off

/-- What software sets and reads back: RW and RWL. -/
def RField.stored (f : RField) : Bool := f.acc = .rw || f.acc = .rwl

/-- The bits that a field holds in a word. -/
def RField.mask (f : RField) : Nat := (2 ^ f.width - 1) * 2 ^ f.lo

/-- The stored fields' reset value. -/
def RRow.resetWord (r : RRow) : Nat :=
  (r.fields.filter RField.stored).foldl (fun a f => a + f.reset % 2 ^ f.width * 2 ^ f.lo) 0

/-- The stored fields of a written word; reserved bits are ignored (R8). -/
def RRow.keep (r : RRow) (v : Word) : Nat :=
  (r.fields.filter RField.stored).foldl (fun a f => a + bitsOf v f.lo f.width * 2 ^ f.lo) 0

/-- An entry of the default registration table, less its `NEXT` and `NOTIFY`: state, input, next state, action (R183). -/
def regDefaults : List (Nat × Nat × Nat × Nat) := [
  (0, 1, 1, 0), (1, 2, 2, 0), (1, 6, 0, 4), (2, 7, 3, 1), (2, 5, 8, 0), (2, 6, 0, 4),
  (3, 8, 4, 2), (3, 9, 2, 3), (3, 13, 2, 3), (3, 5, 8, 3), (4, 7, 3, 1), (4, 3, 5, 0), (4, 5, 8, 0),
  (5, 7, 5, 1), (5, 8, 5, 2), (5, 9, 5, 3), (5, 12, 5, 0), (5, 11, 5, 0), (5, 4, 6, 0), (5, 13, 6, 3),
  (5, 10, 7, 3), (5, 5, 8, 3),
  (6, 3, 5, 0), (6, 8, 6, 2), (6, 9, 6, 3), (6, 12, 6, 0), (6, 11, 6, 0), (6, 10, 7, 3), (6, 5, 8, 3),
  (7, 11, 5, 0), (7, 12, 7, 0), (7, 4, 6, 0), (7, 13, 6, 0), (7, 5, 8, 0), (7, 6, 0, 4),
  (8, 6, 0, 4)]

/-- The table word of a state and an input after reset (R181, R183). -/
def regTableReset (st inp : Nat) : Nat :=
  if inp = 0 then st
  else
    match regDefaults.find? fun e => e.1 = st && e.2.1 = inp with
    | some (_, _, nx, act) => nx + act * 16 + ofBit (decide (nx ≠ st)) * 256
    | none => st + 128

/-- The attribute word of a state after reset: `GRANT_MODE` coded as in R144, `USE_PRE`, `TRACK` (R183). -/
def stateAttrReset (st : Nat) : Nat :=
  match st with
  | 1 => 4
  | 2 => 4 + 1
  | 3 => 4 + 1
  | 4 => 4 + 1
  | 5 => 8 + 2
  | 6 => 8 + 3
  | 7 => 8 + 3
  | _ => 0

/-- The reset value of the stored part of a register (R342). -/
def regReset (off : Nat) : Word :=
  if 0x52000 ≤ off ∧ off < 0x52040 then wordOf (stateAttrReset ((off - 0x52000) / 4))
  else if 0x53000 ≤ off ∧ off < 0x53400 then wordOf (regTableReset ((off - 0x53000) / 64) ((off - 0x53000) / 4 % 16))
  else match rowOf off with
    | some r => wordOf r.resetWord
    | none => 0

/-- The stored part of a register as it stands. -/
def reg (s : State) (off : Nat) : Word := tget s.regs off (regReset off)

/-- The stored part of a register set. -/
def setReg (off : Nat) (v : Word) (s : State) : State := { s with regs := tset s.regs (regReset off) off v }

/-- An address of a pair of words (R84). -/
def regAddr (s : State) (off : Nat) : Nat := (reg s off).toNat + (reg s (off + 4)).toNat * 4294967296

/-! The home of a tree (R262) and the state of a port (R340). -/

/-- The port that a tree is homed on: its own, until a re-homing (R262). -/
def homeOf (s : State) (t : Nat) : Nat := (getProt s t).home.getD t

/-- The tree homed on a port. -/
def treeOn (s : State) (p : Nat) : Option Nat := (List.range 64).find? fun t => homeOf s t = p

/-- `TPT_PORT_STATUS.STATE` (R340): the first of per-port reset, clock lost, armed, held and enabled. -/
def portState (p : Port) : Nat :=
  if p.reset.isSome then 2 else if p.enabled && p.clockLost then 3 else if p.armed.isSome then 5
  else if p.enabled && p.held then 4 else if p.enabled then 1 else 0

/-- The port carries traffic: `STATE` 1. -/
def portUp (p : Port) : Bool := decide (portState p = 1)

/-- The stored `ENABLE` bit of a lane (R259). -/
def laneOn (s : State) (l : Nat) : Bool := bitOf (reg s 0x80004) l

/-! Wakes of power domains (R301, R303, R304). -/

/-- The port that a port domain belongs to. -/
def domPort (d : Nat) : Nat := d % 64

/-- A domain's port or lane is in use; the shared groups and core units always are (R299, R308). -/
def domUsed (s : State) (d : Nat) : Bool :=
  if d < 128 then (getPort s (domPort d)).enabled || (getPort s (domPort d)).armed.isSome
  else if d < 144 then laneOn s (d - 128) else true

/-- A domain is awake and stays so: it neither sleeps nor enters a depth. -/
def domAwake (s : State) (d : Nat) : Bool := (getDom s d).depth = 0 && (getDom s d).entering.isNone

/-- A domain that is in use is woken; the shared groups start with a port core (R304). -/
def startWake (d : Nat) (s : State) : State :=
  if !domUsed s d then s
  else
    let s := modDom d Dom.roused s
    if d < 64 && (getDom s d).waking then eachBelow 64 (fun i => modDom (144 + i) Dom.roused) s else s

/-- Both domains of a port are awake (R308). -/
def portAwake (s : State) (p : Nat) : Bool := domAwake s p && domAwake s (64 + p)

/-- A downstream frame that reaches a port whose core sleeps, or enters a depth, wakes it and waits (R303). -/
def reachPort (p : Nat) (s : State) : State :=
  if portUp (getPort s p) && !domAwake s p then startWake (64 + p) (startWake p (addCtr (pwrCtr 7) 1 s)) else s

/-- A lock condition holds for the register at an offset (R336); a port or lane in its own reset counts as disabled (R28). -/
def locked (s : State) (k : Lock) (off : Nat) : Bool :=
  match k with
  | .never => false
  | .aq0 => decide ((getQueue s 5120).st ≠ .notCreated)
  | .port =>
    let p := getPort s ((off - 0x10000) / 0x400)
    p.reset.isNone && (p.enabled || p.armed.isSome)
  | .home =>
    let t := if off < 0x20000 then (off - 0x10000) / 0x400 else (off - 0x51000) / 0x20
    (getPort s (homeOf s t)).enabled && (getPort s (homeOf s t)).reset.isNone
  | .caddie => s.pgr.enabled
  | .tsq => s.tim.tsqEn
  | .trace => s.mon.trEn
  | .link => (List.range 16).any fun l => laneOn s l && !(getLane s l).resetting
  | .lport => (List.range 4).any fun i => laneOn s (off - 0x80010 + i) && !(getLane s (off - 0x80010 + i)).resetting

/-- The word holds a field of another access code too, and every RWL field is written with the value that it holds (R335). -/
def sameLocked (s : State) (r : RRow) (off : Nat) (v : Word) : Bool :=
  (r.fields.any fun f => f.acc ≠ .rwl) &&
  (r.fields.filter fun f => f.acc = .rwl).all fun f => decide (bitsOf v f.lo f.width = bitsOf (reg s off) f.lo f.width)

/-- The value lies within the range that its field's rule gives. -/
def valueOk (off : Nat) (c : Check) (v : Word) : Bool :=
  match c with
  | .profile => decide (bitsOf v 0 2 ≠ 3)
  | .maxFrame => decide (1518 ≤ bitsOf v 0 14 ∧ bitsOf v 0 14 ≤ 16128)
  | .stampOffset => decide (-25600000 ≤ v.toInt ∧ v.toInt ≤ 25600000)
  | .protCfg => decide (bitsOf v 0 2 ≠ 3)
  | .protDelta => decide (-500000 ≤ v.toInt ∧ v.toInt ≤ 500000)
  | .migCount => decide (bitsOf v 0 15 ≤ 16384)
  | .treeCfg => decide (bitsOf v 0 21 = 0 ∨ 65536 ≤ bitsOf v 0 21)
  | .rngCfg => decide (bitsOf v 0 4 ≠ 0 ∧ bitsOf v 4 3 ≠ 0 ∧ bitsOf v 24 8 ≠ 0)
  | .rngTree => decide (bitsOf v 0 11 ≤ 1024 ∧ bitsOf v 12 4 ≤ 10)
  | .regTable => decide (bitsOf v 4 3 ≤ 4)
  | .pgrCfg => decide (256 ≤ bitsOf v 0 14 ∧ bitsOf v 0 14 ≤ 8192 ∧ bitsOf v 16 15 ≤ 24576)
  | .pgrLead => decide (40 ≤ bitsOf v 0 10 ∧ bitsOf v 0 10 ≤ 1000)
  | .lnkCfg => decide (1 ≤ bitsOf v 16 6)
  | .snapLead => decide (10 ≤ bitsOf v 0 10 ∧ bitsOf v 0 10 ≤ 1000)
  | .portCfg => decide (bitsOf v 16 2 ≠ 3 ∧ bitsOf v 18 10 ≤ 1000)
  | .watermark => decide (1 ≤ bitsOf v 0 14 ∧ bitsOf v 0 14 ≤ 8192 ∧ bitsOf v 16 14 < bitsOf v 0 14)
  | .vecMod => decide (bitsOf v 0 8 ≠ 0)
  | .pwrCtrl => decide (100 ≤ bitsOf v 8 16 ∧ bitsOf v 8 16 ≤ 10000)
  | .groupCap => decide (bitsOf v 8 2 ≤ 1 ∧ bitsOf v 10 2 ≤ 1)
  | .portCap => decide (bitsOf v 2 2 ≤ 1)
  | .markCtrl => decide (8 ≤ bitsOf v 8 5 ∧ bitsOf v 8 5 ≤ 24)
  | .markSeed => decide (v ≠ 0)
  | .traceCtrl => decide (6 ≤ bitsOf v 8 5 ∧ bitsOf v 8 5 ≤ 16)
  | .bwCtrl => decide (bitsOf v 0 3 ≤ 6)
  | .snapCtrl => decide (bitsOf v 0 3 ≤ 4)
  | .routeData => bitOf v (bitsOf v 4 2)
  | _ => decide (off = off)

/-- The entry that a word belongs to is in use (R111, R135). DESIGN CHOICE: a table with `ENABLE` 1 and `KIND` 0b11, though it
acts as not enabled, still locks the hash key that it selects. -/
def inUse (s : State) (off : Nat) (c : Check) : Bool :=
  match c with
  | .filter => bitOf (reg s ((off - 0x38000) / 16 * 16 + 0x3800C)) 0
  | .hashKey =>
    (List.range 64).any fun t =>
      bitOf (reg s (0x30400 + t * 4)) 31 && decide (bitsOf (reg s (0x30400 + t * 4)) 0 4 = (off - 0x30600) / 0x40)
  | _ => false

/-- Why a write of a word to an offset is refused, the lowest cause of those met; none when it is applied (R337). -/
def refusal (s : State) (off width : Nat) (v : Word) : Option Nat :=
  if width ≠ 4 ∨ off % 4 ≠ 0 then some 1
  else match rowOf off with
    | none => some 2
    | some r =>
      if locked s r.lock off && !sameLocked s r off v then some 0
      else if !valueOk off r.check v then some 3
      else if inUse s off r.check then some 5
      else none

/-- A refused write lands in the record (R337). -/
def refuseWrite (off cause : Nat) (s : State) : State :=
  s.modHif fun h => { h with refused :=
    { offset := off / 4 * 4, cause := cause, sticky := true, count := sat 0xFFFF (h.refused.count + 1) } }

/-- The stored fields of the register at an offset take a written word. -/
def storeFields (off : Nat) (v : Word) (s : State) : State :=
  match rowOf off with
  | some r => setReg off (wordOf (r.keep v)) s
  | none => s

/-- A write of the window: refused and recorded, or its stored fields set and then its action `act` (R28, R335). -/
def windowWrite (off width : Nat) (v : Word) (act : State → State) (s : State) : State :=
  if !running s then s
  else match refusal s off width v with
    | some c => refuseWrite off c s
    | none => act (storeFields off v s)

/-- A read of the window: outside the running phase it gives 0 (R28). -/
def windowRead (f : State → State) (s : State) : State :=
  if running s then f s else s.modHif fun h => { h with readData := 0 }

end Sys2Proof.Machine
end

