-- ==== Sys2Proof/Machine/Events.lean ====
section
/-! DEFINITION. From a detection to its report (R279): the playbook, the error log, the rate buckets, the event rings, and
the counters whose half-range raises an event. -/

namespace Sys2Proof.Machine

/-- Level and rate of the playbook's defaults, code by code (R281, R283). -/
def pbDefaults : List (Nat × Nat × Nat) := [
  (0x110, 2, 8), (0x111, 2, 8), (0x112, 2, 8), (0x113, 3, 0), (0x120, 1, 8), (0x130, 3, 0), (0x131, 3, 0), (0x132, 2, 8),
  (0x133, 2, 0), (0x134, 2, 0), (0x135, 3, 0), (0x140, 2, 0), (0x141, 2, 0), (0x150, 2, 8), (0x151, 2, 8), (0x152, 2, 8),
  (0x211, 2, 0), (0x212, 3, 0), (0x213, 2, 0), (0x214, 0, 0), (0x215, 3, 0), (0x216, 3, 0), (0x217, 0, 0), (0x219, 2, 8),
  (0x220, 1, 8), (0x221, 1, 8), (0x222, 1, 8), (0x231, 0, 0), (0x232, 3, 0), (0x233, 0, 0), (0x234, 3, 0),
  (0x310, 1, 8), (0x311, 2, 0), (0x410, 2, 0), (0x411, 2, 0), (0x412, 2, 0), (0x413, 1, 0),
  (0x510, 0, 0), (0x511, 0, 0), (0x512, 2, 0), (0x513, 2, 0), (0x514, 1, 0), (0x515, 2, 0), (0x516, 1, 8), (0x517, 1, 8),
  (0x518, 0, 8), (0x519, 3, 0), (0x51A, 1, 8)] ++ [
  (0x600, 3, 0), (0x601, 2, 0), (0x602, 3, 0), (0x603, 2, 0), (0x604, 3, 0), (0x605, 1, 8), (0x606, 2, 0), (0x607, 2, 0),
  (0x608, 3, 0), (0x620, 2, 8), (0x710, 3, 0), (0x711, 0, 0), (0x712, 1, 0), (0x720, 2, 0), (0x722, 3, 0), (0x730, 2, 8),
  (0x810, 2, 0), (0x811, 2, 0), (0x812, 2, 0), (0x813, 0, 0), (0x814, 3, 0), (0x815, 3, 0), (0x816, 2, 0), (0x817, 2, 0),
  (0x818, 2, 0), (0x819, 2, 8), (0x81A, 2, 0), (0x81B, 0, 0), (0x81C, 2, 0), (0x81D, 2, 0), (0x81E, 2, 8),
  (0x910, 2, 8), (0x911, 3, 0), (0xA10, 1, 8), (0xA11, 3, 0), (0xA12, 3, 0), (0xA30, 3, 0), (0xA31, 3, 0),
  (0xA40, 3, 0), (0xA41, 3, 0), (0xB10, 0, 0), (0xB11, 0, 0), (0xB20, 0, 0), (0xB21, 2, 0), (0xB30, 2, 8)]

/-- The entry that cold reset loads (R283). -/
def pbDefault (code : Nat) : Word :=
  match pbDefaults.find? fun e => e.1 = code with
  | some (_, lev, rate) => wordOf (lev * 16 + rate * 4096)
  | none => 0

/-- The entry in force (R282); one with a double-bit error acts as REPORT, level 3, rate 0, ring 0 (R291). -/
def pbEntry (s : State) (code : Nat) : Word :=
  if s.err.pbBad.contains code then 0x30 else tget s.err.playbook code (pbDefault code)

def pbRing (e : Word) : Nat := bitsOf e 0 4
def pbLevel (e : Word) : Nat := bitsOf e 4 2
def pbDeliver (e : Word) : Bool := bitOf e 7
def pbReaction (e : Word) : Nat := bitsOf e 8 4
def pbRate (e : Word) : Nat := bitsOf e 12 4

/-- What `ARG0` names for the reactions, as the object column of R281 gives: 1 Q, 2 F, 3 T, 4 P, 0 none. -/
def pbObject (code : Nat) : Nat :=
  if [0x130, 0x131, 0x132, 0x133, 0x134, 0x150, 0x151].contains code then 1
  else if [0x600, 0x601, 0x602, 0x603, 0x604, 0x606, 0x620].contains code then 2
  else if [0x512, 0x513, 0x514, 0x515, 0x516].contains code then 3
  else if [0x152, 0x211, 0x212, 0x213, 0x215, 0x216, 0x219, 0x220, 0x221, 0x222, 0x310, 0x410, 0x411, 0x412,
    0x413].contains code then 4
  else 0

/-- The reactions that R285 allows for a code. -/
def reactionOk (code r : Nat) : Bool :=
  match r with
  | 0 => true
  | 1 => true
  | 2 => pbObject code = 2
  | 3 => pbObject code = 3
  | 4 => pbObject code = 4
  | 5 => pbObject code = 1
  | 6 => code = 0x514
  | 7 => code = 0x215
  | _ => false

/-- An entry for the always-on error log (R295): at most one of a code in each ms. -/
def logWrite (code lev : Nat) (a0 a1 : Word) (s : State) : State :=
  let recent := match tfind s.err.lastLog code with
    | some t => decide (s.uptime < t + 1000000)
    | none => false
  if recent then s
  else s.modErr fun e =>
    { e with log := tput e.log (e.logged % 256) (some
               { number := (e.logged + 1) % 65536, code := code, level := lev, seconds := wordOf (s.tim.sec % 4294967296),
                 arg0 := a0, arg1 := a1 }),
             logged := e.logged + 1, lastLog := tput e.lastLog code (some s.uptime) }

/-- How far the oldest unacknowledged entry of a ring lies behind its PI, 0 when every entry is acknowledged: the writes that
a test picks, in slots of `bytes` from `base`, `size` slots round. -/
def unackedBack (s : State) (p : WrUse → Bool) (base bytes size : Nat) (pi : Word) : Nat :=
  (s.fab.writes ++ s.fab.again).foldl (fun m w =>
    if p w.use then
      let b := (pi.toNat + size - (w.addr - base) / bytes % size) % size
      max m (if b = 0 then size else b)
    else m) 0

/-- The same of a completion or event ring. -/
def ringBack (s : State) (q : Nat) : Nat :=
  let Q := getQueue s q
  unackedBack s (fun u => match u with
    | .cpl r _ => decide (r = q)
    | .event r _ => decide (r = q)
    | _ => false) Q.cfg.ringBase (entryBytes q) (ringSize Q.cfg) Q.pi

/-- The block's own index word goes out (R65, R312). -/
def indexWrite (q : Nat) (v : Word) (s : State) : State :=
  let addr := (getQueue s q).cfg.indexAddr + if 3 ≤ qType q then 0 else 4
  addCtr (perfCtr (15 + addr / 128 % 4)) 1 (issueWrite (.index q) addr 4 [v] s)

/-- A ring's index word that is due goes out once every entry that it reports is acknowledged (R24). -/
def indexTry (q : Nat) (s : State) : State :=
  let Q := getQueue s q
  match Q.idxAt with
  | none => s
  | some v =>
    if gap Q.pi v < ringBack s q then s
    else modQueue q (fun Q => { Q with idxAt := none, unreported := gap Q.pi v }) (indexWrite q v s)

/-- A point of R68 at which the block's own index word is due. -/
def indexOut (q : Nat) (s : State) : State :=
  let Q := getQueue s q
  if Q.unreported = 0 then s
  else if qType q < 3 then modQueue q (fun Q => { Q with unreported := 0 }) (indexWrite q Q.ci s)
  else indexTry q (modQueue q (fun Q => { Q with idxAt := some (Q.idxAt.getD Q.pi) }) s)

/-- The words of an event entry in the slot of an index (R88). -/
def eventWords (c : QCfg) (i : Word) (e : EvEnt) : List Word :=
  [wordOf (tagOf c.log2 i + e.code * 65536 + e.level * 268435456), e.stamp, e.arg0, e.arg1]

/-- One 128-byte beat count of a request (R312). -/
def beats (len : Nat) : Nat := ceilDiv len 128

/-- An event entry is written at the ring's PI (R93, R312). -/
def writeEvent (q : Nat) (e : EvEnt) (s : State) : State :=
  let Q := getQueue s q
  let addr := slotAddr Q.cfg 16 Q.pi
  let s := issueWrite (.event q e.level) addr 16 (eventWords Q.cfg Q.pi e) s
  let s := addCtr (perfCtr 6) 1 (addCtr (perfCtr (15 + addr / 128 % 4)) 1 s)
  let s := modQueue q (fun Q => { Q with pi := Q.pi + 1, unreported := Q.unreported + 1 }) s
  if (getQueue s q).unreported ≥ 16 || (getQueue s q).hold.isEmpty then indexOut q s else s

/-- A ring has space in the block's own copy of its indices (R90). -/
def hasSpace (Q : Queue) : Bool := decide (gap Q.pi Q.ci < ringSize Q.cfg)

/-- An occurrence reaches its event ring: written, held, or counted as lost (R93, R289). -/
def toRing (q : Nat) (e : EvEnt) (s : State) : State :=
  let Q := getQueue s q
  if Q.st = .notCreated then
    addCtr (errCtr 3) 1 (s.modErr fun x => { x with noRing := e.code })
  else if Q.st = .active && Q.hold.isEmpty && decide (Q.lost = 0) && hasSpace Q then writeEvent q e s
  else if Q.hold.length < 64 then modQueue q (fun Q => { Q with hold := Q.hold ++ [e] }) s
  else modQueue q (fun Q => { Q with lost := sat 0xFFFFFFFF (Q.lost + 1) }) s

/-- The rate bucket of a code: a token, or none left (R284). -/
def takeToken (code : Nat) (s : State) : Option State :=
  if pbRate (pbEntry s code) = 0 then some s
  else
    let n := tget s.err.tokens code 8
    if n = 0 then none else some (s.modErr fun e => { e with tokens := tset e.tokens 8 code (n - 1) })

/-- Steps 3–6 of R279 of one occurrence, with the entry read at step 1. -/
def report (e : Word) (stamp : Word) (code : Nat) (a0 a1 : Word) (s : State) : State :=
  let s := addCtr (errCtr 0) 1 s
  if pbReaction e = 1 then addCtr (errCtr 1) 1 s
  else
    let s := if pbLevel e = 3 then logWrite code 3 a0 a1 s else s
    let ent : EvEnt := { code := code, level := pbLevel e, stamp := stamp, arg0 := a0, arg1 := a1 }
    match takeToken code s with
    | none => addCtr (errCtr 2) 1 s
    | some s => toRing (7168 + pbRing e) ent s

/-- Bit 47 of a counter. -/
def topBit (s : State) (off : Nat) : Bool := (getCtr s off).getLsbD 47

/-- The performance counters that writing an event entry moves (R312). -/
def eventPerf : List Nat := [6, 15, 16, 17, 18]

/-- Steps 1 and 3–6 of R279, and EV_PERF_HALF for a counter that the entry's own write took past half range (R314). -/
def emitFuel : Nat → Nat → Word → Word → State → State
  | 0, code, a0, a1, s => report (pbEntry s code) (stampNow s) code a0 a1 s
  | n + 1, code, a0, a1, s =>
    let s1 := report (pbEntry s code) (stampNow s) code a0 a1 s
    eventPerf.foldl (fun t k =>
      if topBit s (perfCtr k) = topBit s1 (perfCtr k) then t
      else emitFuel n 0xB11 (wordOf k) (wordOf (ofBit (topBit s1 (perfCtr k)))) t) s1

/-- An occurrence of a code whose reaction is none of the holds. -/
def emit (code : Nat) (a0 a1 : Word) (s : State) : State := emitFuel 6 code a0 a1 s

/-- An effect whose event and index writes count, and the events of R314 of the counters that they took past half range. -/
def withHalves (f : State → State) (s : State) : State :=
  let s1 := f s
  eventPerf.foldl (fun t k =>
    if topBit s (perfCtr k) = topBit s1 (perfCtr k) then t
    else emit 0xB11 (wordOf k) (wordOf (ofBit (topBit s1 (perfCtr k)))) t) s1

/-- The block's own index word goes out, or waits for the entries it reports. -/
def issueIndex (q : Nat) (s : State) : State := withHalves (indexOut q) s

/-- A performance counter counts (R312, R314). -/
def perf (k n : Nat) (s : State) : State :=
  let s1 := addCtr (perfCtr k) n s
  if topBit s (perfCtr k) = topBit s1 (perfCtr k) then s1
  else emit 0xB11 (wordOf k) (wordOf (ofBit (topBit s1 (perfCtr k)))) s1

/-- A statistics counter of a tree port counts (R117, R119). -/
def stat (n k v : Nat) (s : State) : State :=
  let s1 := addCtr (statCtr n k) v s
  if topBit s (statCtr n k) = topBit s1 (statCtr n k) then s1
  else emit 0xB10 (wordOf (k + n * 64)) (wordOf (ofBit (topBit s1 (statCtr n k)))) s1

/-- A counter of a cluster port counts (R260, R119). -/
def lstat (p k v : Nat) (s : State) : State :=
  let s1 := addCtr (lnkCtr p k) v s
  if topBit s (lnkCtr p k) = topBit s1 (lnkCtr p k) then s1
  else emit 0xB10 (wordOf (k + p * 64 + 4096)) (wordOf (ofBit (topBit s1 (lnkCtr p k)))) s1

/-- The held entries of an event ring are written as space allows, then its EV_EVENTS_LOST entry, counted and logged as any
occurrence (R93, R279, R282). The bound is the
hold's size and the one entry more. -/
def drainEvents : Nat → Nat → State → State
  | 0, _, s => s
  | n + 1, q, s =>
    let Q := getQueue s q
    if Q.st = .active && hasSpace Q then
      match Q.hold with
      | e :: r => drainEvents n q (writeEvent q e (modQueue q (fun Q => { Q with hold := r }) s))
      | [] =>
        if Q.lost = 0 then s
        else
          let lev := pbLevel (pbEntry s 0x141)
          let s := addCtr (errCtr 0) 1 s
          let s := if lev = 3 then logWrite 0x141 3 (wordOf Q.lost) (wordOf q) s else s
          writeEvent q { code := 0x141, level := lev, stamp := stampNow s, arg0 := wordOf Q.lost, arg1 := wordOf q }
            (modQueue q (fun Q => { Q with lost := 0 }) s)
    else s

/-! Fabric traffic that the monitor counts (R312). -/

/-- A write goes out and its beats count. -/
def fabWrite (use : WrUse) (addr len : Nat) (ws : List Word) (s : State) : State :=
  (pieces (len / 512 + 4) addr len).foldl (fun t p => perf (15 + p.1 / 128 % 4) (beats p.2) t) (issueWrite use addr len ws s)

/-- The reads that a test picks have returned: beats count and tags free. -/
def returnReads (p : RdUse → Bool) (s : State) : State :=
  (s.fab.reads.filter fun r => p r.use).foldl (fun t r => perf (11 + r.addr / 128 % 4) (beats r.len) t) (endReads p s)

/-- A read leaves the list of those outstanding, and its tag is free. -/
def endRead (id : Nat) (s : State) : State :=
  admitReads (s.modFab fun b => { b with reads := b.reads.filter fun r => r.id ≠ id })

/-- One read has returned: its beats count and its tag is free. -/
def returnRead (r : RdReq) (s : State) : State := perf (11 + r.addr / 128 % 4) (beats r.len) (endRead r.id s)

/-- The oldest read of a use has returned (R69: a newer one may be outstanding behind it). -/
def returnFirst (u : RdUse) (s : State) : State :=
  match s.fab.reads.find? fun r => r.use = u with
  | some r => returnRead r s
  | none => s

/-! Interrupts (R30, R290). -/

/-- A vector's message: sent, or merged into the next while one is unacknowledged. -/
def sendVector (v : Nat) (s : State) : State :=
  let V := getVec s v
  if V.unacked then modVec v (fun V => { V with due := true }) s
  else
    let s := modVec v (fun _ => { unacked := true }) s
    addCtr (errCtr 9) 1 (s.modErr fun e => { e with fired := e.fired ||| BitVec.ofNat 64 (2 ^ v) })

/-- A vector that has entries to signal and is due. -/
def vectorDue (s : State) (v : Nat) : Bool :=
  decide (bitsOf (reg s (0xA0100 + v * 4)) 0 8 ≤ (getVec s v).count)

/-- An acknowledged entry of a ring signals its vector; `lev` is the level of an event entry. -/
def signal (q lev : Nat) (s : State) : State :=
  let Q := getQueue s q
  if Q.cfg.intEn && Q.st = .active then
    let v := Q.cfg.vector
    let s := modVec v (fun V =>
      { V with count := V.count + 1, timer := V.timer || decide (bitsOf (reg s (0xA0100 + v * 4)) 8 16 ≠ 0) }) s
    if vectorDue s v || lev = 3 then sendVector v s else s
  else s

end Sys2Proof.Machine
end

