-- ==== Sys2Proof/Machine/Operands.lean ====
section
/-! DEFINITION. Operand forms: the fields of transmit, receive and admin descriptors (R77, R83, R98), the words of
completions (R85), and what is written when a piece of work ends (R86–R90, R94–R96, R324). -/

namespace Sys2Proof.Machine

/-! The transmit descriptor (R77). -/

def dTag (ws : List Word) : Nat := bitsOf (wAt ws 0) 0 16
def txNseg (ws : List Word) : Nat := bitsOf (wAt ws 0) 16 5
def txIndirect (ws : List Word) : Bool := bitOf (wAt ws 0) 21
def txWaive (ws : List Word) : Bool := bitOf (wAt ws 0) 22
def txStampReq (ws : List Word) : Bool := bitOf (wAt ws 0) 23
def txPoly (ws : List Word) : Nat := bitsOf (wAt ws 0) 24 2
def txLaunch (ws : List Word) : Bool := bitOf (wAt ws 0) 26
def dReqId (ws : List Word) : Word := wAt ws 1
def txFlow (ws : List Word) : Nat := bitsOf (wAt ws 2) 0 18
def txStampId (ws : List Word) : Nat := bitsOf (wAt ws 3) 0 16
def txAddr (ws : List Word) : Nat := (wAt ws 4).toNat + bitsOf (wAt ws 5) 0 20 * 4294967296
def txExpect (ws : List Word) : Word := wAt ws 6
def txSegLen (ws : List Word) : Nat := bitsOf (wAt ws 7) 0 16
def txLaunchTime (ws : List Word) : Nat := bitsOf (wAt ws 7) 16 16

/-- Where a launch time lies (R80): Δ in ns from now, within the 4 s of a short stamp; none for a value that names no time. -/
def launchDelta (s : State) (ws : List Word) : Option Nat :=
  let lt := txLaunchTime ws
  let ns := lt % 16384 * 65536
  if lt % 16384 ≥ 15259 then none
  else some ((lt / 16384 * 1000000000 + ns + 4000000000 - (s.tim.sec % 4 * 1000000000 + s.tim.ns)) % 4000000000)

/-- Step 2 of R77: the fields of a transmit descriptor. -/
def txFieldsOk (s : State) (ws : List Word) : Bool :=
  decide (1 ≤ txNseg ws ∧ txNseg ws ≤ 16) &&
  (if txIndirect ws then decide (txSegLen ws = 0) else decide (txNseg ws = 1 ∧ txSegLen ws ≠ 0)) &&
  decide (bitsOf (wAt ws 0) 27 5 = 0 ∧ bitsOf (wAt ws 2) 18 14 = 0 ∧ bitsOf (wAt ws 3) 16 16 = 0 ∧ bitsOf (wAt ws 5) 20 12 = 0) &&
  (if txPoly ws = 3 then decide (bitsOf (wAt ws 6) 16 16 = 0) else true) &&
  (if txLaunch ws then
    match launchDelta s ws with
    | none => false
    | some d => decide (d ≤ 1000000000 ∨ 3000000000 ≤ d)
  else true)

/-! The receive buffer descriptor (R83). -/

def rxBufOk (ws : List Word) : Bool := decide (bitsOf (wAt ws 2) 0 6 = 0 ∧ bitsOf (wAt ws 3) 20 12 = 0)
def rxBufOf (ws : List Word) : RxBuf :=
  { cookie := wAt ws 1, addr := (wAt ws 2).toNat / 64 * 64 + bitsOf (wAt ws 3) 0 20 * 4294967296 }

/-- Bytes of every buffer of a ring (R64, R83). -/
def bufBytes (c : QCfg) : Nat := if c.bufKib = 0 then 16384 else c.bufKib * 1024

/-! The admin descriptor (R98). -/

def aOp (ws : List Word) : Nat := bitsOf (wAt ws 0) 16 8
def aTarget (ws : List Word) : Word := wAt ws 2
def aParam (ws : List Word) : Word := wAt ws 3
def aAddr (ws : List Word) : Nat := (wAt ws 4).toNat + bitsOf (wAt ws 5) 0 20 * 4294967296
def aLen (ws : List Word) : Nat := (wAt ws 6).toNat
def aData (ws : List Word) (k : Nat) : Word := wAt ws (7 + k)

/-! Completion entries (R85). -/

/-- The eight words of a completion in the slot of a tag. -/
def cplWords (tag : Nat) (c : Cpl) : List Word :=
  [wordOf (tag + c.status % 256 * 65536 + c.kind % 16 * 16777216 + ofBit c.stampLost * 268435456
      + ofBit c.held * 536870912 + ofBit c.padded * 1073741824 + ofBit c.stampValid * 2147483648),
   wordOf (c.queue % 8192 + c.orig % 256 * 65536)] ++ (List.range 6).map fun i => wAt c.body i

/-- A transmit completion (R85, R87); for a DUPLICATE only its request ID (R96). -/
def txCpl (t : Tx) : Cpl :=
  if t.dup then { status := 1, queue := t.q, orig := t.status, body := [dReqId t.ws], src := some (t.q, t.idx) }
  else
    { status := t.status, kind := 0, stampLost := t.stampLost, padded := t.padded, stampValid := t.stamp.isSome, queue := t.q,
      body := [dReqId t.ws, wordOf (txFlow t.ws), t.stamp.getD 0,
               wordOf (if txStampReq t.ws then txStampId t.ws else 0), t.check, wordOf t.len],
      src := some (t.q, t.idx) }

/-- An admin completion (R85). -/
def admCpl (a : Adm) (results : List Word) : Cpl :=
  if a.dup then { status := 1, kind := 3, queue := a.q, orig := a.status, body := [dReqId a.ws, wordOf (aOp a.ws)],
                  src := some (a.q, a.idx) }
  else { status := a.status, kind := 3, queue := a.q,
         body := [dReqId a.ws, wordOf (aOp a.ws)] ++ (List.range 4).map fun i => wAt results i,
         src := some (a.q, a.idx) }

/-! Records in flight. -/

def isTx (q : Nat) (idx : Word) (t : Tx) : Bool := t.q = q && t.idx = idx
def isAdm (q : Nat) (idx : Word) (a : Adm) : Bool := a.q = q && a.idx = idx

/-- The record of a transmit descriptor, or of an admin command, in flight. -/
def findTx (s : State) (q : Nat) (idx : Word) : Option Tx := s.hif.tx.find? fun t => isTx q idx t
def findAdm (s : State) (q : Nat) (idx : Word) : Option Adm := s.hif.adm.find? fun a => isAdm q idx a

def modTx (q : Nat) (idx : Word) (f : Tx → Tx) (s : State) : State :=
  s.modHif fun h => { h with tx := updFirst (isTx q idx) f h.tx }
def dropTx (q : Nat) (idx : Word) (s : State) : State :=
  s.modHif fun h => { h with tx := dropFirst (isTx q idx) h.tx }
def modAdm (q : Nat) (idx : Word) (f : Adm → Adm) (s : State) : State :=
  s.modHif fun h => { h with adm := updFirst (isAdm q idx) f h.adm }
def dropAdm (q : Nat) (idx : Word) (s : State) : State :=
  s.modHif fun h => { h with adm := dropFirst (isAdm q idx) h.adm }

/-- A descriptor has ended, whether or not its completion is written. -/
def TxStage.over (x : TxStage) : Bool := x = .ended || x = .ready

/-! The let window (R95): the last 256 request IDs to end, newest first. -/

def enterLet (q : Nat) (req : Word) (st : Nat) (s : State) : State :=
  modQueue q (fun Q => { Q with letw := ((req, st) :: Q.letw).take 256 }) s

/-- A request in a queue's let window, with the status it ended with. -/
def inLet (s : State) (q : Nat) (req : Word) : Option Nat :=
  ((getQueue s q).letw.find? fun e => e.1 = req).map fun e => e.2

/-! Ready and pending completions (R89, R90). -/

/-- A completion becomes ready for its ring. -/
def readyCpl (ring : Nat) (c : Cpl) (s : State) : State :=
  modQueue ring (fun Q => { Q with ready := Q.ready ++ [c] }) s

/-- A ring's episode starts: once, counted and reported (R90, R92). -/
def startEpisode (ring : Nat) (s : State) : State :=
  if (getQueue s ring).episode then s
  else emit 0x140 (wordOf ring) 0 (addCtr (hifCtr 3) 1 (modQueue ring (fun Q => { Q with episode := true }) s))

/-- The episode ends when fewer than 32 completions are pending on an active ring (R90). -/
def endEpisode (ring : Nat) (s : State) : State :=
  let Q := getQueue s ring
  if Q.episode && Q.st = .active && decide (Q.pend.length < 32) then modQueue ring (fun Q => { Q with episode := false }) s
  else s

/-- The work that a written completion answers for leaves flight (R94). -/
def leaveFlight (c : Cpl) (s : State) : State :=
  match c.src with
  | some (q, idx) => if q < 4096 then dropTx q idx s else dropAdm q idx s
  | none => s

/-- A completion is written at the ring's PI (R24, R68, R85, R312). -/
def writeCpl (ring : Nat) (c : Cpl) (s : State) : State :=
  let Q := getQueue s ring
  let s := fabWrite (.cpl ring c) (slotAddr Q.cfg 32 Q.pi) 32 (cplWords (tagOf Q.cfg.log2 Q.pi) c) s
  let s := perf 5 1 (leaveFlight c s)
  let s := modQueue ring (fun Q => { Q with pi := Q.pi + 1, unreported := Q.unreported + 1 }) s
  let Q := getQueue s ring
  if Q.unreported ≥ 16 || (Q.ready.isEmpty && Q.pend.isEmpty) then issueIndex ring s else s

/-- The ring can take an entry now. -/
def ringTakes (Q : Queue) : Bool := Q.st = .active && hasSpace Q

/-- Pending completions are written into the space that a CI has shown, in the order they became ready (R90). -/
def drainPend : Nat → Nat → State → State
  | 0, _, s => s
  | n + 1, ring, s =>
    if ringTakes (getQueue s ring) then
      match (getQueue s ring).pend with
      | [] => s
      | c :: r => drainPend n ring (writeCpl ring c (modQueue ring (fun Q => { Q with pend := r }) s))
    else s

/-! Marked frames: their trace records and the trace ring (R324, R325). -/

def traceSize (s : State) : Nat := bitsOf (reg s 0xB0010) 8 5

/-- A trace record goes out at the trace ring's PI; the first after losses reports them. -/
def writeTrace (ws : List Word) (s : State) : State :=
  let m := s.mon
  let slot := m.trPi.toNat % 2 ^ traceSize s
  let w0 := wordOf ((wAt ws 0).toNat / 65536 * 65536 + tagOf (traceSize s) m.trPi)
  let s := fabWrite .trace (regAddr s 0xB0018 + slot * 64) 64 (w0 :: ws.drop 1) s
  let s := perf 29 1 (s.modMon fun m =>
    { m with trPi := m.trPi + 1, trUnrep := m.trUnrep + 1, trLost := 0,
             trIdx := if 16 ≤ m.trUnrep + 1 || m.trHold.isEmpty then some (m.trIdx.getD (m.trPi + 1)) else m.trIdx })
  if m.trLost = 0 then s else emit 0xB30 (wordOf m.trLost) 0 s

/-- A record finds its way into the ring, the hold, or the count of those lost (R325). -/
def traceOut (ws : List Word) (s : State) : State :=
  let m := s.mon
  if m.trEn && !m.trStopped && m.trHold.isEmpty && decide (gap m.trPi m.trCi < 2 ^ traceSize s) then writeTrace ws s
  else if m.trEn && !m.trStopped && decide (m.trHold.length < 32) then s.modMon fun m => { m with trHold := m.trHold ++ [ws] }
  else perf 30 1 (s.modMon fun m => { m with trLost := m.trLost + 1 })

/-- The stamp words and valid bits of a record (R323, R324). -/
def markStamps (m : Mark) : List Word := (List.range 7).map fun i => ((m.stamps.getD i none).getD 0)
def markValid (m : Mark) : Nat :=
  (List.range 7).foldl (fun a i => a + ofBit ((m.stamps.getD i none).isSome) * 2 ^ i) 0

/-- A stage stamp of a marked frame (R323). -/
def Mark.at (k : Nat) (w : Word) (m : Mark) : Mark := { m with stamps := m.stamps.set k (some w) }

/-- The trace record of a marked descriptor that ends with a fate (R324). -/
def traceTx (t : Tx) (fate : Nat) (s : State) : State :=
  match t.mark with
  | none => s
  | some m =>
    traceOut ([wordOf (t.port * 131072 + fate * 16777216),
      wordOf (txFlow t.ws + t.cls * 262144 + t.colour * 16777216 + t.prio * 67108864), 0,
      wordOf (t.status + m.steps * 256 + m.lookups * 131072 + ofBit m.ternHit * 2097152),
      wordOf (t.q + sat 65535 (if t.len = 0 then 0 else max 64 (t.len + 4)) * 65536), m.id, 0, 0] ++ markStamps m
      ++ [wordOf (markValid m)]) s

/-- The trace record of a marked upstream frame (R324). -/
def traceUs (u : Us) (fate : Nat) (s : State) : State :=
  match u.mark with
  | none => s
  | some m =>
    traceOut ([wordOf (65536 + u.port * 131072 + fate * 16777216),
      wordOf (u.flow + u.cls * 262144 + u.colour * 16777216),
      wordOf (u.tree * 512 + u.term + u.alloc * 32768 + u.ring % 1024 * 131072),
      wordOf (u.status + m.steps * 256 + m.lookups * 131072 + ofBit m.ternHit * 2097152),
      wordOf (sat 65535 u.len * 65536), m.id, 0, 0] ++ markStamps m ++ [wordOf (markValid m)]) s

/-! Cells (R105). -/

/-- Cells of the shared pool: what no enabled port reserves. -/
def poolSize (s : State) : Nat :=
  262144 - 2048 * ((List.range 64).filter fun n => (getPort s n).enabled).length

/-- Free cells of the shared pool. -/
def poolFree (s : State) : Nat :=
  poolSize s - (s.tpt.ports.foldl (fun a e => a + e.2.usPool + e.2.dsPool) 0)

/-- Downstream cells return. DESIGN CHOICE: each frame gives back the cells of the reserve and of the pool that it took itself. -/
def freeDs (p cells pool : Nat) (s : State) : State :=
  if cells = 0 then s else modPort p (fun P => { P with dsCells := P.dsCells - cells, dsPool := min (P.dsPool - pool) (P.dsCells - cells) }) s

/-- Upstream cells return. -/
def freeUs (p cells pool : Nat) (s : State) : State :=
  if cells = 0 then s else modPort p (fun P => { P with usCells := P.usCells - cells, usPool := min (P.usPool - pool) (P.usCells - cells) }) s

/-! Banks of the packet buffer (R299, R304). -/

/-- Cells of a placement in a bank. -/
def cellsIn (l : List (Nat × Nat)) (b : Nat) : Nat := (l.filter fun e => e.1 = b).foldl (fun a e => a + e.2) 0

/-- The placements of every frame that holds cells. -/
def placements (s : State) : List (List (Nat × Nat)) :=
  ((s.tpt.us.filter fun u => u.cells ≠ 0).map Us.banks) ++ ((s.hif.tx.filter fun t => t.cells ≠ 0).map Tx.banks) ++
    (s.tpt.dsq.map DsItem.banks) ++ s.tpt.ports.map fun e => (e.2.xfer.map fun x => x.item.banks).getD []

/-- Cells that a bank holds, of its 8,192. -/
def bankUsed (s : State) (b : Nat) : Nat := (placements s).foldl (fun a l => a + cellsIn l b) 0

/-- Cells taken from banks in order. -/
def fillBanks (s : State) : Nat → List Nat → List (Nat × Nat)
  | _, [] => []
  | n, b :: r =>
    let k := min n (8192 - bankUsed s b)
    if k = 0 then fillBanks s n r else (b, k) :: fillBanks s (n - k) r

/-- The banks from a free one on, those awake first (R304). -/
def bankOrder (s : State) : List Nat :=
  let l := (List.range 32).map fun i => ((Config.firstBank s.freeCtr).toNat + i) % 32
  (l.filter fun b => domAwake s (144 + b)) ++ l.filter fun b => !domAwake s (144 + b)

/-- The banks that a frame's cells are taken from. -/
def placeCells (s : State) (n : Nat) : List (Nat × Nat) := fillBanks s n (bankOrder s)

/-- A frame wakes the sleeping banks that it needs. -/
def wakeBanks (l : List (Nat × Nat)) (s : State) : State := l.foldl (fun s e => startWake (144 + e.1) s) (drawn s)

/-! The end of work. -/

/-- The slot that holds a flow's context. -/
def slotOfFlow (s : State) (f : Nat) : Option Nat := (getFlow s f).slot

/-- A frame's hold on its context slot ends (R194), and the counter value reserved for it goes back unused (R205). -/
def releaseCtx (t : Tx) (s : State) : State :=
  let s := if t.inP then modFlow (txFlow t.ws) (fun x => { x with p := x.p - 1 }) s else s
  if t.inUse then
    match slotOfFlow s (txFlow t.ws) with
    | some i => modSlot i (fun c => { c with inUse := c.inUse - 1 }) s
    | none => s
  else s

/-- Ended descriptors at the head of a queue become ready, in the queue's order (R89). -/
def flushTx (q : Nat) (s : State) : State :=
  let mine := s.hif.tx.filter fun t => t.q = q && t.stage ≠ .ready
  (mine.takeWhile fun t => t.stage = .ended).foldl (fun s t =>
    readyCpl (ringOfQueue s q) (txCpl t) (modTx q t.idx (fun t => { t with stage := .ready }) s)) s

/-- `n` entries of a queue end; those that end while it drains are counted for QUEUE_DRAIN (R100). -/
def countDrained (q n : Nat) (s : State) : State :=
  modQueue q (fun Q => if Q.st = .draining then { Q with drained := Q.drained + n } else Q) s

/-- A command ends: its request enters the let window, its duplicates take its status, its completion is ready (R89,
R95, R96). -/
def admEnd (q : Nat) (idx : Word) (st : Nat) (results : List Word) (s : State) : State :=
  match findAdm s q idx with
  | none => s
  | some a =>
    if a.stage = .ended then s
    else
    let a' := { a with stage := .ended, status := st }
    let s := modAdm q idx (fun _ => a') s
    let s := if a.dup then s else enterLet q (dReqId a.ws) st s
    let dups := if a.dup then [] else s.hif.adm.filter fun d =>
      d.dup && d.q = q && d.stage ≠ .ended && dReqId d.ws = dReqId a.ws
    let s := countDrained q (1 + dups.length) s
    let s := readyCpl (ringOfQueue s q) (admCpl a' results) s
    dups.foldl (fun s d =>
      readyCpl (ringOfQueue s q) (admCpl { d with status := st } [])
        (modAdm q d.idx (fun d => { d with stage := .ended, status := st }) s)) s

/-- Every fetched entry of a queue has ended. -/
def allEnded (s : State) (q : Nat) : Bool :=
  (s.hif.tx.all fun t => t.q ≠ q || t.stage.over) && (s.hif.adm.all fun a => a.q ≠ q || a.stage = .ended)

/-- A QUEUE_DRAIN waiting for a queue. -/
def drainCmd (s : State) (q : Nat) : Option Adm :=
  s.hif.adm.find? fun a => a.stage = .turned && aOp a.ws = 0x03 && (aTarget a.ws).toNat = q

/-- Receive buffer descriptors of a ring that are on their way, in ring order. -/
def bufsComing (s : State) (q : Nat) : List Word :=
  (s.fab.reads ++ s.fab.wait).flatMap fun r => match r.use with
    | .rxDesc q' l => if q' = q then l else []
    | _ => []

/-- A frame holds buffers of a ring: their entries end with its completion. -/
def bufsGiven (s : State) (q : Nat) : Bool := s.tpt.us.any fun u => decide (4096 + u.ring = q) && !u.bufs.isEmpty

/-- A draining queue whose entries have all ended is stopped, and its QUEUE_DRAIN completes (R61, R100). -/
def drainDone (q : Nat) (s : State) : State :=
  let Q := getQueue s q
  if Q.st = .draining && allEnded s q && (bufsComing s q).isEmpty && !bufsGiven s q then
    let s := modQueue q (fun Q => { Q with st := .stopped }) s
    match drainCmd s q with
    | some a => admEnd a.q a.idx 0 [wordOf Q.drained] s
    | none => s
  else s

/-- A transmit descriptor ends with a status (R21, R77, R81, R94–R96): its cells and its hold on its context go, its
request enters the let window, its duplicates take its status, and in its queue's order its completion becomes ready,
unless it is waived. `fate` is the counter of R117 that recorded the end, 0xFF for none. -/
def txEnd (q : Nat) (idx : Word) (st fate : Nat) (s : State) : State :=
  match findTx s q idx with
  | none => s
  | some t =>
    if t.stage.over then s
    else
      let t' := { t with stage := .ended, status := st, cells := 0, poolCells := 0, inUse := false, inP := false, hasPark := false }
      let s := releaseCtx t (freeDs t.port t.cells t.poolCells s)
      let s := dropReads (fun u => u = .payload q idx || u = .segList q idx) s
      let s := s.modHif fun h => { h with cellWait := h.cellWait.filter fun e => e ≠ (q, idx) }
      let s := if t.stage = .classify || t.stage = .engine then
          modPort t.port (fun P => { P with dsDisp := P.dsDisp.filter fun e => e ≠ (q, idx) }) s
        else s
      let s := traceTx t' fate s
      let s := modTx q idx (fun _ => t') s
      let s := if t.dup then s else enterLet q (dReqId t.ws) st s
      let twin := fun d : Tx => !t.dup && d.dup && d.q = q && !d.stage.over && dReqId d.ws = dReqId t.ws
      let n := (s.hif.tx.filter twin).length
      let s := countDrained q (1 + n) s
      let s := s.modHif fun h =>
        { h with tx := h.tx.map fun d => if twin d then { d with stage := .ended, status := st } else d }
      let s := if txWaive t.ws && !t.dup && decide (st = 0) && !t.stampLost then dropTx q idx s else s
      drainDone q (flushTx q s)

/-- An admin command ends, and the queue that carried it may now be drained. -/
def admDone (q : Nat) (idx : Word) (st : Nat) (results : List Word) (s : State) : State :=
  drainDone q (admEnd q idx st results s)

/-- A queue or ring stops (R25, R61, R66, R73, R92): a completion ring's episode starts at once. A draining queue stops at the
end of its drain. -/
def stopQueue (q : Nat) (s : State) : State :=
  if (getQueue s q).st = .active then
    let s := modQueue q (fun Q => { Q with st := .stopped }) s
    if qType q = 3 then startEpisode q s else s
  else s

end Sys2Proof.Machine
end

