-- ==== Sys2Proof/Machine/Registration.lean ====
section
/-! DEFINITION. The registration state machine (R180–R184), the reactions of the playbook (R285–R288), and an occurrence as
a whole (R279). -/

namespace Sys2Proof.Machine

/-- The registration table's entry of a terminal's state and an input (R181). -/
def regEntry (s : State) (st inp : Nat) : Word := reg s (0x53000 + (16 * st + inp) * 4)

/-- The attribute word of a state (R181). -/
def stateAttr (s : State) (st : Nat) : Word := reg s (0x52000 + st * 4)
def usePre (s : State) (st : Nat) : Bool := bitOf (stateAttr s st) 2
def tracked (s : State) (st : Nat) : Bool := bitOf (stateAttr s st) 3

/-- The table refuses an input of a terminal. -/
def inputRefused (s : State) (h inp : Nat) : Bool := bitOf (regEntry s (getRec s h).state inp) 7

/-- The RANGE_ARM that waits for a terminal's measurement (R176). -/
def armOf (s : State) (h : Nat) : Option Adm :=
  s.hif.adm.find? fun a => a.stage = .turned && aOp a.ws = 0x21 && (aTarget a.ws).toNat = h

/-- The pending RANGE_ARM of a terminal completes with results (R176). -/
def armDone (h : Nat) (results : List Word) (s : State) : State :=
  match armOf s h with
  | some a => admDone a.q a.idx 0 results s
  | none => s

/-- The terminals with a measurement pending, in the order they became pending (R174). -/
def setPend (h : Nat) (on : Bool) (s : State) : State :=
  modRTree (h / 512) (fun t =>
    if on then (if t.pend.contains (h % 512) then t else { t with pend := t.pend ++ [h % 512] })
    else { t with pend := t.pend.filter fun k => k ≠ h % 512 }) s

/-- A measured burst: its round trip, `FU_STAMP` and `FU_DELIM_OFS` (R176). -/
structure Measure where
  r : Nat
  stamp : Word
  delim : BitVec 16
  deriving DecidableEq, Repr

/-- The action of a table entry (R181). -/
def regAction (h inp act : Nat) (m : Option Measure) (s : State) : State :=
  match act with
  | 1 => setPend h true (modRec h (fun r => { r with rangePend := true, tries := 0 }) s)
  | 2 =>
    let rv := match m with
      | some m => m.r
      | none => (Config.rangeValue s.freeCtr).toNat
    let s := if m.isNone then drawn s else s
    let s := setPend h false (modRec h (fun r =>
      { r with rtt := rv, rttValid := true, rangePend := false, tries := 0, drift := 0, samples := 0, driftOut := false }) s)
    let s := emit 0x511 (wordOf h) (wordOf rv) (addCtr (rngCtr (h / 512) 4) 1 s)
    armDone h [wordOf rv, 0, (m.map Measure.stamp).getD 0, wordOf ((m.map fun x => x.delim.toNat).getD 0)] s
  | 3 =>
    let was := (getRec s h).rangePend
    let s := setPend h false (modRec h (fun r => { r with rangePend := false, tries := 0 }) s)
    if was then armDone h [0, if inp = 9 then 1 else 2, 0, 0] s else s
  | 4 =>
    let was := (getRec s h).rangePend
    let s := setPend h false (modRec h (fun r =>
      { r with rangePend := false, tries := 0, miss := 0, rttValid := false, driftOut := false, drift := 0, rtt := 0,
               settle := 0, samples := 0, eqd := 0, autoAdj := 0 }) s)
    if was then armDone h [0, 2, 0, 0] s else s
  | _ => s

/-- An input that is not refused is applied: next state, grant mode and action in one update, and its notice (R182). -/
def takeInput (h inp : Nat) (m : Option Measure) (s : State) : State :=
  let old := (getRec s h).state
  let e := regEntry s old inp
  let nx := bitsOf e 0 4
  let s := modRec h (fun r => { r with state := nx, mode := bitsOf (stateAttr s nx) 0 2 }) s
  let s := regAction h inp (bitsOf e 4 3) m s
  if bitOf e 8 then emit 0x510 (wordOf h) (wordOf (old + nx * 16 + inp * 256)) s else s

/-- An input of the block to a terminal: a flagged record takes none (R184); a refused one is counted and reported
(R182). -/
def blockInput (h inp : Nat) (m : Option Measure) (s : State) : State :=
  if (getRec s h).flagged then s
  else if inputRefused s h inp then
    emit 0x51A (wordOf h) (wordOf ((getRec s h).state + inp * 256)) (addCtr (rngCtr (h / 512) 11) 1 s)
  else takeInput h inp m (access 211 s)

/-! Reactions (R286). -/

/-- A reaction is counted as having acted, or as void. -/
def reacted (act : Bool) (s : State) : State := addCtr (errCtr (if act then 4 else 5)) 1 s

/-- The ranging unit drops its expectations for a tree (R265, R287). -/
def dropExpect (t : Nat) (s : State) : State :=
  modRTree t (fun r => { r with exps := [], slots := [], wins := [], spans := [], placed := [] }) s

/-- A port is held (R287): the list that its tree was making commits nothing. -/
def holdNow (p : Nat) (s : State) : State :=
  let s := modPort p (fun P => { P with held := true, heldLater := false }) s
  match treeOn s p with
  | some t => dropExpect t (modGTree t (fun g => { g with comp := none, published := false, standby := none }) s)
  | none => s

/-- `TPT_PROT_CFG` of a tree: `KIND`, `PARTNER`, `INSTANCE` (R263). -/
def protKind (s : State) (t : Nat) : Nat := bitsOf (reg s (0x10070 + t * 0x400)) 0 2
def protPartner (s : State) (t : Nat) : Nat := bitsOf (reg s (0x10070 + t * 0x400)) 2 6
def protInstance (s : State) (t : Nat) : Nat := bitsOf (reg s (0x10070 + t * 0x400)) 8 14

/-- Where a local re-homing takes a tree: to `PARTNER`, and from there back to its own port. DEDUCED from R263 and R269. -/
def otherHome (s : State) (t : Nat) : Nat := if homeOf s t = protPartner s t then t else protPartner s t

/-- A re-homing or a migration in progress names the port (R269, R287). -/
def treeNames (s : State) (t p : Nat) : Bool :=
  let ph := (getProt s t).phase
  decide (1 ≤ ph ∧ ph ≤ 4) && (decide (homeOf s t = p) ||
    (decide (protKind s t = 1 ∧ ph ≤ 2) && decide (protPartner s t = p ∨ otherHome s t = p)))

def portBusy (s : State) (p : Nat) : Bool := (List.range 64).any fun t => treeNames s t p

/-- A queue number that STOP_FETCH_QUEUE never stops (R84, R286). -/
def bootstrap (q : Nat) : Bool := q = 5120 || q = 6144

/-- Step 2 of R279 for the reactions that act on an object. -/
def react (r : Nat) (a0 : Word) (s : State) : State :=
  match r with
  | 2 =>
    let f := bitsOf a0 0 18
    if (getFlow s f).live then reacted true (modFlow f (fun x => { x with hPlaybook := true }) s) else reacted false s
  | 3 =>
    let h := bitsOf a0 0 15
    if (getRec s h).flagged then reacted false s else reacted true (blockInput h 0xD none s)
  | 4 =>
    let p := bitsOf a0 0 6
    if (getPort s p).held then reacted false s
    else if !(getPort s p).enabled then reacted true s
    else if portBusy s p then reacted true (modPort p (fun P => { P with heldLater := true }) s)
    else reacted true (holdNow p s)
  | 5 =>
    let q := bitsOf a0 0 13
    if (getQueue s q).st = .active && !bootstrap q then reacted true (stopQueue q s) else reacted false s
  | _ => s

/-- An occurrence of an event code (R279): its reaction, then its report. AUTO_REEQUALISE and PROTECTION_REHOME are done
where their one event is detected. -/
def raise (code : Nat) (a0 a1 : Word) (s : State) : State :=
  emit code a0 a1 (react (pbReaction (pbEntry s code)) a0 (access 214 s))

/-! Parity errors (R46, R293). -/

/-- A parity error on an internal bus: counted and reported (R293). -/
def busParity (s : State) : State :=
  raise 0xA31 (wordOf (Config.busId s.freeCtr).toNat) 0 (addCtr (errCtr 8) 1 (drawn s))

/-- A parity error met on the way: `k` 1 at the crossing `xing`, in R44 order, of the port or lane `who` (R46), 2 on an internal
bus (R293), 0 none. -/
def parityError (k xing who : Nat) (s : State) : State :=
  if k = 1 then raise 0xA30 (wordOf xing) (wordOf who) s else if k = 2 then busParity s else s

/-- A handshake's request: dropped and reported when both of its tries met a parity error (R46). -/
def handshake (lost : Bool) (xing who : Nat) (f : State → State) (s : State) : State :=
  if lost then raise 0xA30 (wordOf xing) (wordOf who) s else f s

/-! Fabric failures that are reported (R25, R26). -/

/-- The arguments that name an address and a use. -/
def addrEvent (code addr use : Nat) (s : State) : State :=
  raise code (wordOf (addr % 4294967296)) (wordOf (addr / 4294967296 + use * 1048576)) s

/-- A read tag is quarantined (R26). -/
def quarantine (id : Nat) (s : State) : State :=
  let s := s.modFab fun b => { b with quar := b.quar ++ [id] }
  if 64 ≤ s.fab.quar.length && !s.fab.quarEp then
    raise 0x113 (wordOf s.fab.quar.length) 0 (s.modFab fun b => { b with quarEp := true })
  else s

end Sys2Proof.Machine
end

