-- ==== Sys2Proof/Machine/Routes.lean ====
section
/-! DEFINITION. The link's shared operations: routes (R245), the receive stores and their pauses (R254), and what waits to
be sent (R243). -/

namespace Sys2Proof.Machine

/-- `LNK_CFG`: the block's own ID, the hops of its messages, the class of MIGRATE messages (R259). -/
def ownInstance (s : State) : Nat := bitsOf (reg s 0x80000) 0 14
def linkHops (s : State) : Nat := bitsOf (reg s 0x80000) 16 6
def migClass (s : State) : Nat := bitsOf (reg s 0x80000) 24 3

/-- A message joins what its port has to send. -/
def pushTx (c : Nat) (m : Msg) (s : State) : State := modCPort c (fun C => { C with txq := C.txq ++ [m] }) s

/-- A message of the block's own for its neighbour on a port (R242, R250, R259). DEDUCED: its destination is the far instance. -/
def pushOwn (c hops : Nat) (b : Body) (s : State) : State :=
  pushTx c { body := b, hops := hops, dest := (getCPort s c).farId, origin := ownInstance s } s

/-- The lane domains of a port wake (R305). -/
def wakeLanes (c : Nat) (s : State) : State := eachBelow 4 (fun i => startWake (128 + 4 * c + i)) s

/-! Routes (R245). -/

def routeOf (s : State) (dest : Nat) : Word := tget s.lnk.routes dest 0

/-- An entry with a double-bit error acts as not valid (R291). -/
def routeValid (s : State) (dest : Nat) : Bool := bitOf (routeOf s dest) 31 && !s.cls.badItems.contains (12, dest)

/-- The cluster port that a message to an instance takes now, none while no port of its entry is up. -/
def pickPort (s : State) (dest : Nat) (path : Option Nat) : Option Nat :=
  let e := routeOf s dest
  let ok := fun c => bitOf e c && (getCPort s c).up
  let hashed := match path with
    | some c => if bitOf e 6 && ok c then some c else none
    | none => none
  match hashed with
  | some c => some c
  | none => if (getCPort s (bitsOf e 4 2)).up then some (bitsOf e 4 2) else (List.range 4).find? ok

/-- A message without a valid entry is discarded: `port` brought it, or none did (R245, R261). -/
def noRoute (port : Option Nat) (dest : Nat) (s : State) : State :=
  match port with
  | some c => raise 0x817 (wordOf c) (wordOf dest) (lstat c 11 1 s)
  | none => raise 0x817 0xFF (wordOf dest) (lstat (Config.noRoutePort s.freeCtr).toNat 11 1 (drawn s))

/-! Receive stores (R254). -/

/-- Cells that a class holds in a port's store, and all of them. -/
def occupancy (C : CPort) (k : Nat) : Nat := (C.store.filter fun e => e.cls = k).foldl (fun a e => a + e.cells) 0
def storeUsed (C : CPort) : Nat := C.store.foldl (fun a e => a + e.cells) 0

def xoffOf (s : State) (c k : Nat) : Nat := bitsOf (reg s (0x80100 + c * 0x20 + k * 4)) 0 14
def xonOf (s : State) (c k : Nat) : Nat := bitsOf (reg s (0x80100 + c * 0x20 + k * 4)) 16 14

/-- A message takes its cells; its class is paused when it reaches `XOFF`. -/
def storeTake (c : Nat) (e : Stored) (s : State) : State :=
  let s := modCPort c (fun C => { C with store := C.store ++ [e] }) s
  let C := getCPort s c
  if xoffOf s c e.cls ≤ occupancy C e.cls && !C.xoffs.contains e.cls then
    pushOwn c (linkHops s) (.pause e.cls 0xFFFF) (modCPort c (fun C => { C with xoffs := C.xoffs ++ [e.cls] }) s)
  else s

/-- A stored message is carried out, written or forwarded: its cells free, and its class's pause ends below `XON`. -/
def storeFree (c id : Nat) (s : State) : State :=
  match (getCPort s c).store.find? fun e => e.id = id with
  | none => s
  | some e =>
    let s := modCPort c (fun C => { C with store := dropFirst (fun e => e.id = id) C.store }) s
    let C := getCPort s c
    if C.xoffs.contains e.cls && decide (occupancy C e.cls < xonOf s c e.cls) then
      pushOwn c (linkHops s) (.pause e.cls 0) (modCPort c (fun C => { C with xoffs := C.xoffs.filter fun k => k ≠ e.cls }) s)
    else s

end Sys2Proof.Machine
end

