-- ==== Sys2Proof/Machine/Lines.lean ====
section
/-! DEFINITION. What the Ebivios link puts on its lanes: the 8b/10b code groups and ordered sets of training (R231–R236), the
66-bit blocks and their scrambler (R237, R238), striping and ALIGN (R240), and the bytes of a message (R242, R244, R248–R255). -/

namespace Sys2Proof.Machine

/-! The 8b/10b code (R231). PRESUMED from IEEE 802.3 Clause 36, which the manual names: the tables of the code groups, and a
running disparity that starts negative. -/

/-- The six-bit halves of D0–D31 at negative running disparity, bit a first. -/
def sixCodes : List Nat :=
  [0b100111, 0b011101, 0b101101, 0b110001, 0b110101, 0b101001, 0b011001, 0b111000,
   0b111001, 0b100101, 0b010101, 0b110100, 0b001101, 0b101100, 0b011100, 0b010111,
   0b011011, 0b100011, 0b010011, 0b110010, 0b001011, 0b101010, 0b011010, 0b111010,
   0b110011, 0b100110, 0b010110, 0b110110, 0b001110, 0b101110, 0b011110, 0b101011]

/-- The four-bit halves of Dx.0–Dx.7 at negative running disparity. -/
def fourCodes : List Nat := [0b1011, 0b1001, 0b0101, 0b1100, 0b1101, 0b1010, 0b0110, 0b1110]

/-- The ones of a half of `n` bits. -/
def ones (n v : Nat) : Nat := ((List.range n).filter fun i => v / 2 ^ i % 2 = 1).length

/-- A half at a running disparity (true for positive), and the disparity after it: an unbalanced half, and one of the two balanced
halves that come in both forms, is inverted at positive disparity. -/
def half (n : Nat) (both : Bool) (rd : Bool) (v : Nat) : Nat × Bool :=
  let even := decide (2 * ones n v = n)
  (if rd && (both || !even) then 2 ^ n - 1 - v else v, if even then rd else !rd)

/-- The code group of a data character. -/
def codeOf (rd : Bool) (b : Byte) : BitVec 10 × Bool :=
  let x := b.toNat % 32
  let y := b.toNat / 32
  let (six, rd1) := half 6 (decide (x = 7)) rd (sixCodes.getD x 0)
  let alt := decide (y = 7) && (if rd1 then decide (x = 11 ∨ x = 13 ∨ x = 14) else decide (x = 17 ∨ x = 18 ∨ x = 20))
  let (four, rd2) := half 4 (decide (y = 3)) rd1 (if alt then 0b0111 else fourCodes.getD y 0)
  (BitVec.ofNat 10 (six * 16 + four), rd2)

/-- The code group of K28.5. -/
def comma (rd : Bool) : BitVec 10 × Bool := (if rd then 0b1100000101#10 else 0b0011111010#10, !rd)

/-- The code groups of data characters, and the running disparity after them. -/
def codes : Bool → List Byte → List (BitVec 10) × Bool
  | rd, [] => ([], rd)
  | rd, b :: r =>
    let (c, rd') := codeOf rd b
    let (cs, rd'') := codes rd' r
    (c :: cs, rd'')

/-- The unit intervals of a code group on the line: each bit is held for eight (R231). -/
def unitIntervals (c : BitVec 10) : List Bool := (List.range 10).flatMap fun i => List.replicate 8 (c.getLsbD (9 - i))

/-! Ordered sets (R232). -/

/-- Characters 1–15 of a set: `TYPE`, payload, CRC-16. -/
def setBytes (type : Byte) (ps : List Byte) : List Byte :=
  let body := type :: (List.range 12).map fun i => ps.getD i 0
  body ++ (wordBytes (wordOf (crc16 body))).take 2

/-- A whole set on the line, and the running disparity after it. -/
def setCodes (rd : Bool) (type : Byte) (ps : List Byte) : List (BitVec 10) × Bool :=
  let (k, rd1) := comma rd
  let (cs, rd2) := codes rd1 (setBytes type ps)
  (k :: cs, rd2)

/-- `LNK_PORT_CFG` of a port. -/
def portCfg (s : State) (c : Nat) : Word := reg s (0x80010 + c * 4)

/-- `WAKE_NS` of the block's own receivers (R235). -/
def ownWake : Nat := 1500

/-- P1–P9 of the CAP sets of a port (R232, R235). -/
def capFields (s : State) (c : Nat) : List Byte :=
  BitVec.ofNat 8 0x11 :: (beBytes 2 (ownInstance s) ++
    [BitVec.ofNat 8 (bitsOf (portCfg s c) 0 8), BitVec.ofNat 8 (linkHops s + bitsOf (portCfg s c) 16 2 * 64)] ++
    beBytes 2 ownWake ++ beBytes 2 s.lnk.session)

/-- Type and payload of the set that a lane starts now (R230, R232–R236). -/
def setNow (s : State) (l : Nat) : List Byte :=
  let L := getLane s l
  let p0 := BitVec.ofNat 8 (l % 4 + l / 4 * 4)
  if L.st = 2 then [0xB5, p0, BitVec.ofNat 8 L.req, BitVec.ofNat 8 L.tapStat, BitVec.ofNat 8 (ofBit L.trained)]
  else if L.st = 3 then [0xC6, p0, BitVec.ofNat 8 (ofBit L.locked)]
  else match L.markTx with
    | some k => [0xE8, p0, BitVec.ofNat 8 k]
    | none => 0xD7 :: p0 :: (capFields s (l / 4) ++ [BitVec.ofNat 8 (ofBit L.ack)])

/-- A lane whose transmitter sends ordered sets. -/
def sendsSets (L : Lane) : Bool := decide (2 ≤ L.st) && !L.fullTx

/-- What the end of a set brings: `ACK` is counted, and once three sets with it have gone out and the far end has sent one, the
MARK countdown runs; after `COUNT` 0 the transmitter is at full rate, its scrambler in a state that nothing gives (R236, R237). -/
def setSent (l : Nat) (s : State) : State :=
  let L := getLane s l
  match L.txSet with
  | 0xE8 :: _ :: k :: _ =>
    if k = 0 then
      drawn (modLane l (fun L => { L with markTx := none, fullTx := true, txScr := Config.scrambler s.freeCtr }) s)
    else modLane l (fun L => { L with markTx := some (k.toNat - 1) }) s
  | 0xD7 :: ps =>
    modLane l (fun L =>
      let n := sat 3 (L.ackSent + (if ps.getD 10 0 = 1 then 1 else 0))
      if 3 ≤ n && L.farAck then { L with ackSent := n, marking := true, markTx := some 7 } else { L with ackSent := n }) s
  | _ => s

/-- A set ends: it has stood on the line, and what it brings follows. -/
def setEnd (l : Nat) (s : State) : State :=
  let L := getLane s l
  let (cs, rd) := setCodes L.rd (L.txSet.headD 0) L.txSet.tail
  setSent l (modLane l (fun L => { L with codes := cs, rd := rd }) s)

/-- 1 ns of a lane's transmitter at one-eighth rate: 330 sets last 16,384 ns (R231, R232). -/
def setClock (l : Nat) (s : State) : State :=
  let L := getLane s l
  if !sendsSets L then s
  else if L.txSet.isEmpty then modLane l (fun L => { L with txSet := setNow s l, txAcc := 0 }) s
  else if L.txAcc + 330 < 16384 then modLane l (fun L => { L with txAcc := L.txAcc + 330 }) s
  else
    let s := setEnd l s
    let next := if sendsSets (getLane s l) then setNow s l else []
    modLane l (fun K => { K with txSet := next, txAcc := L.txAcc + 330 - 16384 }) s

/-! 66-bit blocks (R237, R238). -/

/-- A block before its scrambler: a control block or a data block, and its 8 bytes. -/
structure Block where
  ctl : Bool
  bytes : List Byte
  deriving DecidableEq, Repr

/-- A control block: its type, and up to 7 bytes. -/
def ctlBlock (type : Byte) (bs : List Byte) : Block :=
  { ctl := true, bytes := type :: (List.range 7).map fun i => bs.getD i 0 }

def idleBlock : Block := ctlBlock 0x1E []
def sleepBlock : Block := ctlBlock 0x99 []
def wakeBlock : Block := ctlBlock 0xAA []
def errorBlock : Block := ctlBlock 0xFF []

/-- ALIGN of a lane in its port (R240). -/
def alignBlock (lane port count : Nat) : Block := ctlBlock 0x4B (BitVec.ofNat 8 (lane + port * 4) :: beBytes 4 count)

/-- The types of control blocks that a message or a gap between messages may hold; ERROR stands for a block that was lost. -/
def goodType (b : Byte) : Bool :=
  b = 0x1E || b = 0x2D || b = 0x4B || b = 0x99 || b = 0xAA || decide (0xE0 ≤ b.toNat ∧ b.toNat ≤ 0xE7)

/-- The data blocks and the END of the rest of a message; `n` bounds the blocks. -/
def restBlocks : Nat → List Byte → List Block
  | 0, bs => [ctlBlock (BitVec.ofNat 8 (0xE0 + bs.length)) bs]
  | n + 1, bs =>
    if bs.length < 8 then [ctlBlock (BitVec.ofNat 8 (0xE0 + bs.length)) bs]
    else { ctl := false, bytes := bs.take 8 } :: restBlocks n (bs.drop 8)

/-- A message as blocks: START, data, END. -/
def msgBlocks (bs : List Byte) : List Block := ctlBlock 0x2D (bs.take 7) :: restBlocks bs.length (bs.drop 7)

/-- The scrambler x^58 + x^39 + 1: a bit out, from the last 58 bits sent, the latest in bit 0. -/
def scramBit (st : BitVec 58) (b : Bool) : Bool := b.xor ((st.getLsbD 38).xor (st.getLsbD 57))

/-- The last 58 bits after one more. -/
def scramNext (st : BitVec 58) (o : Bool) : BitVec 58 := st <<< 1 ||| BitVec.ofNat 58 (ofBit o)

def scramble : BitVec 58 → List Bool → List Bool × BitVec 58
  | st, [] => ([], st)
  | st, b :: r =>
    let o := scramBit st b
    let (os, st') := scramble (scramNext st o) r
    (o :: os, st')

/-- The descrambler, from the last 58 bits received. -/
def descramble : BitVec 58 → List Bool → List Bool × BitVec 58
  | st, [] => ([], st)
  | st, o :: r =>
    let (bs, st') := descramble (scramNext st o) r
    (scramBit st o :: bs, st')

/-- 64 payload bits, bit 0 first, and back. -/
def bitsList (v : BitVec 64) : List Bool := (List.range 64).map fun i => v.getLsbD i
def ofBitsList (bs : List Bool) : BitVec 64 := BitVec.ofNat 64 (bs.foldr (fun b a => ofBit b + 2 * a) 0)

/-- A block on the line. -/
def lineBlock (st : BitVec 58) (b : Block) : LineBlock × BitVec 58 :=
  let (os, st') := scramble st (bitsList (BitVec.ofNat 64 (leNat b.bytes)))
  ({ header := if b.ctl then 0b10 else 0b01, payload := ofBitsList os }, st')

/-- A block as it is received: none for an invalid header. -/
def readBlock (st : BitVec 58) (x : LineBlock) : Option Block × BitVec 58 :=
  let (bs, st') := descramble st (bitsList x.payload)
  let v := (ofBitsList bs).toNat
  let bytes := (List.range 8).map fun i => BitVec.ofNat 8 (v / 256 ^ i)
  (if x.header = 0b10 then some { ctl := true, bytes := bytes }
   else if x.header = 0b01 then some { ctl := false, bytes := bytes } else none, st')

/-- A received block that ends the message in progress. -/
def badBlock (b : Option Block) : Bool :=
  match b with
  | none => true
  | some b => b.ctl && !goodType (b.bytes.headD 0)

/-! A port's stream of blocks (R236, R238, R240). `blk` is the place of its next block in the 4,096 rows of four between two rows of
ALIGN. -/

/-- A lane sends a block; its first one at full rate is IDLE (R236). -/
def putLane (l : Nat) (b : Block) (s : State) : State :=
  if (getLane s l).fullTx then
    modLane l (fun L =>
      let (x, st) := lineBlock L.txScr (if L.begun then b else idleBlock)
      { L with txScr := st, begun := true, line := L.line ++ [x] }) s
  else s

/-- The lanes' records of what they send start anew. -/
def newLines (c : Nat) (s : State) : State :=
  eachBelow 4 (fun i s => if (getLane s (4 * c + i)).line.isEmpty then s else modLane (4 * c + i) (fun L => { L with line := [] }) s) s

/-- All four lanes carry ALIGN. -/
def alignRow (c : Nat) (s : State) : State :=
  let n := (getCPort s c).marker
  eachBelow 4 (fun i s => putLane (4 * c + i) (alignBlock i c n) s)
    (modCPort c (fun C => { C with blk := 4, marker := (C.marker + 1) % 4294967296 }) s)

/-- The next block of a port: block k goes on lane k mod 4, after a row of ALIGN where one is due. -/
def putBlock (c : Nat) (b : Block) (s : State) : State :=
  let s := if (getCPort s c).blk = 0 then alignRow c s else s
  let k := (getCPort s c).blk
  putLane (4 * c + k % 4) b (modCPort c (fun C => { C with blk := (C.blk + 1) % 16384 }) s)

def putBlocks (c : Nat) (bs : List Block) (s : State) : State := bs.foldl (fun s b => putBlock c b s) s

/-- IDLE fills the row that has been begun. -/
def fillRow (c : Nat) (s : State) : State := putBlocks c (List.replicate ((4 - (getCPort s c).blk % 4) % 4) idleBlock) s

/-- A row with nothing to send: ALIGN where it is due, else IDLE. -/
def idleRow (c : Nat) (s : State) : State :=
  let s := newLines c s
  if (getCPort s c).blk = 0 then alignRow c s
  else putBlocks c (List.replicate (4 - (getCPort s c).blk % 4) idleBlock) s

/-- 1 ns of a port at full rate with no message to send: a row of blocks lasts 64/25 ns (R237, R243). -/
def rowClock (c : Nat) (s : State) : State :=
  let C := getCPort s c
  if C.asleep || C.cur.isSome || !((List.range 4).any fun i => (getLane s (4 * c + i)).fullTx) then s
  else if C.rowAcc + 25 < 64 then modCPort c (fun C => { C with rowAcc := C.rowAcc + 25 }) s
  else idleRow c (modCPort c (fun C => { C with rowAcc := C.rowAcc + 25 - 64 }) s)

/-- 1 ns of every transmitter of the link. -/
def linkClock (s : State) : State := eachBelow 4 rowClock (eachBelow 16 setClock s)

/-! The bytes of a message (R242). -/

/-- `KIND` and `SUB`. DESIGN CHOICE: the manual gives DATA no subtype, and the block sends 0. -/
def kindOf : Body → Nat × Nat
  | .data _ => (1, 0)
  | .time sub _ _ => (2, sub)
  | .migBegin _ => (3, 1)
  | .migTerm _ _ _ => (3, 2)
  | .migFlow _ _ _ => (3, 3)
  | .migEnd _ _ _ => (3, 4)
  | .migDone _ _ => (3, 5)
  | .pause _ _ => (4, 1)
  | .ack _ _ => (4, 2)
  | .cap _ => (4, 3)
  | .snap _ _ _ => (4, 4)
  | .other _ => (4, 0)

/-- Body bytes by `KIND` (R244, R248–R255). -/
def bodyBytes : Body → List Byte
  | .data d =>
    beBytes 2 d.ring.val ++ beBytes 1 (d.cls.val + d.colour % 4 * 64) ++ beBytes 1 d.alloc.val ++ beBytes 2 (d.terminal % 32768) ++
      beBytes 3 (d.flow % 262144) ++ [0] ++ beBytes 4 d.stamp.toNat ++ [0, 0] ++ d.bytes
  | .time _ seqId t => beBytes 2 seqId ++ beBytes 6 t.sec ++ beBytes 4 t.ns ++ beBytes 8 (t.qns * 0x4000)
  | .migBegin m =>
    beBytes 2 m.mid.toNat ++ beBytes 1 m.srcPort.val ++ beBytes 1 m.dstPort.val ++ beBytes 2 m.terms ++ beBytes 3 m.flows ++ [0, 0, 0]
  | .migTerm mid term ws => beBytes 2 mid ++ beBytes 2 term ++ wordsBytes ws
  | .migFlow mid flow ws => beBytes 2 mid ++ beBytes 3 flow ++ [0, 0, 0] ++ wordsBytes ws
  | .migEnd mid terms flows => beBytes 2 mid ++ beBytes 2 terms ++ beBytes 4 flows
  | .migDone mid status => beBytes 2 mid ++ beBytes 1 status ++ [0]
  | .ack next gap => beBytes 4 next ++ beBytes 1 (ofBit gap) ++ [0, 0, 0]
  | .pause cls quanta =>
    beBytes 1 (2 ^ cls) ++ [0] ++ (List.range 8).flatMap fun k => beBytes 2 (if k = cls then quanta else 0)
  | .cap ps => (List.range 10).map (fun i => ps.getD i 0) ++ [0, 0]
  | .snap number sec ns => beBytes 2 number ++ beBytes 6 sec ++ beBytes 4 ns
  | .other n => List.replicate n 0

/-- The 16-byte header of a message. -/
def headBytes (m : Msg) : List Byte :=
  beBytes 1 (kindOf m.body).1 ++ beBytes 1 (kindOf m.body).2 ++ beBytes 1 m.cls ++ beBytes 1 m.hops ++ beBytes 2 m.dest ++
    beBytes 2 m.origin ++ beBytes 4 m.seq ++ beBytes 2 (bodyBytes m.body).length ++ [0, 0]

/-- A whole message: header, body and CRC-32. -/
def msgWire (m : Msg) : List Byte :=
  let b := headBytes m ++ bodyBytes m.body
  b ++ wordBytes (wordOf (crc32 b))

/-- The bytes of a received message fail a check of R242: 1 a wrong CRC, 2 a wrong length, 3 an unknown `KIND` or `SUB`. -/
def msgFault (bs : List Byte) : Nat :=
  let n := bs.length - 4
  let b := fun i => (bs.getD i 0).toNat
  let sub := b 1
  let known := match b 0 with
    | 1 => sub = 0
    | 2 => sub = 0 || sub = 1 || sub = 8 || sub = 9
    | 3 => 1 ≤ sub && sub ≤ 5
    | 4 => 1 ≤ sub && sub ≤ 4
    | _ => false
  if leNat (bs.drop n) ≠ crc32 (bs.take n) then 1
  else if bs.length ≠ 20 + (b 12 * 256 + b 13) then 2
  else if !known then 3 else 0

/-- A whole message leaves: a time message starts on in-port lane 0, and ERROR stands for the block that was found poisoned on its
way to the lane (R46, R238, R243). -/
def sendMsg (c : Nat) (bad : Option Nat) (m : Msg) (s : State) : State :=
  let bs := msgBlocks (msgWire m)
  let s := newLines c s
  let s := match m.body with
    | .time _ _ _ => fillRow c s
    | _ => s
  match bad with
  | none => putBlocks c bs s
  | some k =>
    if bs.length ≤ k then putBlocks c bs s
    else
      let s := putBlock c errorBlock (putBlocks c (bs.take k) s)
      let lane := 4 * c + ((getCPort s c).blk + 3) % 4
      putBlocks c (bs.drop (k + 1)) (raise 0xA30 6 (wordOf lane) s)

end Sys2Proof.Machine
end

