-- ==== Sys2Proof/Machine/Alloc.lean ====
section
/-! DEFINITION. One computation of the grant engine, as arithmetic: reservations (R153, R174, R177), curves (R151), the
allocation (R154), the layout (R156) and the entries of the list and the plan (R157, R159). -/

namespace Sys2Proof.Machine

def round4Down (n : Nat) : Nat := n / 4 * 4
def round4Up (n : Nat) : Nat := ceilDiv n 4 * 4

/-! Working values (R142). -/

def constsOf (s : State) (p : Nat) : FramerConst :=
  (getPort s p).consts.getD
    { profile := 0, cap := 0, guardBytes := 0, preamble := 0, delim := 0, encap := 0, report := 0, byteTime := 0, dsLat := 0,
      usLat := 0 }
def constOh (c : FramerConst) : Nat := c.guardBytes + c.preamble + c.delim
def constLmin (c : FramerConst) : Nat := 64 + c.encap

/-- P(x) of R164, in 1/16 ns. -/
def posTime (c : FramerConst) (x : Nat) : Int := (x * c.byteTime / 4096 : Nat)

/-- The cycle budget (R153, R162). -/
def cycleBudget (s : State) (t : Nat) (c : FramerConst) : Nat :=
  let lim := bitsOf (reg s (0x40100 + t * 4)) 0 21 / 16 * 16
  if lim = 0 then c.cap else min c.cap lim

/-! A tree's timing values (R165, R268), and the reservations' lengths (R174, R177). -/

def rngTree (s : State) (t w : Nat) : Word := reg s (0x51000 + t * 0x20 + w * 4)
def teqdNs (s : State) (t : Nat) : Int := bitsOf (rngTree s t 0) 0 20 + (getRTree s t).useDelta
def rttMinNs (s : State) (t : Nat) : Int := bitsOf (rngTree s t 1) 0 20 + (getRTree s t).useDelta
def rttMaxNs (s : State) (t : Nat) : Int := bitsOf (rngTree s t 2) 0 20 + (getRTree s t).useDelta
def leadBytes (s : State) (t : Nat) : Nat := bitsOf (rngTree s t 3) 0 12
def rangeBytes (s : State) (t : Nat) : Nat := bitsOf (rngTree s t 3) 12 16
def answerBytes (s : State) (t : Nat) : Nat := bitsOf (rngTree s t 4) 0 16
def randBytes (s : State) (t : Nat) : Nat := bitsOf (rngTree s t 4) 16 16
def jbPeriod (s : State) (t : Nat) : Nat := bitsOf (rngTree s t 5) 0 11
def beMax (s : State) (t : Nat) : Nat := bitsOf (rngTree s t 5) 12 4

def spanBytes (s : State) (t : Nat) (c : FramerConst) : Nat :=
  if c.byteTime = 0 then 0 else round4Up (ceilDiv ((rttMaxNs s t - rttMinNs s t).toNat * 65536) c.byteTime)
def slotLen (s : State) (t : Nat) (c : FramerConst) : Nat := 2 * leadBytes s t + spanBytes s t c + rangeBytes s t
def windowLen (s : State) (t : Nat) (c : FramerConst) : Nat :=
  2 * leadBytes s t + spanBytes s t c + randBytes s t + answerBytes s t

/-- A cycle number has come, cycle numbers being modulo 2^32 (R140, R177). -/
def cycleCame (at' cyc : Nat) : Bool := decide ((cyc + 4294967296 - at') % 4294967296 < 2147483648)

/-- The reservations offered for a cycle (R174, R177): kind, `TERM` and length. A window's `TERM` is 0x1FF (R157). -/
def offers (s : State) (t cyc : Nat) (c : FramerConst) : List (GKind × Nat × Nat) :=
  let r := getRTree s t
  if r.cfgBad then []
  else
    (if jbPeriod s t ≠ 0 ∧ cycleCame r.jbAt cyc then [(.window, 0x1FF, windowLen s t c)] else []) ++
    (((r.pend.filter fun k => !r.placed.contains k).take 8).map fun k => (.slot, k, slotLen s t c))

/-- A reservation may be taken at all: its terminal has a grant mode and a good record (R153). -/
def offerOk (s : State) (t : Nat) (o : GKind × Nat × Nat) : Bool :=
  o.1 = .window || (decide ((getRec s (t * 512 + o.2.1)).mode ≠ 0) && !(getRec s (t * 512 + o.2.1)).flagged)

/-- The reservations taken, and how many are deferred (R153). -/
def takeOffers (s : State) (t half : Nat) : Nat → List (GKind × Nat × Nat) → List (GKind × Nat × Nat) × Nat
  | _, [] => ([], 0)
  | used, o :: r =>
    if offerOk s t o && decide (used + o.2.2 ≤ half) then
      let (a, d) := takeOffers s t half (used + o.2.2) r
      (o :: a, d)
    else
      let (a, d) := takeOffers s t half used r
      (a, d + 1)

/-! Curves (R151). -/

/-- f(b) over the points after one at (x0, y0). -/
def curveAt (b : Nat) : Nat → Nat → List (Nat × Nat) → Nat
  | _, y0, [] => y0
  | x0, y0, (x, y) :: r => if b < x then y0 + (y - y0) * (b - x0) / (x - x0) else curveAt b x y r

/-- An allocation's curve; a flagged one gives nothing but polls (R161). DESIGN CHOICE: polls go on at the damaged curve's last
`POLL_LOG2`, of which the manual does not speak. -/
def curveOf (s : State) (r : TermRec) (a : Nat) : Curve :=
  let c := getCurve s ((r.allocs.getD a {}).curve)
  if c.flagged then { pollLog2 := c.pollLog2 } else c

def effBacklog (x : AllocRec) : Nat := 64 * x.backlog - 64 * x.granted

/-! The allocation (R154). -/

/-- A terminal in the computation. `dfc` and `dem` are `def` and `dem` of R154, `owed` is `owed_new`. -/
structure GTerm where
  t : Nat
  r : TermRec
  curves : List Curve
  k : Nat
  bursts : Nat := 0
  reported : Bool := false
  polled : Bool := false
  dataAllocs : Nat := 0
  grant : List Nat := [0, 0, 0, 0]
  blocked : List Bool := [false, false, false, false]
  dfc : List Int
  dem : List Nat := [0, 0, 0, 0]
  owed : List Nat := [0, 0, 0, 0]
  deriving DecidableEq, Repr

structure GWork where
  oh : Nat
  rb : Nat
  lmin : Nat
  budget : Nat
  entries : Nat
  guarShort : Nat := 0
  hits : Nat := 0
  firstHit : Nat := 0
  terms : List GTerm
  deriving DecidableEq, Repr

def GTerm.curve (x : GTerm) (a : Nat) : Curve := x.curves.getD a {}
def GTerm.alloc (x : GTerm) (a : Nat) : AllocRec := x.r.allocs.getD a {}
def GTerm.data (x : GTerm) : Bool := x.r.mode = 2
def GTerm.on (x : GTerm) (a : Nat) : Bool := x.data && (x.alloc a).enable

def wFind (w : GWork) (t : Nat) : Option GTerm := w.terms.find? fun x => x.t = t
def wMod (t : Nat) (f : GTerm → GTerm) (w : GWork) : GWork := { w with terms := updFirst (fun x => x.t = t) f w.terms }

/-- `place` of R154: the bytes granted and the work after. -/
def place (t a n : Nat) (w : GWork) : Nat × GWork :=
  match wFind w t with
  | none => (0, w)
  | some x =>
    if n = 0 ∨ x.blocked.getD a false then (0, w)
    else
      let first := decide (x.grant.getD a 0 = 0)
      let needE := if first then (if x.polled && decide (x.dataAllocs = 0) then x.k - 1 else x.k) else 0
      if first && decide (1024 < w.entries + needE) then
        (0, wMod t (fun x => { x with blocked := x.blocked.set a true })
          { w with hits := w.hits + 1, firstHit := if w.hits = 0 then t else w.firstHit })
      else
        let n := if first then max n (x.k * w.lmin) else n
        if first && decide ((x.curve a).max < n) then (0, w)
        else
          let cost := (x.k - x.bursts) * w.oh + (if x.reported then 0 else w.rb)
          let short := decide (w.budget < cost + n)
          let n := if short then round4Down (w.budget - cost) else n
          if short && (decide (n = 0) || (first && decide (n < x.k * w.lmin))) then (0, w)
          else
            (n, wMod t (fun x =>
              { x with bursts := x.k, reported := true, dataAllocs := if first then x.dataAllocs + 1 else x.dataAllocs,
                       grant := x.grant.set a (x.grant.getD a 0 + n) })
              { w with budget := w.budget - cost - n, entries := w.entries + needE })

/-- `place_poll` of R154. -/
def placePoll (t : Nat) (w : GWork) : GWork :=
  if w.entries = 1024 ∨ w.budget < w.oh + w.rb then w
  else wMod t (fun x => { x with bursts := 1, reported := true, polled := true })
    { w with budget := w.budget - w.oh - w.rb, entries := w.entries + 1 }

/-- A terminal's poll is due. -/
def pollDue (x : GTerm) : Bool :=
  let logs := ((List.range 4).filter fun a => (x.alloc a).enable).map fun a => (x.curve a).pollLog2
  decide (2 ^ (logs.min?.getD 0) ≤ x.r.pollAge + 1)

/-- Stage 1 of one allocation. -/
def guarOne (t a : Nat) (w : GWork) : GWork :=
  match wFind w t with
  | none => w
  | some x =>
    if !x.on a then w
    else
      let c := x.curve a
      let want := min (c.guar + 64 * (x.alloc a).owed) c.max
      let (got, w) := place t a want w
      wMod t (fun x => { x with owed := x.owed.set a (min (ceilDiv c.guar 64) (ceilDiv (want - got) 64)) })
        { w with guarShort := w.guarShort + (want - got) }

/-- Stage 1's polls of one terminal. -/
def pollOne (t : Nat) (w : GWork) : GWork :=
  match wFind w t with
  | none => w
  | some x => if x.bursts = 0 && pollDue x then placePoll t w else w

/-- Stage 2 of one allocation. -/
def assuredOne (t a : Nat) (w : GWork) : GWork :=
  match wFind w t with
  | none => w
  | some x =>
    if !x.on a then w
    else
      let c := x.curve a
      let b := effBacklog (x.alloc a)
      let target := min (min (curveAt b 0 0 c.pts) c.assured) (min b c.max)
      (place t a (round4Up (target - x.grant.getD a 0)) w).2

/-- The start of stage 3 for one allocation: its demand, and its deficit where it has none. -/
def demandOne (t a : Nat) (w : GWork) : GWork :=
  wMod t (fun x =>
    if x.on a && decide (0 < (x.curve a).weight) then
      let c := x.curve a
      let g := x.grant.getD a 0
      let d := min (ceilDiv (min (effBacklog (x.alloc a)) c.max - g) 64) ((c.max - g) / 64)
      { x with dem := x.dem.set a d, dfc := if d = 0 then x.dfc.set a 0 else x.dfc }
    else x) w

/-- The pairs live at the start of stage 3, as 4 × terminal + alloc, rising. -/
def liveOf (w : GWork) : List Nat :=
  w.terms.flatMap fun x =>
    ((List.range 4).filter fun a =>
      x.on a && decide (0 < (x.curve a).weight) && decide (x.dem.getD a 0 ≠ 0) && !x.blocked.getD a false).map fun a => x.t * 4 + a

/-- Stage 3's loop; the bound is above the visits that any deficits and budget allow. DEDUCED: an allocation first refused for
entries here keeps the `WEIGHT` that the procedure of R154 has added by then, where the table of R155 has its deficit unchanged. -/
def excessLoop : Nat → Nat → List Nat → GWork → Nat × GWork
  | 0, p, _, w => (p, w)
  | n + 1, p, live, w =>
    if live.isEmpty || decide (w.budget < 64) then (p, w)
    else
      let key := match live.find? fun k => decide (p ≤ k) with
        | some k => k
        | none => live.headD 0
      let t := key / 4
      let a := key % 4
      let p' := (key + 1) % 2048
      match wFind w t with
      | none => (p, w)
      | some x =>
        let d := x.dfc.getD a 0 + (x.curve a).weight
        let w := wMod t (fun x => { x with dfc := x.dfc.set a d }) w
        if d ≤ 0 then excessLoop n p' live w
        else
          let (got, w) := place t a (64 * min (min d.toNat (x.dem.getD a 0)) (w.budget / 64)) w
          if got = 0 then excessLoop n p' (live.filter fun k => k ≠ key) w
          else
            let u := ceilDiv got 64
            let dem := x.dem.getD a 0 - u
            let w := wMod t (fun x => { x with dfc := x.dfc.set a (if dem = 0 then 0 else d - u), dem := x.dem.set a dem }) w
            excessLoop n p' (if dem = 0 then live.filter fun k => k ≠ key else live) w

/-- The terminals of a computation: those in data or poll-only mode with good records (R145, R161), by number. -/
def gTerms (s : State) (t : Nat) : List GTerm :=
  (s.gnt.recs.filter fun e => e.1 / 512 = t && (e.2.mode = 2 || e.2.mode = 3) && !e.2.flagged).map fun e =>
    { t := e.1 % 512, r := e.2, curves := (List.range 4).map (curveOf s e.2), k := e.2.burstsM1 + 1,
      dfc := (List.range 4).map fun a => ((e.2.allocs.getD a {}).excess) }

/-- The whole procedure of R154: the excess pointer after it, and the work. -/
def allocate (rot exPtr : Nat) (w : GWork) : Nat × GWork :=
  let ts := w.terms.map GTerm.t
  let order := (ts.filter fun t => decide (rot ≤ t)) ++ (ts.filter fun t => decide (t < rot))
  let pairs := order.flatMap fun t => [(t, 0), (t, 1), (t, 2), (t, 3)]
  let w := pairs.foldl (fun w e => guarOne e.1 e.2 w) w
  let w := order.foldl (fun w t => pollOne t w) w
  let w := pairs.foldl (fun w e => assuredOne e.1 e.2 w) w
  let w := pairs.foldl (fun w e => demandOne e.1 e.2 w) w
  excessLoop 100000000 exPtr (liveOf w) w

/-! The layout (R156). -/

/-- The phases that the bursts of a terminal use. -/
def phasesOf (k : Nat) : List Nat :=
  match k with
  | 1 => [0]
  | 2 => [0, 2]
  | 3 => [0, 1, 2]
  | _ => [0, 1, 2, 3]

/-- The allocations that a terminal holds grants for. -/
def GTerm.held (x : GTerm) : List Nat := (List.range 4).filter fun a => x.grant.getD a 0 ≠ 0

/-- The bytes of an allocation's entry in a phase, its report included. -/
def partBytes (rb : Nat) (x : GTerm) (ph a : Nat) : Nat :=
  let g := x.grant.getD a 0
  let q := round4Down (g / x.k)
  if ph = 0 then g - (x.k - 1) * q + (if x.held.head? = some a then rb else 0) else q

/-- The lowest-numbered enabled allocation, or 0 (R157). -/
def lowAlloc (x : GTerm) : Nat := ((List.range 4).find? fun a => (x.alloc a).enable).getD 0

/-- The flow mapped to an allocation (R159). -/
def flowOf (x : GTerm) (a : Nat) : Option Nat :=
  if (x.alloc a).flowValid then some (x.alloc a).flow else none

/-- A terminal's entries in a phase, without their places: alloc, kind, report, bytes. -/
def burstOf (rb : Nat) (x : GTerm) (ph : Nat) : List (Nat × GKind × Bool × Nat) :=
  if x.held.isEmpty then
    if x.polled && decide (ph = 0) then [(lowAlloc x, .poll, true, rb)] else []
  else if (phasesOf x.k).contains ph then
    x.held.map fun a => (a, GKind.data, decide (ph = 0 ∧ x.held.head? = some a), partBytes rb x ph a)
  else []

def burstBytes (oh rb : Nat) (x : GTerm) (ph : Nat) : Nat :=
  let b := burstOf rb x ph
  if b.isEmpty then 0 else b.foldl (fun a e => a + e.2.2.2) oh

/-- The entries of one burst from a position. -/
def emitBurst (x : GTerm) : Nat → Bool → List (Nat × GKind × Bool × Nat) → List GEntry
  | _, _, [] => []
  | pos, first, (a, k, rep, n) :: r =>
    { term := x.t, alloc := a, kind := k, report := rep, first := first, start := pos / 4, len := n / 4, flow := flowOf x a }
      :: emitBurst x (pos + n) false r

/-- The entries of the bursts of one phase, and the position after them. -/
def emitPhase (oh rb ph : Nat) : Nat → List GTerm → List GEntry × Nat
  | pos, [] => ([], pos)
  | pos, x :: r =>
    let b := burstOf rb x ph
    if b.isEmpty then emitPhase oh rb ph pos r
    else
      let (es, p) := emitPhase oh rb ph (pos + burstBytes oh rb x ph) r
      (emitBurst x (pos + oh) true b ++ es, p)

/-- Phases from one on. -/
def emitFrom (oh rb cap : Nat) (ts : List GTerm) : Nat → Nat → Nat → List GEntry
  | 0, _, _ => []
  | n + 1, ph, pos =>
    let rest := (List.range 4).foldl (fun a k => if ph ≤ k then ts.foldl (fun a x => a + burstBytes oh rb x k) a else a) 0
    let (es, p) := emitPhase oh rb ph (min (max pos (ph * cap / 4)) (cap - rest)) ts
    es ++ emitFrom oh rb cap ts n (ph + 1) p

/-- The entries of the reservations taken, from position 0. -/
def emitOffers : Nat → List (GKind × Nat × Nat) → List GEntry
  | _, [] => []
  | pos, (k, t, n) :: r => { term := t, alloc := 0, kind := k, start := pos / 4, len := n / 4 } :: emitOffers (pos + n) r

/-- The codes of `KIND` (R157). -/
def GKind.code : GKind → Nat
  | .data => 0
  | .poll => 1
  | .slot => 2
  | .window => 3

/-- An entry as one transfer of the list bus carries it, reserved bits 0 (R157). -/
def GEntry.word (e : GEntry) : BitVec 64 :=
  BitVec.ofNat 64 (e.term % 512 + e.alloc % 4 * 2 ^ 9 + e.kind.code * 2 ^ 11 + ofBit e.report * 2 ^ 14 + ofBit e.first * 2 ^ 15 +
    e.start % 2 ^ 19 * 2 ^ 16 + e.len % 2 ^ 19 * 2 ^ 35 + ofBit e.last * 2 ^ 56)

/-- The transfers that write a list into the framer's standby page (R34, R157). -/
def listWords (c : Comp) : List (BitVec 64) := c.entries.map GEntry.word

/-- The last entry of a list says so. -/
def markLast : List GEntry → List GEntry
  | [] => []
  | [e] => [{ e with last := true }]
  | e :: r => e :: markLast r

/-! The computation. -/

/-- The deficit fields that a list commits for a terminal (R155): `OWED`, `EXCESS_DEF` and `POLL_AGE` in a record. -/
def newRec (x : GTerm) : Nat × TermRec :=
  (x.t, { x.r with
    pollAge := if x.reported then 0 else min 255 (x.r.pollAge + 1),
    allocs := (List.range 4).map fun a =>
      { x.alloc a with owed := if x.on a then min 0xFFFF (x.owed.getD a 0) else (x.alloc a).owed,
                       excess := max (-32768) (min 32767 (x.dfc.getD a 0)) } })

/-- A computation for a cycle of a tree at its read point, and the reservations deferred. -/
def compute (s : State) (t cyc : Nat) : Comp × Nat :=
  let c := constsOf s (homeOf s t)
  let g := getGTree s t
  let budget := cycleBudget s t c
  let (taken, deferred) := takeOffers s t (budget / 2) 0 (offers s t cyc c)
  let reserved := taken.foldl (fun a o => a + o.2.2) 0
  let (p, w) := allocate g.rot g.excessPtr
    { oh := constOh c, rb := c.report, lmin := constLmin c, budget := budget - reserved, entries := taken.length, terms := gTerms s t }
  let entries := markLast (emitOffers 0 taken ++ emitFrom (constOh c) c.report c.cap w.terms 4 0 reserved)
  let cleared := (s.gnt.recs.filter fun e => e.1 / 512 = t && !(e.2.mode = 2 || e.2.mode = 3) && !e.2.flagged).map fun e =>
    (e.1 % 512, e.2)
  ({ cycle := cyc, entries := entries, recs := w.terms.map newRec ++ cleared,
     grants := w.terms.flatMap fun x => x.held.map fun a => (x.t * 4 + a, ceilDiv (x.grant.getD a 0) 64),
     excessPtr := p,
     granted := (entries.filter fun e => e.kind = .data || e.kind = .poll).foldl (fun a e => a + e.len * 4) 0,
     overhead := (entries.filter fun e => e.first).length * constOh c,
     reserved := reserved, guarShort := w.guarShort, entryHits := w.hits, firstHit := w.firstHit,
     polls := (entries.filter fun e => e.kind = .poll).length }, deferred)

end Sys2Proof.Machine
end

