-- ==== Sys2Proof/Machine/Caddie.lean ====
section
/-! DEFINITION. The caddie's shared operations: contexts and their pages (R188, R189), slots and needs (R194–R196, R199),
holds (R204) and the line-encryption counter (R205). -/

namespace Sys2Proof.Machine

/-! The context's image (R188). -/

/-- The 31 words of state of a context. -/
def ctxWords (c : Ctx) : List Word :=
  [wordOf c.flow, wordOf (c.txPort + c.txTerm * 64 + ofBit c.clear * 32768 + c.keyIndex * 65536),
   wordOf (c.nonce % 4294967296), wordOf (c.nonce / 4294967296),
   wordOf (c.txFrames % 4294967296), wordOf (c.txFrames / 4294967296),
   wordOf (c.txBytes % 4294967296), wordOf (c.txBytes / 4294967296),
   wordOf (c.rxFrames % 4294967296), wordOf (c.rxFrames / 4294967296),
   wordOf (c.rxBytes % 4294967296), wordOf (c.rxBytes / 4294967296)] ++
  (List.range 8).map (fun i => wAt c.host i) ++ List.replicate 11 0

/-- A whole page: the state and its CRC-32C (R188, R189). -/
def ctxPage (c : Ctx) : List Word := ctxWords c ++ [wordOf (crc32c (wordsBytes (ctxWords c)))]

/-- A context read from its words. -/
def ctxOf (ws : List Word) : Ctx :=
  { flow := bitsOf (wAt ws 0) 0 18, txPort := bitsOf (wAt ws 1) 0 6, txTerm := bitsOf (wAt ws 1) 6 9,
    clear := bitOf (wAt ws 1) 15, keyIndex := bitsOf (wAt ws 1) 16 12,
    nonce := (wAt ws 2).toNat + bitsOf (wAt ws 3) 0 16 * 4294967296,
    txFrames := (wAt ws 4).toNat + bitsOf (wAt ws 5) 0 16 * 4294967296,
    txBytes := (wAt ws 6).toNat + bitsOf (wAt ws 7) 0 16 * 4294967296,
    rxFrames := (wAt ws 8).toNat + bitsOf (wAt ws 9) 0 16 * 4294967296,
    rxBytes := (wAt ws 10).toNat + bitsOf (wAt ws 11) 0 16 * 4294967296,
    host := (List.range 8).map fun i => wAt ws (12 + i) }

/-- No reserved bit of a context's state is set (R192). -/
def ctxReservedOk (ws : List Word) : Bool :=
  decide (bitsOf (wAt ws 0) 18 14 = 0 ∧ bitsOf (wAt ws 1) 28 4 = 0 ∧ bitsOf (wAt ws 3) 16 16 = 0 ∧ bitsOf (wAt ws 5) 16 16 = 0
    ∧ bitsOf (wAt ws 7) 16 16 = 0 ∧ bitsOf (wAt ws 9) 16 16 = 0 ∧ bitsOf (wAt ws 11) 16 16 = 0) &&
  ((List.range 11).all fun i => wAt ws (20 + i) = 0)

/-- The check of a page (R189): 0 passes, 1 a wrong CRC, 2 another flow's handle. -/
def pageCheck (flow : Nat) (ws : List Word) : Nat :=
  if wordOf (crc32c (wordsBytes ((List.range 31).map fun i => wAt ws i))) ≠ wAt ws 31 then 1
  else if bitsOf (wAt ws 0) 0 18 ≠ flow then 2 else 0

/-- Where a flow's page, and its flow table entry, lie (R190). -/
def pageAddr (s : State) (f : Nat) : Nat := regAddr s 0x60010 + f * 128
def ftableAddr (s : State) (f : Nat) : Nat := regAddr s 0x60018 + f * 2

/-- The flow table entry of a flow (R190). -/
def ftableEntry (x : Flow) (live : Bool) : Word := wordOf (x.gen + ofBit live * 16384)

/-! Flows and slots. -/

/-- No flow is live until the caddie is ready (R191). -/
def flowLive (s : State) (f : Nat) : Bool := s.pgr.ready && (getFlow s f).live

/-- Held for CHECK, FAULT or PLAYBOOK: both directions (R204). -/
def heldBoth (s : State) (f : Nat) : Bool :=
  let x := getFlow s f
  x.hCheck || x.hFault || x.hPlaybook

/-- The slot of a flow that is CLEAN or DIRTY: its need is served at once (R195). -/
def served (s : State) (f : Nat) : Option Nat :=
  match (getFlow s f).slot with
  | some i => if (getSlot s i).st = .clean || (getSlot s i).st = .dirty then some i else none
  | none => none

/-- A slot serves a need. -/
def touch (i : Nat) (s : State) : State := modSlot i (fun c => { c with ref := true }) s

/-- A context changes: its slot is DIRTY, or will be when its page-out ends (R188, R195). -/
def changeCtx (i : Nat) (f : Ctx → Ctx) (s : State) : State :=
  modSlot i (fun c => { c with ctx := f c.ctx, st := if c.st = .clean then .dirty else c.st,
                               changed := c.changed || decide (c.st = .evicting) }) s

/-- A slot becomes FREE and its flow is no longer resident. -/
def freeSlot (i : Nat) (s : State) : State :=
  let f := (getSlot s i).flow
  modFlow f (fun x => { x with slot := none }) (modSlot i (fun _ => {}) s)

/-- A slot may be chosen as a victim (R194, R203). -/
def evictable (s : State) (c : CSlot) : Bool :=
  !(getFlow s c.flow).pinned && c.prot.isNone && decide (c.inUse = 0) && !c.barred

def cacheSlots : Nat := 49152

/-- Slots FREE, and CLEAN slots that could be victims (R196). -/
def freeSlots (s : State) : Nat := cacheSlots - (s.pgr.slots.filter fun e => e.2.st ≠ .free).length
def cleanVictims (s : State) : Nat := (s.pgr.slots.filter fun e => e.2.st = .clean && evictable s e.2).length
def pinnedFlows (s : State) : Nat := (s.pgr.flows.filter fun e => e.2.pinned).length

/-- Operations whose requests the cipher engine holds (R36, R201). -/
def cipherOps (s : State) : List PageOp := s.pgr.ops.filter fun o => o.req.isSome

/-- The operation of a flow whose request the cipher engine holds. -/
def cipherOp (s : State) (f : Nat) : Option PageOp := (cipherOps s).find? fun o => o.flow = f

def opOf (s : State) (f : Nat) : Option PageOp := s.pgr.ops.find? fun o => o.flow = f
def modOp (f : Nat) (g : PageOp → PageOp) (s : State) : State :=
  s.modPgr fun p => { p with ops := updFirst (fun o => o.flow = f) g p.ops }
def addOp (o : PageOp) (s : State) : State := (access 212 s).modPgr fun p => { p with ops := p.ops ++ [o] }

/-- The tag of an operation's request. -/
def PageOp.tags (o : PageOp) : List Nat := o.req.toList.map fun r => r.tag

/-- An operation is given up; the tag of a request that the engine still holds stays unavailable until its result comes (R36). -/
def dropOp (f : Nat) (s : State) : State :=
  s.modPgr fun p => { p with ops := dropFirst (fun o => o.flow = f) p.ops,
                             quarTags := p.quarTags ++ ((p.ops.find? fun o => o.flow = f).map PageOp.tags).getD [] }

/-! Requests to the cipher engine (R36, R200, R201). -/

/-- The tweak T(h) of a flow's page. -/
def tweak (s : State) (f : Nat) : Nat := (getFlow s f).gen * 262144 + f

/-- The request of an operation under a tag: a page as it was read, or a context with its new `CRC`. -/
def requestOf (s : State) (o : PageOp) (tag : Nat) : CipherReq :=
  { tag := tag, decrypt := decide (o.ph = .decrypt), key := bitsOf (reg s 0x6000C) 0 12, tweak := tweak s o.flow,
    unit := if o.ph = .decrypt then o.unit else ctxPage o.ctx }

/-- A request tag that is neither in use nor quarantined (R36). -/
def freeTag (p : Pgr) : Option Nat :=
  (List.range 128).find? fun k => !(p.ops.any fun o => o.tags.contains k) && !p.quarTags.contains k

/-- An operation waits for a tag. -/
def PageOp.waits (o : PageOp) (ph : PagePh) : Bool := decide (o.ph = ph) && o.req.isNone

/-- The operation that takes the next free tag: page-ins and page-outs take turns, and page-outs ahead of need come after the
others (R196, R201). -/
def nextReq (p : Pgr) : Option PageOp :=
  let pick := fun (b : Bool) => p.ops.find? fun o => o.waits .encrypt && o.clean == b
  match p.ops.find? (fun o => o.waits .decrypt), (pick false).or (pick true) with
  | some i, some o => some (if p.lastIn then o else i)
  | some i, none => some i
  | none, o => o

/-- At most `n` waiting operations send their requests. -/
def cipherReqs : Nat → State → State
  | 0, s => s
  | n + 1, s =>
    match nextReq s.pgr, freeTag s.pgr with
    | some o, some k =>
      let s := modOp o.flow (fun x => { x with req := some (requestOf s x k) }) s
      cipherReqs n (perf 27 1 (s.modPgr fun p => { p with lastIn := decide (o.ph = .decrypt) }))
    | _, _ => s

/-- Requests go to the cipher engine while a tag is free (R200, R201, R312). -/
def cipherReq (s : State) : State := cipherReqs s.pgr.ops.length s

/-- The result of a flow's request has come: its tag is free. -/
def endReq (f : Nat) (s : State) : State := modOp f (fun o => { o with req := none }) s

/-- A page-out starts: the context goes to be encrypted (R196, R200). -/
def pageOut (i : Nat) (victim clean : Bool) (s : State) : State :=
  let c := getSlot s i
  let s := modSlot i (fun c => { c with st := .evicting, victim := victim, changed := false }) s
  cipherReq (addOp { flow := c.flow, slot := i, why := .pageOut, ph := .encrypt, ctx := c.ctx, clean := clean } s)

def startPageOut (i : Nat) (victim : Bool) (s : State) : State := pageOut i victim false s

/-- The flow that a rank-3 need is for. -/
def Need.flowOf : Need → Nat
  | .desc f => f
  | .cmd f _ _ => f
  | .send f => f

/-- The queue of rank 1 with a frame's need, in the order in which the frames arrived (R199). -/
def byArrival (f id : Nat) (l : List (Nat × Nat)) : List (Nat × Nat) :=
  let k := match l.find? fun e => e.1 = f with
    | some e => min e.2 id
    | none => id
  let l := l.filter fun e => e.1 ≠ f
  l.takeWhile (fun e => e.2 < k) ++ (f, k) :: l.dropWhile fun e => e.2 < k

/-- A need for a flow that is neither CLEAN nor DIRTY (R195): it joins a page-in, reclaims an EVICTING slot, or queues the
flow for page-in in its rank (R199). `id` is the upstream frame of a rank-1 need. -/
def needPage (f : Nat) (rank : Nat) (need : Need) (id : Nat) (s : State) : State :=
  match (getFlow s f).slot with
  | some i =>
    if (getSlot s i).st = .evicting then addCtr (pgrCtr 11) 1 (modSlot i (fun c => { c with victim := false, ref := true }) s)
    else s
  | none =>
    if rank = 1 then
      s.modPgr fun p => { p with rank1 := byArrival f id p.rank1,
                                 rank2 := p.rank2.filter (fun x => x.flow ≠ f),
                                 shields := p.shields ++ p.rank2.filter fun x => x.flow = f }
    else s.modPgr fun p => { p with rank3 := if p.rank3.contains need then p.rank3 else p.rank3 ++ [need] }

/-- A page operation of the flow is in progress (R193). -/
def paging (s : State) (f : Nat) : Bool := (opOf s f).isSome

/-! The line-encryption counter (R205). -/

def nonceEnd : Nat := 281474976710655

/-- The NONCE hold, with its event, when the reserved values reach the end of the counter (R205). -/
def nonceHold (f : Nat) (c : Ctx) (s : State) : State :=
  let x := getFlow s f
  if c.nonce + x.p ≥ nonceEnd && !x.hNonce then
    raise 0x602 (wordOf f) (wordOf c.keyIndex) (modFlow f (fun x => { x with hNonce := true }) s)
  else s

end Sys2Proof.Machine
end

