-- ==== Sys2Proof/Machine/TxPath.lean ====
section
/-! DEFINITION. The downstream path's shared operations: steps 4–7 of R77, cells (R105, R106), the priority queues (R107),
and the transmit stamp ring (R221–R224). -/

namespace Sys2Proof.Machine

/-! The transmit stamp ring (R221–R224). -/

/-- A stamp is lost: its completion will say so (R224). -/
def loseStamp (e : TsEnt) (s : State) : State :=
  let s := addCtr (timCtr 1) 1 (modTx e.src.1 e.src.2 (fun t => { t with stampLost := true, tsWait := false }) s)
  if s.tim.tsqEp then s
  else emit 0x720 e.stampId (wordOf e.port) (s.modTim fun t => { t with tsqEp := true })

/-- The words of a stamp ring entry (R222). -/
def tsqWords (pi : Word) (e : TsEnt) : List Word :=
  [wordOf (tagOf 7 pi + e.stampId.toNat * 65536), wordOf (e.stamp.ns * 4 + e.stamp.qns), wordOf (e.stamp.sec % 4294967296),
   wordOf (e.stamp.sec / 4294967296 + e.port * 65536)]

/-- A stamp is written at the ring's PI; the episode of lost stamps ends (R223, R224). -/
def writeStamp (e : TsEnt) (s : State) : State :=
  let pi := s.tim.tsqPi
  let s := fabWrite (.tsq e.src.1 e.src.2) (regAddr s 0x70028 + pi.toNat % 128 * 16) 16 (tsqWords pi e) s
  addCtr (timCtr 0) 1 (s.modTim fun t =>
    { t with tsqPi := pi + 1, tsqUnrep := t.tsqUnrep + 1, tsqEp := false,
             tsqIdx := if 16 ≤ t.tsqUnrep + 1 || t.tsqHold.isEmpty then some (t.tsqIdx.getD (pi + 1)) else t.tsqIdx })

/-- A captured stamp reaches the ring, the hold, or is lost (R224). -/
def stampOut (e : TsEnt) (s : State) : State :=
  let t := s.tim
  if !t.tsqEn || t.tsqStopped then loseStamp e s
  else if t.tsqHold.isEmpty && decide (gap t.tsqPi t.tsqCi < 128) then writeStamp e s
  else if t.tsqHold.length < 16 then s.modTim fun t => { t with tsqHold := t.tsqHold ++ [e] }
  else loseStamp e s

/-! Cells (R105, R106). -/

/-- Cells that a downstream frame of a port takes from the pool; none when the port cannot take it now. -/
def dsTake (s : State) (p n : Nat) : Option Nat :=
  let P := getPort s p
  let spare := if P.enabled then 1024 - (P.dsCells - P.dsPool) else 0
  let fromPool := n - min n spare
  if 8192 < P.dsCells + n then none
  else if fromPool = 0 then some 0
  else if fromPool + 32768 ≤ poolFree s then some fromPool else none

/-- The frame's length, padding and FCS included (R79). -/
def txFrameLen (t : Tx) : Nat := max 60 t.len + 4

/-- The payload's segments (R77, R78). -/
def txSegs (t : Tx) : List (Nat × Nat) := if txIndirect t.ws then t.segs else [(txAddr t.ws, txSegLen t.ws)]

/-- The first waiting descriptor whose port can take its cells (R106). -/
def cellTaker (s : State) : Option (Nat × Word) :=
  s.hif.cellWait.find? fun e => match findTx s e.1 e.2 with
    | some t => t.stage = .cells && (dsTake s t.port (cellsOf (txFrameLen t))).isSome
    | none => false

/-- A descriptor that passed step 5 takes all its cells and its payload read goes out, when it is the first of those waiting
that can take them (R106). -/
def tryReserve (q : Nat) (idx : Word) (s : State) : State :=
  match (if cellTaker s = some (q, idx) then findTx s q idx else none) with
  | none => s
  | some t =>
    let n := cellsOf (txFrameLen t)
    match dsTake s t.port n with
    | none => s
    | some pool =>
      let banks := placeCells s n
      let s := modPort t.port (fun P => { P with dsCells := P.dsCells + n, dsPool := P.dsPool + pool }) (wakeBanks banks s)
      let s := modTx q idx (fun t => { t with stage := .reading, cells := n, poolCells := pool, banks := banks }) s
      let s := s.modHif fun h => { h with cellWait := h.cellWait.filter fun e => e ≠ (q, idx) }
      issueReads (.payload q idx) ((txSegs t).flatMap fun g => readPieces g.1 g.2) s

/-- The tree's descriptors park (R267, R271, R273). -/
def treeFrozen (s : State) (t : Nat) : Bool :=
  let r := getProt s t
  decide (r.phase = 1 ∨ r.phase = 3 ∨ r.phase = 4 ∨ r.phase = 7 ∨ (r.phase = 2 ∧ r.equalised = false))

/-- Park slots in use (R82). -/
def parkUsed (s : State) : Nat := (s.hif.tx.filter fun t => t.hasPark).length

/-- A descriptor parks, when a slot is free; else it stays in the descriptor cache (R82). -/
def park (q : Nat) (idx : Word) (s : State) : State :=
  match findTx s q idx with
  | none => s
  | some t =>
    if t.stage = .parked then s
    else if t.hasPark || decide (parkUsed s < 4096) then modTx q idx (fun t => { t with stage := .parked, hasPark := true }) s
    else modTx q idx (fun t => { t with stage := .cached }) s

/-- A descriptor parks for its page, or for a tree that hands nothing downstream: each is counted once (R210, R267). -/
def parkFor (page : Bool) (q : Nat) (idx : Word) (s : State) : State :=
  let s := park q idx s
  match findTx s q idx with
  | none => s
  | some t =>
    if t.stage ≠ .parked || (if page then t.pageSeen else t.protSeen) then s
    else addCtr (if page then pgrCtr 8 else protCtr 7) 1
      (modTx q idx (fun t => { t with pageSeen := t.pageSeen || page, protSeen := t.protSeen || !page }) s)

/-- A waiting descriptor's launch time still lies ahead (R80). -/
def launchAhead (s : State) (t : Tx) : Bool :=
  txLaunch t.ws && !t.launched &&
    match launchDelta s t.ws with
    | some d => decide (d ≤ 1000000000 ∧ d ≠ 0)
    | none => false

/-- Step 5 of R77 and what follows it: length, home port (R79, R343), launch time, cells. DESIGN CHOICE: a home port that is armed
for MIGRATE_IN, of which R343 does not speak, lets the descriptor go on to its cells and its payload read. -/
def txStep5 (q : Nat) (idx : Word) (s : State) : State :=
  match findTx s q idx with
  | none => s
  | some t =>
    let P := getPort s t.port
    if bitsOf (reg s (0x10010 + t.port * 0x400)) 0 14 < txFrameLen t then txEnd q idx 3 14 (stat t.port 14 1 s)
    else if portState P = 0 then txEnd q idx 7 13 (stat t.port 13 1 s)
    else if launchAhead s t then modTx q idx (fun t => { t with stage := .launch }) s
    else
      let s := modTx q idx (fun t => { t with stage := .cells, launched := true, hasPark := false }) s
      tryReserve q idx (s.modHif fun h => { h with cellWait := h.cellWait ++ [(q, idx)] })

/-- Step 4 of R77: the context, the holds and the counter (R82, R204, R205, R267, R287); then step 5. -/
def txStep4 (q : Nat) (idx : Word) (s : State) : State :=
  match findTx s q idx with
  | none => s
  | some t =>
    let f := txFlow t.ws
    if !flowLive s f then txEnd q idx 0x0A 255 (raise 0x605 (wordOf f) (wordOf q) (addCtr (pgrCtr 16) 1 s))
    else if heldBoth s f then txEnd q idx 0x0A 255 s
    else if (getFlow s f).hNonce then txEnd q idx 0x0B 255 s
    else match served s f with
    | none =>
      let s := parkFor true q idx s
      match findTx s q idx with
      | some t => if t.stage = .parked then needPage f 3 (.desc f) 0 s else s
      | none => s
    | some i =>
      let c := (getSlot s i).ctx
      let p := homeOf s c.txPort
      let s := modTx q idx (fun t => { t with tree := c.txPort, port := p }) s
      if treeFrozen s c.txPort || portState (getPort s p) = 4 then parkFor false q idx s
      else if !c.clear && decide (nonceEnd ≤ c.nonce + (getFlow s f).p) then txEnd q idx 0x0B 255 (nonceHold f c s)
      else
        let s := modSlot i (fun x => { x with inUse := x.inUse + 1, ref := true }) s
        let s := if c.clear then s else modFlow f (fun x => { x with p := x.p + 1 }) s
        let s := modTx q idx (fun t =>
          { t with inUse := true, inP := !c.clear, mark := t.mark.map (Mark.at 3 (stampNow s)) }) s
        txStep5 q idx (if c.clear then s else nonceHold f c s)

/-- Not yet holding its cells, nor ended: later descriptors of its flow in its queue wait behind it (R106). -/
def TxStage.early (x : TxStage) : Bool :=
  x = .fetching || x = .listRead || x = .cached || x = .parked || x = .launch || x = .cells

/-- An earlier descriptor of the same flow in the same queue holds this one back (R11, R106). -/
def heldBack (s : State) (t : Tx) : Bool :=
  (s.hif.tx.takeWhile fun e => !isTx t.q t.idx e).any fun e => e.q = t.q && txFlow e.ws = txFlow t.ws && e.stage.early

/-- The episode of full park slots ends when 512 are free (R82). -/
def parkEpisode (s : State) : State :=
  if s.hif.parkEp && decide (parkUsed s ≤ 3584) then s.modHif fun h => { h with parkEp := false } else s

/-! Classified frames (R107, R127). -/

/-- A frame's bytes on the bus: payload, padding and FCS (R79, R104). -/
def framed (payload : List Byte) : List Byte :=
  let b := payload ++ List.replicate (60 - payload.length) 0
  b ++ wordBytes (wordOf (crc32 b))

/-- A classified frame enters its tree's priority queue (R107), unless its home cannot take it (R54, R57). -/
def enterQueue (t : Tx) (s : State) : State :=
  let p := homeOf s t.tree
  let P := getPort s p
  if portState P = 3 then txEnd t.q t.idx 7 13 (stat p 13 1 s)
  else if portState P = 0 then txEnd t.q t.idx 6 13 (stat p 13 1 s)
  else
    let c := match (getFlow s (txFlow t.ws)).slot with
      | some i => (getSlot s i).ctx
      | none => {}
    let s := reachPort p s
    let s := modTx t.q t.idx (fun t => { t with stage := .queued, mark := t.mark.map (Mark.at 4 (stampNow s)) }) s
    s.modTpt fun x =>
      { x with dsq := x.dsq ++ [{ tree := t.tree, prio := t.prio, src := some (t.q, t.idx), bytes := framed t.payload,
                                  term := c.txTerm }] }

/-- In its priority queue, or past it. -/
def TxStage.entered (x : TxStage) : Bool := x = .queued || x = .transfer || x = .stampWait || x.over

/-- Classified frames enter in ring order within one flow of one queue, no earlier than their launch times (R11, R80); a
duplicate is no frame and holds none back. -/
def enterReady (s : State) : State :=
  ((s.hif.tx.filter fun t => t.stage = .waitOrder).map fun t => (t.q, t.idx)).foldl (fun s e =>
    match findTx s e.1 e.2 with
    | none => s
    | some t =>
      let behind := (s.hif.tx.takeWhile fun x => !isTx t.q t.idx x).any fun x =>
        x.q = t.q && txFlow x.ws = txFlow t.ws && !x.dup && !x.stage.entered
      if t.stage = .waitOrder && t.launched && !behind then enterQueue t s else s) s

/-- Descriptors whose way is free go on: classified frames enter their queues, and those in the cache whose turn at step 4 has
come take it, in order (R11, R82, R106). -/
def settleTx (s : State) : State :=
  let s := enterReady s
  parkEpisode <| ((s.hif.tx.filter fun t => t.stage = .cached).map fun t => (t.q, t.idx)).foldl (fun s e =>
    match findTx s e.1 e.2 with
    | some t => if t.stage = .cached && !heldBack s t then txStep4 e.1 e.2 s else s
    | none => s) s

/-- A descriptor ends, and those behind it go on. -/
def txDone (q : Nat) (idx : Word) (st fate : Nat) (s : State) : State := settleTx (txEnd q idx st fate s)

/-- Parked descriptors that a test picks resume at step 4, in order (R82). -/
def resumeParked (p : Tx → Bool) (s : State) : State :=
  settleTx (((s.hif.tx.filter fun t => t.stage = .parked && p t).map fun t => (t.q, t.idx)).foldl (fun s e => txStep4 e.1 e.2 s) s)

/-- Every frame of a tree's priority queues ends with a status, counted for its port (R54, R57). -/
def flushQueues (t st : Nat) (s : State) : State :=
  let p := homeOf s t
  let mine := s.tpt.dsq.filter fun d => d.tree = t
  let s := s.modTpt fun x => { x with dsq := x.dsq.filter fun d => d.tree ≠ t }
  settleTx (mine.foldl (fun s d =>
    match d.src with
    | some (q, idx) => txEnd q idx st 13 (stat p 13 1 s)
    | none => freeDs p d.cells d.poolCells (stat p 13 1 s)) s)

end Sys2Proof.Machine
end

