-- ==== Sys2Proof/Machine/Ranging.lean ====
section
/-! DEFINITION. The ranging unit: expected bursts (R164–R172), its control frames (R173), ranging slots (R174, R175) and
jump-ball windows (R177, R178). -/

namespace Sys2Proof.Machine

/-! Control frames (R173). -/

/-- The first 26 bytes of a control frame are `head`; the rest is zero and the FCS. -/
def ctrlBytes (s : State) (opcode : Nat) (body : List Byte) : List Byte :=
  framed ([0x01, 0x80, 0xC2, 0x00, 0x00, 0x01] ++ (wordBytes (reg s 0x50008) ++ wordBytes (reg s 0x5000C)).take 6 ++
    beBytes 2 0x8808 ++ beBytes 2 opcode ++ body)

/-- A control frame enters priority queue 7 of a tree, unless its port is disabled or in per-port reset (R173). -/
def sendCtrl (t term : Nat) (bytes : List Byte) (s : State) : State :=
  let p := homeOf s t
  let st := portState (getPort s p)
  if st = 0 ∨ st = 2 ∨ st = 5 then s
  else if st = 3 then stat p 13 1 s
  else
    let pool := (dsTake s p 1).getD 0
    let banks := placeCells s 1
    let s := wakeBanks banks (reachPort p s)
    let s := modPort p (fun P => { P with dsCells := P.dsCells + 1, dsPool := P.dsPool + pool }) s
    s.modTpt fun x =>
      { x with dsq := x.dsq ++ [{ tree := t, prio := 7, src := none, bytes := bytes, term := term, cells := 1, poolCells := pool,
                                  banks := banks }] }

/-- EQ_ADJUST carries a terminal's new equalisation delay (R172). DESIGN CHOICE: a value outside the field's 24 bits is sent
modulo 2^24. -/
def sendAdjust (h : Nat) (eqd : Int) (s : State) : State :=
  sendCtrl (h / 512) (h % 512) (ctrlBytes s 0x0D02 (beBytes 2 (h % 512) ++ beBytes 4 (eqd % 16777216).toNat)) s

/-- JB_ANNOUNCE carries a window and the back-off exponent (R177, R179). -/
def sendAnnounce (t cyc : Nat) (e : GEntry) (s : State) : State :=
  sendCtrl t 0x1FF (ctrlBytes s 0x0D03 (beBytes 2 0xFFFF ++ beBytes 4 (cyc % 4294967296) ++ beBytes 1 (getRTree s t).be ++
    beBytes 3 e.start ++ beBytes 3 e.len)) s

/-! Expectations (R164, R166). -/

/-- `RNG_CFG` (R185). -/
def rngCfg (s : State) : Word := reg s 0x50000
def losMisses (s : State) : Nat := bitsOf (rngCfg s) 0 4
def rangeTries (s : State) : Nat := bitsOf (rngCfg s) 4 3
def driftShift (s : State) : Nat := bitsOf (rngCfg s) 8 2
def alignLimit (s : State) : Nat := bitsOf (rngCfg s) 12 10
def driftLimit (s : State) : Nat := bitsOf (rngCfg s) 24 8

/-- EQD_a of R166, in 1/16 ns. -/
def eqdOf (s : State) (t : Nat) (r : TermRec) : Int :=
  if usePre s r.state then 16 * (teqdNs s t - rttMinNs s t) else r.eqd + 4 * r.autoAdj

/-- The expected burst of an entry of a cycle that started at `sc`. -/
def expOf (s : State) (t cyc : Nat) (sc : Int) (c : FramerConst) (e : GEntry) : Exp :=
  let r := getRec s (t * 512 + e.term)
  let eqd := eqdOf s t r
  let base := sc + posTime c (4 * e.start)
  { cycle := cyc, term := e.term, base := base, eqd := eqd, rtt := if r.rttValid then some r.rtt else none,
    e := base + eqd + (if r.rttValid then (r.rtt : Int) else 16 * teqdNs s t - eqd) }

/-- The span of an entry at the port, less `ALIGN_LIMIT` on either side (R302). -/
def spanOf (s : State) (t : Nat) (sc : Int) (c : FramerConst) (e : GEntry) : Int × Int :=
  (sc + 16 * teqdNs s t + posTime c (4 * e.start), sc + 16 * teqdNs s t + posTime c (4 * (e.start + e.len)))

/-- The span of a reservation of a cycle. -/
def slotOfEntry (s : State) (t cyc : Nat) (sc : Int) (c : FramerConst) (e : GEntry) : Slot :=
  { cycle := cyc, term := e.term, lo := sc + 16 * teqdNs s t + posTime c (4 * e.start),
    hi := sc + 16 * teqdNs s t + posTime c (4 * (e.start + e.len)),
    base := sc + posTime c (4 * e.start + leadBytes s t + constOh c), eqd := eqdOf s t (getRec s (t * 512 + e.term)) }

/-- A cycle comes into force with its entries: `SETTLE` falls, and the expectations are copied (R164, R170). The terminals not
to be offered a slot are now those whose slot waits to be judged (R174). -/
def expectCycle (t cyc : Nat) (sc : Int) (es : List GEntry) (s : State) : State :=
  let c := constsOf s (homeOf s t)
  let isBurst := fun e : GEntry => e.first && tracked s (getRec s (t * 512 + e.term)).state
  let exps := (es.filter isBurst).map (expOf s t cyc sc c)
  let slots := (es.filter fun e => e.kind = .slot).map (slotOfEntry s t cyc sc c)
  let wins := (es.filter fun e => e.kind = .window).map (slotOfEntry s t cyc sc c)
  let spans := es.map (spanOf s t sc c)
  let now := now16 s
  let s := s.modGnt fun g => { g with recs := (g.recs.map fun e =>
    if e.1 / 512 = t && !e.2.flagged then (e.1, { e.2 with settle := e.2.settle - 1 }) else e).filter fun e => e.2 ≠ {} }
  modRTree t (fun r => { r with exps := r.exps ++ exps, slots := r.slots ++ slots, wins := r.wins ++ wins,
                                spans := (r.spans.filter fun e => decide (now ≤ e.2 + us16 1)) ++ spans,
                                placed := (r.slots ++ slots).map Slot.term }) s

/-! Drift (R170–R172). -/

/-- `AUTO_ADJ`′ of R172 before clipping; `up` rounds a half up. -/
def adjOf (drift : Int) (up : Bool) : Int := if up then (-drift + 2) / 4 else (-drift + 1) / 4

/-- `DRIFT_OUT` clears when the alignment error falls below half the limit (R171). -/
def settleDrift (h : Nat) (s : State) : State :=
  let r := getRec s h
  if r.driftOut && decide ((r.drift + 4 * r.autoAdj).natAbs < 8 * driftLimit s) then modRec h (fun r => { r with driftOut := false }) s
  else s

/-- The correction of R172. -/
def reequalise (h : Nat) (s : State) : State :=
  let r := getRec s h
  let raw := adjOf r.drift (Config.tieUp s.freeCtr)
  let s := drawn s
  let adj := max (-64) (min 64 raw)
  if adj = r.autoAdj then s
  else
    let s := settleDrift h (modRec h (fun r => { r with autoAdj := adj, settle := 15 }) s)
    let s := sendAdjust h (r.eqd + 4 * adj) (addCtr (rngCtr (h / 512) 9) 1 s)
    if adj = raw then s else raise 0x515 (wordOf h) (wordOfInt adj) s

/-- EV_DRIFT_LIMIT with AUTO_REEQUALISE done at its detection (R171, R279). -/
def raiseDrift (h : Nat) (e : Int) (s : State) : State :=
  raise 0x514 (wordOf h) (wordOfInt e) (if pbReaction (pbEntry s 0x514) = 6 then reequalise h (reacted true s) else s)

/-- The alignment error of a terminal is looked at (R171). -/
def checkDrift (h : Nat) (s : State) : State :=
  let r := getRec s h
  let e := r.drift + 4 * r.autoAdj
  if 2 ^ driftShift s ≤ r.samples && decide (16 * driftLimit s < e.natAbs) && !r.driftOut then
    blockInput h 0xC none (raiseDrift h e (modRec h (fun r => { r with driftOut := true }) s))
  else settleDrift h s

/-- A drift sample is filtered (R170): `r` is the burst's round trip, `rtt` the one taken when its cycle came into force (R166).
DEDUCED: a cycle that came into force without a valid `RTT` gives no samples. -/
def sampleDrift (h : Nat) (r : Int) (rtt : Option Nat) (s : State) : State :=
  let x := getRec s h
  match rtt with
  | none => s
  | some rtt =>
  if !x.rttValid || x.settle ≠ 0 || x.flagged then s
  else
    let d := max (-32768) (min 32767 (r - rtt))
    let drift := if x.samples = 0 then d else x.drift + (d - x.drift) / (2 ^ driftShift s : Nat)
    checkDrift h (modRec h (fun x => { x with drift := max (-32768) (min 32767 drift), samples := min 15 (x.samples + 1) }) s)

/-! Bursts (R168, R169). -/

/-- An unexpected burst of a terminal on a port. -/
def unexpected (p t term : Nat) (s : State) : State :=
  raise 0x517 (wordOf (p * 512 + term)) 0 (addCtr (rngCtr t 3) 1 s)

/-- A matched burst: its return, its drift sample. -/
def matched (t : Nat) (x : Exp) (at' : Int) (s : State) : State :=
  let h := t * 512 + x.term
  let s := addCtr (rngCtr t 0) 1 (modRTree t (fun r => { r with exps := (dropFirst (fun y => y = x) r.exps) }) s)
  let s := if (getRec s h).miss = 0 then s else modRec h (fun r => { r with miss := 0 }) (blockInput h 0xB none s)
  sampleDrift h (at' - x.base - x.eqd) x.rtt s

/-- The expected burst nearest to an arrival among those of a list. -/
def nearest (at' : Int) : List Exp → Option Exp
  | [] => none
  | x :: r =>
    match nearest at' r with
    | none => some x
    | some y => if (at' - x.e).natAbs ≤ (at' - y.e).natAbs then some x else some y

/-- The first frame of a burst is classified (R168); the cycle of the expected burst that it matched. DESIGN CHOICE: at equal
distance the expected burst listed first matches, and `ARG1` of EV_BURST_MISALIGNED is told from the nearest unmatched one. -/
def burstIn (p t term : Nat) (at' : Int) (stamp : Word) (delim : BitVec 16) (s : State) : State × Option Nat :=
  let r := getRTree s t
  let h := t * 512 + term
  let inside := fun x : Slot => decide (x.lo ≤ at' ∧ at' < x.hi)
  if r.wins.any inside then
    let answer := fun w : Slot => { w with answers := w.answers + 1 }
    (addCtr (rngCtr t 7) 1 (modRTree t (fun r => { r with wins := updFirst inside answer r.wins }) s), none)
  else if (getRec s h).flagged then (unexpected p t term s, none)
  else if r.slots.any fun x => x.term = term && inside x then
    let first := fun w : Slot => { w with burst := w.burst.or (some (at', stamp, delim)) }
    (modRTree t (fun r => { r with slots := updFirst (fun x => x.term = term && inside x) first r.slots }) s, none)
  else
    let mine := r.exps.filter fun x => x.term = term
    match nearest at' (mine.filter fun x => (at' - x.e).natAbs ≤ 16 * alignLimit s) with
    | some x => (matched t x at' s, some x.cycle)
    | none =>
      match nearest at' mine with
      | some x =>
        (raise 0x516 (wordOf h) (wordOfInt (max (-2147483648) (min 2147483647 (at' - x.e)))) (addCtr (rngCtr t 2) 1 s), none)
      | none => (unexpected p t term s, none)

/-- The earliest of the bursts that a tree still expects. -/
def earliest : List Exp → Option Exp
  | [] => none
  | x :: r =>
    match earliest r with
    | none => some x
    | some y => if x.e ≤ y.e then some x else some y

/-- An expected burst is missed (R169). DESIGN CHOICE: a `LOS_MISSES` lowered below the `MISS` already reached applies no
BURST_LOS until `MISS` has been cleared and reaches it. -/
def burstMiss (t : Nat) (s : State) : State :=
  match earliest (getRTree s t).exps with
  | none => s
  | some x =>
    let h := t * 512 + x.term
    let s := addCtr (rngCtr t 1) 1 (modRTree t (fun r => { r with exps := (dropFirst (fun y => y = x) r.exps) }) s)
    let old := (getRec s h).miss
    if (getRec s h).flagged || old = 15 then s
    else
      let s := modRec h (fun r => { r with miss := old + 1 }) s
      if old + 1 = losMisses s then blockInput h 0xA none (raise 0x513 (wordOf h) (wordOf (old + 1)) s) else s

def execBurstMissed (t : Fin 64) (s : State) : Host.Outcome State Fault Refusal :=
  .next (whenRunning (burstMiss t) s)

/-! Judgement (R175, R178). -/

/-- A slot is judged. -/
def judgeSlot (t : Nat) (s : State) : State :=
  match (getRTree s t).slots with
  | [] => s
  | x :: rest =>
    let h := t * 512 + x.term
    let s := modRTree t (fun r => { r with slots := rest, placed := r.placed.filter fun k => k ≠ x.term }) s
    if (getRec s h).flagged || !(getRec s h).rangePend then
      if x.burst.isSome then unexpected (homeOf s t) t x.term s else s
    else
      let good := match x.burst with
        | some (at', stamp, delim) =>
          let r := at' - x.base - x.eqd
          if x.garbled = 0 ∧ 0 ≤ r ∧ r ≤ 16777215 then some ({ r := r.toNat, stamp := stamp, delim := delim } : Measure) else none
        | none => none
      match good with
      | some m => blockInput h 8 (some m) s
      | none =>
        let n := (getRec s h).tries + 1
        let s := addCtr (rngCtr t 5) 1 (modRec h (fun r => { r with tries := n % 8 }) s)
        if rangeTries s ≤ n then blockInput h 9 none (raise 0x512 (wordOf h) (wordOf n) s) else s

def execRangingSlotJudge (t : Fin 64) (s : State) : Host.Outcome State Fault Refusal :=
  .next (whenRunning (judgeSlot t) s)

/-- A jump-ball window is judged. -/
def judgeWindow (t : Nat) (s : State) : State :=
  match (getRTree s t).wins with
  | [] => s
  | x :: rest =>
    let be := (getRTree s t).be
    let be' := if 1 ≤ x.garbled then min (be + 1) (beMax s t) else if x.answers = 0 then be - 1 else be
    let s := modRTree t (fun r =>
      { r with wins := rest, be := be', lastAns := min 255 x.answers, lastCol := min 255 x.garbled }) s
    let s := addCtr (rngCtr t 6) 1 s
    if 1 ≤ x.garbled then
      raise 0x518 (wordOf (homeOf s t)) (wordOf (be' + min 255 x.garbled * 16)) (addCtr (rngCtr t 8) 1 s)
    else s

def execJbWindowJudge (t : Fin 64) (s : State) : Host.Outcome State Fault Refusal :=
  .next (whenRunning (judgeWindow t) s)

/-- A port's indications are read while it is enabled and not in per-port reset (R35, R56). -/
def reads (P : Port) : Bool := P.enabled && P.reset.isNone

/-- An indication reaches the core, or is dropped on its way (R35, R46). -/
def indication (i : Ind) (f : State → State) (s : State) : State :=
  if reads (getPort s i.p) then handshake i.lost 8 i.p f s else s

/-- A GARBLED pulse falls inside the slots and windows that its stamp lies in (R175, R178). -/
def garble (p sub : Nat) (s : State) : State :=
  match treeOn s p with
  | none => s
  | some t =>
    if !reads (getPort s p) then s
    else
      let at' := now16 s + sub
      let hit := fun x : Slot => if x.lo ≤ at' ∧ at' < x.hi then { x with garbled := x.garbled + 1 } else x
      modRTree t (fun r => { r with slots := r.slots.map hit, wins := r.wins.map hit }) s

def execGarbled (p : Ind) (sub : Fin 16) (s : State) : Host.Outcome State Fault Refusal :=
  .next (whenRunning (indication p (garble p.p sub)) s)

end Sys2Proof.Machine
end

