-- ==== Sys2Proof/Machine/Grant.lean ====
section
/-! DEFINITION. The grant engine's cycle (R34, R140, R141, R155, R159) and the report path (R147, R148). -/

namespace Sys2Proof.Machine

/-- The tree's next list is computed at all: its home carries traffic, it is not frozen, its cycles are counted and none
is skipped after a slip (R34, R56, R140, R265, R287). -/
def canGrant (s : State) (t : Nat) : Bool :=
  let P := getPort s (homeOf s t)
  let g := getGTree s t
  portUp P && !treeFrozen s t && g.counting && !P.cycLost && !g.skipNext

/-! The plan (R159, R198). -/

/-- The expected start of the tree's next cycle. -/
def nextStart (s : State) (t : Nat) : Int := ((getPort s (homeOf s t)).sPulse.getD 0) + cycle16

/-- The entries of a list, burst by burst. -/
def burstsOf : List GEntry → List (List GEntry)
  | [] => []
  | e :: r => match burstsOf r with
    | (x :: g) :: gs => if x.first then [e] :: (x :: g) :: gs else (e :: x :: g) :: gs
    | gs => [e] :: gs

/-- The prefetches of a burst's mapped flows: from the burst's expected arrival to its expected end. -/
def burstPrefetch (s : State) (t cyc : Nat) (b : List GEntry) : List Prefetch :=
  match b, b.getLast? with
  | h :: _, some l =>
    let c := constsOf s (homeOf s t)
    let x := expOf s t cyc (nextStart s t) c h
    let a1 := x.e + posTime c (4 * (l.start + l.len)) - posTime c (4 * h.start)
    (b.filterMap fun e => e.flow).map fun f => { flow := f, tree := t, cycle := cyc, a0 := x.e, a1 := a1 }
  | _, _ => []

/-- Each flow once a cycle, from its first burst's arrival to its last burst's end. -/
def mergePrefetch : List Prefetch → List Prefetch
  | [] => []
  | x :: r =>
    let rest := mergePrefetch r
    match rest.find? fun y => y.flow = x.flow with
    | none => x :: rest
    | some y => { x with a0 := min x.a0 y.a0, a1 := max x.a1 y.a1 } :: rest.filter fun y => y.flow ≠ x.flow

/-- `PGR_LEAD.LEAD_US` (R198, R209). -/
def leadUs (s : State) : Nat := bitsOf (reg s 0x60008) 0 10

/-- The prefetches of a plan that is published now, each with its issue time (R198). -/
def planPrefetch (s : State) (t cyc : Nat) (es : List GEntry) : List Prefetch :=
  let bursts := burstsOf (es.filter fun e => e.kind = .data || e.kind = .poll)
  (mergePrefetch (bursts.flatMap (burstPrefetch s t cyc))).map fun x =>
    { x with issue := max (x.a0 - us16 (leadUs s)) (now16 s) }

/-- A plan is withdrawn: its prefetches that are not issued go (R16, R198). -/
def withdraw (t cyc : Nat) (s : State) : State :=
  let mine := fun x : Prefetch => x.tree = t && x.cycle = cyc
  let n := (s.pgr.sched.filter mine).length
  let s := s.modPgr fun p => { p with sched := p.sched.filter fun x => !mine x }
  modGTree t (fun g => { g with planNext := [] }) (addCtr (pgrCtr 5) n s)

/-- The tree's home receives an empty list for its next cycle (R16, R34, R141). -/
def emptyList (t : Nat) (s : State) : State :=
  let cyc := ((getGTree s t).cycle + 1) % 4294967296
  addCtr (gntCtr t 1) 1 (modGTree t (fun g => { g with comp := none, published := false, standby := none, committed := true })
    (withdraw t cyc s))

/-- EV_GRANT_LATE (R141). -/
def grantLate (t cause : Nat) (s : State) : State :=
  raise 0x410 (wordOf (homeOf s t)) (wordOf (((getGTree s t).cycle + 1) % 65536 + cause * 65536)) s

/-! The computation's steps. -/

/-- GRANT_READ_POINT: the records are read as one set and the computation starts. -/
def readPoint (t : Nat) (s : State) : State :=
  let g := getGTree s t
  if !canGrant s t || g.comp.isSome || g.published || g.committed then s
  else
    let (c, deferred) := compute s t ((g.cycle + 1) % 4294967296)
    let s := perf 22 1 (modGTree t (fun g => { g with comp := some c }) (access 210 s))
    if deferred = 0 then s
    else raise 0x413 (wordOf (homeOf s t)) (wordOf deferred) (addCtr (gntCtr t 8) deferred s)

def execGrantReadPoint (t : Fin 64) (s : State) : Host.Outcome State Fault Refusal :=
  .next (whenRunning (readPoint t) s)

/-- PLAN_PUBLISH: the plan is out, its prefetches are scheduled, and the list goes to the standby page, at its list time
when that is still to come (R16, R159, R177, R198, R302). -/
def publish (t : Nat) (s : State) : State :=
  let g := getGTree s t
  match g.comp with
  | none => s
  | some c =>
    if g.published then s
    else
      let late := decide (nextStart s t - us16 45 ≤ now16 s)
      let pre := planPrefetch s t c.cycle c.entries
      let s := modGTree t (fun g =>
        { g with published := true, planNext := c.entries, standby := if late then some c else none }) s
      let s := s.modPgr fun p => { p with sched := p.sched ++ pre }
      match c.entries.find? fun e => e.kind = .window with
      | some e => sendAnnounce t c.cycle e s
      | none => s

def execPlanPublish (t : Fin 64) (s : State) : Host.Outcome State Fault Refusal :=
  .next (whenRunning (publish t) s)

/-- LIST_TIME: a list that was ready earlier is written to the framer (R302). -/
def listTime (t : Nat) (s : State) : State :=
  modGTree t (fun g =>
    if g.published && !g.committed && g.standby.isNone then { g with standby := g.comp } else g) s

def execListTime (t : Fin 64) (s : State) : Host.Outcome State Fault Refusal :=
  .next (whenRunning (listTime t) s)

/-- GRANT_COMPUTE_DEADLINE: a computation that has not ended is abandoned (R141). -/
def computeDeadline (t : Nat) (s : State) : State :=
  modGTree t (fun g => if g.published then g else { g with comp := none }) s

def execGrantComputeDeadline (t : Fin 64) (s : State) : Host.Outcome State Fault Refusal :=
  .next (whenRunning (computeDeadline t) s)

/-- What a list commits in one record (R145, R149, R155). -/
def commitRec (grants : List (Nat × Nat)) (term : Nat) (n : TermRec) (r : TermRec) : TermRec :=
  if r.flagged then r
  else if n.mode = 2 ∨ n.mode = 3 then
    { r with pollAge := n.pollAge, allocs := (List.range 4).map fun a =>
        let x := r.allocs.getD a {}
        let y := n.allocs.getD a {}
        let g := ((grants.find? fun e => e.1 = term * 4 + a).map fun e => e.2).getD 0
        { x with owed := y.owed, excess := y.excess, granted := sat 0xFFFF (x.granted + g) } }
  else
    { r with pollAge := 0, seqValid := false, allocs := r.allocs.map fun x =>
        { x with backlog := 0, granted := 0, owed := 0, excess := 0 } }

/-- The episodes of R155. -/
def commitEvents (t : Nat) (c : Comp) (s : State) : State :=
  let g := getGTree s t
  let p := wordOf (homeOf s t)
  let s := modGTree t (fun g => { g with guarEp := decide (c.guarShort ≠ 0), entryEp := decide (c.entryHits ≠ 0) }) s
  let s := if c.guarShort ≠ 0 ∧ g.guarEp = false then raise 0x411 p (wordOf c.guarShort) s else s
  if c.entryHits ≠ 0 ∧ g.entryEp = false then raise 0x412 p (wordOf (t * 512 + c.firstHit)) s else s

/-- The counters of a committed list (R163). -/
def commitCounts (t : Nat) (c : Comp) (s : State) : State :=
  [(if c.entries.isEmpty then 1 else 0, 1), (2, c.entries.length), (3, c.granted), (4, c.overhead), (5, c.reserved),
   (6, c.guarShort), (7, c.entryHits), (12, c.polls)].foldl (fun s e => addCtr (gntCtr t e.1) e.2 s) s

/-- A list's own GL_COMMIT (R141, R155, R174, R177). -/
def commitList (t : Nat) (c : Comp) (s : State) : State :=
  let s := c.recs.foldl (fun s e => modRec (t * 512 + e.1) (commitRec c.grants e.1 e.2) s) s
  let s := modGTree t (fun g =>
    { g with committed := true, rot := (g.rot + 1) % 512, excessPtr := c.excessPtr,
             ledger := ((c.cycle, c.grants) :: g.ledger).take 12 }) s
  let slots := (c.entries.filter fun e => e.kind = .slot).map GEntry.term
  let win := c.entries.any fun e => e.kind = .window
  let period := jbPeriod s t
  let s := modRTree t (fun r => { r with placed := r.placed ++ slots, jbAt := if win then (c.cycle + period) % 4294967296 else r.jbAt }) s
  commitEvents t c (commitCounts t c s)

/-- GL_COMMIT (R141): `poison` 1 is a parity error at the crossing (R46), 2 one on an internal bus (R293). -/
def glCommit (t poison : Nat) (s : State) : State :=
  let g := getGTree s t
  match g.standby with
  | none => s
  | some c =>
    if g.committed then s
    else if poison = 0 then commitList t c s
    else
      emptyList t (grantLate t 2 (parityError poison 2 (homeOf s t) s))

def execGlCommit (t : Fin 64) (poison : Fin 3) (s : State) : Host.Outcome State Fault Refusal :=
  .next (whenRunning (glCommit t poison) s)

/-- GRANT_LIST_DEADLINE: with no commit, an empty list; EV_GRANT_LATE unless an empty cycle is due anyway (R34). In a per-port
reset an empty list goes out before every cycle (R56). -/
def listDeadline (t : Nat) (s : State) : State :=
  let g := getGTree s t
  let P := getPort s (homeOf s t)
  if P.reset.isSome then emptyList t s
  else if g.committed || !(P.enabled || P.armed.isSome) || P.cycLost then s
  else emptyList t (if canGrant s t then grantLate t (if g.published then 1 else 0) s else s)

def execGrantListDeadline (t : Fin 64) (s : State) : Host.Outcome State Fault Refusal :=
  .next (whenRunning (listDeadline t) s)

/-! The cycle itself (R34, R140, R164). -/

/-- The tree's next cycle comes into force at a pulse's stamp. -/
def nextCycle (t : Nat) (at' : Int) (slip : Bool) (s : State) : State :=
  let g := getGTree s t
  let cyc := if g.counting then (g.cycle + 1) % 4294967296 else 0
  let es := match g.standby with
    | some c => if g.committed then c.entries else []
    | none => []
  let s := if g.committed then s else addCtr (gntCtr t 1) 1 (withdraw t cyc s)
  let s := modGTree t (fun g =>
    { g with cycle := cyc, counting := true, skipNext := slip, lastEmpty := es.isEmpty, comp := none, published := false,
             planAct := es, planNext := [], standby := none, committed := false, actList := es }) s
  let live := !treeFrozen s t && !(getPort s (homeOf s t)).held
  expectCycle t cyc at' (if live then es else []) s

/-- A port's cycle pulses count while it is enabled or armed, and not in per-port reset (R35, R56, R272). -/
def hears (P : Port) : Bool := reads P || P.armed.isSome

/-- CYCLE_START. -/
def cycleStart (p sub : Nat) (s : State) : State :=
  let P := getPort s p
  if !hears P then s
  else
    let at' := now16 s + sub
    let d := match P.sPulse with
      | some x => if P.cycLost then 0 else at' - (x + cycle16)
      | none => 0
    let slip := decide (32000 < d.natAbs)
    let s := modPort p (fun P => { P with sPulse := some at', cycLost := false }) s
    let s := if slip then raise 0x211 (wordOf p) (wordOfInt (d / 16)) s else s
    match treeOn s p with
    | none => s
    | some t => nextCycle t at' slip s

def execCycleStart (p : Ind) (sub : Fin 16) (s : State) : Host.Outcome State Fault Refusal :=
  .next (whenRunning (if hears (getPort s p.p) then handshake p.lost 8 p.p (cycleStart p.p sub) else id) s)

/-- CYCLE_LOST. -/
def cycleLost (p : Nat) (s : State) : State :=
  let P := getPort s p
  if !reads P || P.cycLost then s else raise 0x212 (wordOf p) 0 (modPort p (fun P => { P with cycLost := true }) s)

def execCycleLost (p : Fin 64) (s : State) : Host.Outcome State Fault Refusal :=
  .next (whenRunning (cycleLost p) s)

/-- PORT_ENABLE and PORT_RESTART restart a tree's cycle numbers, rotation, ledger and windows (R140, R148, R154, R178).
Bursts still expected keep being missed (R169); their cycles, and those of reports in the packet buffer (R55), are named by a
number that no ledger holds. The episodes of R155 go on. -/
def restartTree (t : Nat) (s : State) : State :=
  let old := fun c : Option Nat => c.map fun _ => 4294967296
  let s := (modGTree t (fun g => { lastEmpty := g.lastEmpty, guarEp := g.guarEp, entryEp := g.entryEp }) s)
  let s := s.modTpt fun x => { x with us := x.us.map fun u => if u.tree = t then { u with cycle := old u.cycle } else u }
  modRTree t (fun r =>
    { r with exps := r.exps.map fun x => { x with cycle := 4294967296 }, placed := r.slots.map Slot.term, be := 0, jbAt := jbPeriod s t }) s

/-! Backlog reports (R147, R148). -/

/-- The grant of an allocation in a ledger's cycle. -/
def ledgerGrant (e : Nat × List (Nat × Nat)) (key : Nat) : Nat := ((e.2.find? fun x => x.1 = key).map fun x => x.2).getD 0

/-- `GRANTED_SINCE` at a report of cycle c: the grants of c and of every later committed cycle. -/
def grantedSince (g : GTree) (c key : Nat) : Nat :=
  sat 0xFFFF ((g.ledger.takeWhile fun e => e.1 ≠ c).foldl (fun a e => a + ledgerGrant e key)
    (((g.ledger.find? fun e => e.1 = c).map fun e => ledgerGrant e key).getD 0))

/-- A consumed report meets the record that its burst names: `kept` is the frame less its FCS. -/
def applyReport (t term : Nat) (kept : List Byte) (cyc : Option Nat) (s : State) : State :=
  let h := t * 512 + term
  let r := getRec s h
  let b := fun i => (kept.getD i 0).toNat
  let ok := decide (kept.length = 60 ∧ b 14 = 0x0D ∧ b 15 = 0x01) && (r.mode = 2 || r.mode = 3) && !r.flagged
  match cyc with
  | none => addCtr (gntCtr t 11) 1 s
  | some c =>
    if !ok then addCtr (gntCtr t 11) 1 s
    else
      let d := (b 16 + 256 - r.lastSeq) % 256
      let g := getGTree s t
      if (r.seqValid && !decide (1 ≤ d ∧ d ≤ 127)) || !(g.ledger.any fun e => e.1 = c) then addCtr (gntCtr t 10) 1 s
      else
        let present := fun a => decide (b 17 / 2 ^ a % 2 = 1)
        addCtr (gntCtr t 9) 1 (modRec h (fun r =>
          { r with reportCycle := c % 256, lastSeq := b 16, seqValid := true, allocs := (List.range 4).map fun a =>
              let x := r.allocs.getD a {}
              if present a then
                { x with backlog := b (18 + 2 * a) * 256 + b (19 + 2 * a), granted := grantedSince g c (term * 4 + a) }
              else x }) s)

end Sys2Proof.Machine
end

