-- ==== Sys2Proof/Machine/Handoff.lean ====
section
/-! DEFINITION. The downstream frame bus: hand-off (R31, R107, R205), the end of a frame (R54, R107), and the flushes of a
port (R54, R57). -/

namespace Sys2Proof.Machine

/-- The frame that a port hands off next: strict priority, 7 first, then order of entry (R107). -/
def pickPrio (l : List DsItem) : Nat → Option DsItem
  | 0 => l.find? fun d => d.prio = 0
  | n + 1 => match l.find? fun d => d.prio = n + 1 with
    | some d => some d
    | none => pickPrio l n

def nextDown (s : State) (t : Nat) : Option DsItem := pickPrio (s.tpt.dsq.filter fun d => d.tree = t) 7

/-- A port may hand a frame of its tree off now (R54, R57, R60, R265, R287). -/
def handable (s : State) (p t : Nat) : Bool :=
  portUp (getPort s p) && (getPort s p).xfer.isNone && !treeFrozen s t
    && decide ((getDom s p).depth = 0) && (getDom s p).entering.isNone

/-- The counter value and the transmit counters of a handed-off frame; its hold on its slot ends (R31, R188, R194, R205). -/
def takeNonce (t : Tx) (len : Nat) (s : State) : State :=
  let f := txFlow t.ws
  match (getFlow s f).slot with
  | none => s
  | some i =>
    let c := (getSlot s i).ctx
    let s := changeCtx i (fun c => { c with nonce := if c.clear then c.nonce else c.nonce + 1,
                                            txFrames := (c.txFrames + 1) % 281474976710656,
                                            txBytes := (c.txBytes + len) % 281474976710656 }) s
    let s := releaseCtx t s
    if !c.clear && decide (c.nonce + 1 = nonceEnd - 1048575) && !(getFlow s f).nearDone then
      raise 0x601 (wordOf f) (wordOf c.keyIndex) (modFlow f (fun x => { x with nearDone := true }) s)
    else s

/-- A descriptor's frame crosses the port boundary: its stamps (R32, R77, R217, R221). -/
def stampTx (t : Tx) (p sub : Nat) (s : State) : State :=
  let now := captured s sub (reg s (0x10060 + p * 0x400)).toInt
  let req := txStampReq t.ws
  let s := modTx t.q t.idx (fun t =>
    { t with stage := .transfer, stamp := some (shortStamp now), inUse := false, inP := false, tsWait := req,
             mark := t.mark.map fun m => (m.at 5 (stampNow s)).at 6 (shortStamp (captured s sub 0)) }) s
  if req then
    stampOut { src := (t.q, t.idx), stampId := wordOf (txStampId t.ws), stamp := fullStamp now, port := p } s
  else s

/-- The context that a queued frame's slot holds for it (R194). -/
def itemCtx (s : State) (q : Nat) (idx : Word) : Ctx :=
  match findTx s q idx with
  | none => { clear := true }
  | some t => match slotOfFlow s (txFlow t.ws) with
    | some i => (getSlot s i).ctx
    | none => { clear := true }

/-- A queued frame whose context was lost to an error while it waited: its flow is held for CHECK (R204). -/
def ctxLost (s : State) (d : DsItem) : Bool :=
  match d.src with
  | some (q, idx) => match findTx s q idx with
    | some t => (slotOfFlow s (txFlow t.ws)).isNone
    | none => false
  | none => false

/-- Bytes of a beat of the downstream bus (R31, R44). -/
def beatBytes : Nat := 64

/-- FRAME_HANDOFF. -/
def handOff (p sub : Nat) (poison : Fin 3) (s : State) : State :=
  match treeOn s p with
  | none => s
  | some t =>
    match (if handable s p t then nextDown s t else none) with
    | none => s
    | some d =>
      let s := s.modTpt fun x => { x with dsq := dropFirst (fun e => e = d) x.dsq }
      if ctxLost s d then
        match d.src with
        | some (q, idx) => txDone q idx 0x0A 255 s
        | none => s
      else if poison = 2 then
        let s := stat p 13 1 (busParity s)
        match d.src with
        | some (q, idx) => txDone q idx 7 13 s
        | none => freeDs p d.cells d.poolCells s
      else
        let len := d.bytes.length
        let c := match d.src with
          | some (q, idx) => itemCtx s q idx
          | none => { clear := true }
        let now := captured s sub (reg s (0x10060 + p * 0x400)).toInt
        let s := stat p (5 + sizeBucket len) 1 (perf (257 + 4 * p) 1 (perf (256 + 4 * p) (min beatBytes len) s))
        let x : Xfer := { item := d, nonce := if c.clear then 0 else c.nonce, keyIdx := if c.clear then 0 else c.keyIndex,
                          clear := c.clear, stamp := shortStamp now, poisoned := decide (poison = 1) }
        let s := modPort p (fun P => { P with xfer := some x }) s
        let s := match d.src with
          | some (q, idx) => match findTx s q idx with
            | some t => takeNonce t len (stampTx t p sub s)
            | none => s
          | none => s
        parityError poison 0 p s

def execFrameHandoff (p : Fin 64) (sub : Fin 16) (poison : Fin 3) (s : State) : Host.Outcome State Fault Refusal :=
  .next (whenRunning (handOff p sub poison) s)

/-- The bytes of a frame that ends before its time: those sent, and the inverse of their correct FCS (R54). -/
def cutBytes (bs : List Byte) (sent : Nat) : List Byte :=
  let part := bs.take (max (min beatBytes (bs.length - 4)) (min sent (bs.length - 4)))
  part ++ wordBytes (~~~ wordOf (crc32 part))

/-- A frame has left a port, with `out` its last bytes and `n` the bytes that transferred: its cells return, it is counted, and its
completion becomes ready once its stamp entry is acknowledged (R24, R54, R107, R117, R312). -/
def downOver (p : Nat) (x : Xfer) (bad : Bool) (out : List Byte) (n : Nat) (s : State) : State :=
    let s := modPort p (fun P => { P with xfer := none, lastOut := out }) s
    let d := x.item
    let s := perf (256 + 4 * p) (n - min beatBytes d.bytes.length) s
    let s := if bad then stat p 12 1 s
      else
        let s := stat p 1 d.bytes.length (stat p 0 1 s)
        if isBroadcast d.bytes then stat p 3 1 s else if isMulticast d.bytes then stat p 2 1 s else s
    match d.src with
    | none =>
      let s := freeDs p d.cells d.poolCells s
      if bad then s else addCtr (rngCtr d.tree 10) 1 s
    | some (q, idx) =>
      match findTx s q idx with
      | none => s
      | some t =>
        let st := if bad then 0x0F else 0
        if t.tsWait then
          modTx q idx (fun t => { t with stage := .stampWait, status := st, cells := 0, poolCells := 0 })
            (freeDs t.port t.cells t.poolCells s)
        else txDone q idx st (if bad then 12 else 0) s

/-- A frame's last beat transfers: the whole frame, or its cut end after `sent` bytes. -/
def downEnd (p : Nat) (cut : Bool) (sent : Nat) (s : State) : State :=
  match (getPort s p).xfer with
  | none => s
  | some x =>
    let bad := cut || x.poisoned || x.truncated
    let out := if bad then cutBytes x.item.bytes sent else x.item.bytes
    downOver p x bad out out.length s

/-- A frame is cut short where its command does not say how much of it had crossed. -/
def downCut (p : Nat) (s : State) : State := downEnd p true (Config.sentBytes s.freeCtr).toNat (drawn s)

/-- A frame is lost with its port's clock: no last beat follows (R57). -/
def downLost (p : Nat) (s : State) : State :=
  match (getPort s p).xfer with
  | none => s
  | some x =>
    downOver p x true (getPort s p).lastOut (min (Config.sentBytes s.freeCtr).toNat x.item.bytes.length) (drawn s)

def execDsFrameEnd (p : BeatEnd) (s : State) : Host.Outcome State Fault Refusal :=
  .next (whenLive (downEnd p.p false p.sent) s)

/-- A transmit stamp entry is acknowledged, or was lost: a descriptor that waited for it ends (R24, R224). -/
def stampDone (q : Nat) (idx : Word) (s : State) : State :=
  match findTx s q idx with
  | none => s
  | some t =>
    if t.stage = .stampWait then txDone q idx t.status (if t.status = 0 then 0 else 12) (modTx q idx (fun t => { t with tsWait := false }) s)
    else modTx q idx (fun t => { t with tsWait := false }) s

/-- Descriptors that wait for a stamp whose entry will not be written end now (R224). -/
def settleStamps (s : State) : State :=
  ((s.hif.tx.filter fun t => t.stage = .stampWait && !t.tsWait).map fun t => (t.q, t.idx)).foldl (fun s e => stampDone e.1 e.2 s) s

end Sys2Proof.Machine
end

