-- ==== Sys2Proof/Machine/Classify.lean ====
section
/-! DEFINITION. The classifier's tables and its parse engine: parse steps (R124–R126), exact-match entries (R130, R131),
ternary rules (R132), keyed hashing and indirection (R134, R135). -/

namespace Sys2Proof.Machine

/-! Parse steps (R124). -/

/-- Bits of a parse step. -/
def stBits (w : BitVec 64) (lo n : Nat) : Nat := w.toNat / 2 ^ lo % 2 ^ n
def stBit (w : BitVec 64) (i : Nat) : Bool := stBits w i 1 = 1
def stOp (w : BitVec 64) : Nat := stBits w 58 6
def stNext (w : BitVec 64) : Nat := stBits w 46 12

/-- The bits below `OP` and `NEXT` that an opcode leaves reserved are 0, and every field is in range (R124, R125). -/
def stepOk (w : BitVec 64) : Bool :=
  match stOp w with
  | 0x00 => decide (stNext w = 0 ∧ stBits w 0 37 = 0)
  | 0x01 => decide (stBits w 0 14 = 0)
  | 0x02 => decide (stBits w 0 15 = 0)
  | 0x03 => decide (stBits w 0 33 = 0)
  | 0x05 => decide (stBits w 0 30 = 0 ∧ stBits w 37 9 ≤ 256)
  | 0x06 => decide (stBits w 0 21 = 0 ∧ stBits w 37 3 ≠ 7)
  | 0x07 => decide (stBits w 0 28 = 0 ∧ stBits w 40 6 + stBits w 28 4 ≤ 63)
  | 0x08 => decide (stBits w 0 37 = 0 ∧ stBits w 40 6 ≤ 62)
  | 0x09 => decide (stBits w 0 24 = 0 ∧ stBits w 40 6 ≤ 62)
  | 0x0A => decide (stBits w 0 32 = 0 ∧ stBits w 40 6 ≤ 44)
  | 0x0B => decide (stBits w 0 28 = 0 ∧ 1 ≤ stBits w 34 6 ∧ stBits w 34 6 ≤ 36 ∧ stBits w 40 6 + stBits w 34 6 ≤ 64)
  | 0x0C =>
    decide (stBits w 0 25 = 0) &&
      (let v := stBits w 25 18
       match stBits w 43 3 with
       | 0 => decide (v < 64)
       | 1 => decide (v < 3)
       | 2 => decide (v < 8)
       | 3 => decide (v < 1024)
       | 4 => true
       | 5 => decide (v < 2)
       | _ => false)
  | _ => false

/-! What an engine holds for a frame (R122). -/

/-- The results of classification. `path` is the cluster port that a `KIND` 0b10 table writes. -/
structure PRes where
  flow : Nat := 0
  hasFlow : Bool := false
  cls : Nat := 0
  colour : Nat := 0
  prio : Nat := 0
  ring : Nat := 0
  report : Bool := false
  path : Option Nat := none
  deriving DecidableEq, Repr

/-- The frame as an engine sees it: direction, window (R123) and start results. -/
structure PFrame where
  up : Bool
  win : List Byte
  start : PRes
  deriving DecidableEq, Repr

structure PEng where
  c : Nat := 0
  g : List Nat
  kb : List Byte := List.replicate 64 0
  oob : Bool := false
  hit : Bool := false
  res : PRes
  steps : Nat := 0
  looks : Nat := 0
  hits : Nat := 0
  hashes : Nat := 0
  deriving DecidableEq, Repr

/-- How a frame's program ended: `exc` is the exception's step and cause (R126); `bad` a step with a double-bit error
(R291). -/
structure POut where
  res : PRes
  steps : Nat
  looks : Nat
  hits : Nat
  tern : Bool := false
  ternHit : Bool := false
  exc : Option (Nat × Nat) := none
  bad : Bool := false
  deriving DecidableEq, Repr

/-- A flagged item of a store (R291). -/
def itemBad (s : State) (store item : Nat) : Bool := s.cls.badItems.contains (store, item)

def gReg (e : PEng) (k : Nat) : Nat := e.g.getD k 0
def gSet (k v : Nat) (e : PEng) : PEng := { e with g := e.g.set k (v % 65536) }

/-- A byte of the window; outside it 0, and OOB (R123). -/
def winGet (f : PFrame) (i : Nat) : Nat := (f.win.getD i 0).toNat
def winOut (f : PFrame) (i n : Nat) : Bool := decide (f.win.length < i + n)

/-- Bytes written into the key buffer. -/
def kbPut (ofs : Nat) (bs : List Byte) (e : PEng) : PEng :=
  { e with kb := e.kb.take ofs ++ bs ++ e.kb.drop (ofs + bs.length) }

def twoBytes (v : Nat) : List Byte := [BitVec.ofNat 8 (v / 256), BitVec.ofNat 8 (v % 256)]

/-- A write to a result, unless the direction ignores it (R127). `FIELD` is coded as SET codes it. -/
def resWrite (up : Bool) (field v : Nat) (r : PRes) : PRes :=
  match field with
  | 0 => { r with cls := v % 64 }
  | 1 => { r with colour := v % 4 }
  | 2 => if up then r else { r with prio := v % 8 }
  | 3 => if up then { r with ring := v % 1024 } else r
  | 4 => if up then { r with flow := v % 262144, hasFlow := true } else r
  | 5 => if up then { r with report := decide (v % 2 = 1) } else r
  | _ => r

/-- A write whose `SET_` bit decides. -/
def resIf (on : Bool) (up : Bool) (field v : Nat) (r : PRes) : PRes := if on then resWrite up field v r else r

/-! The exact-match table (R130, R131). -/

/-- h of R131. -/
def emHash (prof : Nat) (key : List Byte) : Nat := crc32c (BitVec.ofNat 8 prof :: key)

/-- The bucket of a key, over all banks. -/
def emBucket (prof : Nat) (key : List Byte) : Nat := emHash prof key % 16 * 1536 + emHash prof key / 16 % 1536

def emIs (prof : Nat) (key : List Byte) (e : EmEnt) : Bool := e.prof = prof && e.key = key

/-- The entry that a lookup hits; a flagged one misses (R291). -/
def emFind (s : State) (prof : Nat) (key : List Byte) : Option EmEnt :=
  s.cls.em.find? fun e => emIs prof key e && !e.bad

/-- Entries in a bucket. -/
def emUsed (s : State) (b : Nat) : Nat := (s.cls.em.filter fun e => emBucket e.prof e.key = b).length

/-- An entry's action (R130). -/
def emApply (up : Bool) (e : EmEnt) (r : PRes) : PRes :=
  let a := e.act0
  let b := e.act1
  resIf (bitOf b 14) up 3 (bitsOf b 4 10) (resIf (bitOf b 3) up 2 (bitsOf b 0 3) (resIf (bitOf a 28) up 1 (bitsOf a 26 2)
    (resIf (bitOf a 25) up 0 (bitsOf a 19 6) (resIf (bitOf a 18) up 4 (bitsOf a 0 18) r))))

/-! Ternary rules (R132). -/

/-- A valid rule of 24 words matches a profile and the key buffer's first 32 bytes. -/
def ternMatch (ws : List Word) (prof : Nat) (kb : List Byte) : Bool :=
  bitOf (wAt ws 0) 0 &&
  decide (Nat.land (Nat.xor prof (bitsOf (wAt ws 1) 0 8)) (bitsOf (wAt ws 1) 8 8) = 0) &&
  ((List.range 8).all fun i =>
    decide (((wordOf (leNat ((kb.drop (4 * i)).take 4))) ^^^ wAt ws (4 + i)) &&& wAt ws (12 + i) = 0))

/-- The lowest-numbered rule of the active page that matches; a flagged one acts as not valid (R291). -/
def ternFind (s : State) (prof : Nat) (kb : List Byte) : Option (List Word) :=
  (s.cls.ternA.find? fun e => ternMatch e.2 prof kb && !itemBad s 6 e.1).map fun e => e.2

/-- A rule's `SET_` fields. -/
def ternApply (up : Bool) (ws : List Word) (r : PRes) : PRes :=
  let a := wAt ws 20
  resIf (bitOf a 24) up 3 (bitsOf a 14 10) (resIf (bitOf a 13) up 2 (bitsOf a 10 3) (resIf (bitOf a 9) up 1 (bitsOf a 7 2)
    (resIf (bitOf a 6) up 0 (bitsOf a 0 6) r)))

/-- No reserved bit of a rule is set, and its colour is one of three (R133). -/
def ternOk (ws : List Word) : Bool :=
  decide (bitsOf (wAt ws 0) 1 31 = 0 ∧ bitsOf (wAt ws 1) 16 16 = 0 ∧ wAt ws 2 = 0 ∧ wAt ws 3 = 0 ∧ bitsOf (wAt ws 20) 7 2 ≠ 3
    ∧ bitsOf (wAt ws 20) 25 7 = 0 ∧ wAt ws 21 = 0 ∧ wAt ws 22 = 0 ∧ wAt ws 23 = 0)

/-! Hashing and indirection (R134, R135). -/

/-- Bytes as one number, the first byte's most significant bit on top. -/
def toeplitz (key : Nat) : Nat → List Byte → Nat
  | _, [] => 0
  | i, b :: r =>
    Nat.xor ((List.range 8).foldl (fun a j =>
      if b.toNat / 2 ^ (7 - j) % 2 = 1 then Nat.xor a (key / 2 ^ (288 - (8 * i + j)) % 4294967296) else a) 0)
      (toeplitz key (i + 1) r)

/-- The 40 bytes of a hash key, as one big-endian number (R139). -/
def hashKey (s : State) (k : Nat) : Nat :=
  beNat (wordsBytes ((List.range 10).map fun m => reg s (0x30600 + k * 0x40 + m * 4)))

/-- The indirection entry that a HASH step finds in force: the table's kind and the value. -/
def indFind (s : State) (t : Nat) (input : List Byte) : Option (Nat × Nat) :=
  let ctl := reg s (0x30400 + t * 4)
  let k := bitsOf ctl 0 4
  let i := t * 512 + toeplitz (hashKey s k) 0 input % 512
  let e := tget s.cls.ind i 0
  if bitOf ctl 31 && bitOf e 31 && !itemBad s 9 k && !itemBad s 9 (16 + i) then some (bitsOf ctl 4 2, bitsOf e 0 10) else none

/-- The result that a table's kind names, for the direction that it applies to (R135). -/
def indApply (up : Bool) (kind v : Nat) (r : PRes) : PRes :=
  match kind with
  | 0 => resWrite up 3 v r
  | 1 => resWrite up 2 v r
  | 2 => { r with path := some (v % 4) }
  | _ => r

/-! The engine. -/

/-- One step that is not END: the next step's index and the engine after it (R124). -/
def parseStep (s : State) (f : PFrame) (w : BitVec 64) (e : PEng) : Nat × PEng :=
  let nx := stNext w
  match stOp w with
  | 0x01 =>
    let at' := e.c + stBits w 35 8
    let wide := stBit w 34
    let v := if wide then winGet f at' * 256 + winGet f (at' + 1) else winGet f at'
    let e := { e with oob := e.oob || winOut f at' (if wide then 2 else 1) }
    (nx, gSet (stBits w 43 3) (Nat.land (v / 2 ^ stBits w 30 4) (stBits w 14 16)) e)
  | 0x02 => (if gReg e (stBits w 43 3) = stBits w 27 16 then nx else stBits w 15 12, e)
  | 0x03 => (if (if stBit w 45 then e.hit else e.oob) then nx else stBits w 33 12, e)
  | 0x05 =>
    let c := e.c + stBits w 37 9 + (if stBit w 36 then gReg e (stBits w 33 3) * 2 ^ stBits w 30 3 else 0)
    (nx, if c ≤ 256 then { e with c := c } else { e with c := 256, oob := true })
  | 0x06 =>
    let a := gReg e (stBits w 40 3)
    let i := stBits w 21 16
    let v := match stBits w 37 3 with
      | 0 => a + i
      | 1 => a + 65536 - i
      | 2 => Nat.land a i
      | 3 => Nat.lor a i
      | 4 => a * 2 ^ (i % 16)
      | 5 => a / 2 ^ (i % 16)
      | _ => i
    (nx, gSet (stBits w 43 3) v e)
  | 0x07 =>
    let at' := e.c + stBits w 32 8
    let n := stBits w 28 4 + 1
    let bs := (List.range n).map fun j => BitVec.ofNat 8 (winGet f (at' + j))
    (nx, kbPut (stBits w 40 6) bs { e with oob := e.oob || winOut f at' n })
  | 0x08 => (nx, kbPut (stBits w 40 6) (twoBytes (gReg e (stBits w 37 3))) e)
  | 0x09 => (nx, kbPut (stBits w 40 6) (twoBytes (stBits w 24 16)) e)
  | 0x0A =>
    let e := { e with looks := e.looks + 1 }
    (nx, match emFind s (stBits w 32 8) ((e.kb.drop (stBits w 40 6)).take 20) with
      | some x => { e with hit := true, hits := e.hits + 1, res := emApply f.up x e.res }
      | none => { e with hit := false })
  | 0x0B =>
    let e := { e with hashes := e.hashes + 1 }
    (nx, match indFind s (stBits w 28 6) ((e.kb.drop (stBits w 40 6)).take (stBits w 34 6)) with
      | some (k, v) => { e with res := indApply f.up k v e.res }
      | none => e)
  | 0x0C => (nx, { e with res := resWrite f.up (stBits w 43 3) (stBits w 25 18) e.res })
  | _ => (nx, e)

/-- The end of a program: its ternary search, when END asks for one. -/
def parseEnd (s : State) (f : PFrame) (w : BitVec 64) (e : PEng) : POut :=
  let out : POut := { res := e.res, steps := e.steps, looks := e.looks, hits := e.hits }
  if stBit w 45 then
    match ternFind s (stBits w 37 8) (e.kb.take 32) with
    | some ws => { out with tern := true, ternHit := true, res := ternApply f.up ws e.res }
    | none => { out with tern := true }
  else out

/-- A frame's program from a step on, within the limits of R126. -/
def parseRun (s : State) (f : PFrame) : Nat → Nat → PEng → POut
  | 0, at', e => { res := f.start, steps := e.steps, looks := e.looks, hits := e.hits, exc := some (at', 0) }
  | n + 1, at', e =>
    let w := tget s.cls.parseA at' 0
    let out : POut := { res := f.start, steps := e.steps, looks := e.looks, hits := e.hits }
    if itemBad s 7 at' then { out with bad := true }
    else if stOp w = 0x0A && decide (8 ≤ e.looks) then { out with exc := some (at', 1) }
    else if stOp w = 0x0B && decide (4 ≤ e.hashes) then { out with exc := some (at', 2) }
    else
      let e := { e with steps := e.steps + 1 }
      if stOp w = 0x00 then parseEnd s f w e
      else parseRun s f n (parseStep s f w e).1 (parseStep s f w e).2

/-- A whole classification: the program starts at step 0 upstream and at step 1 downstream (R122). -/
def parseFrame (s : State) (f : PFrame) (g : List Nat) : POut :=
  parseRun s f 256 (if f.up then 0 else 1) { g := g, res := f.start }

/-- `CLS_PARSE_CTRL.DEPTH` in bytes (R139). -/
def parseDepth (s : State) : Nat := 64 * (bitsOf (reg s 0x30000) 0 2 + 1)

/-- The default word of a port (R139). -/
def portDefault (s : State) (p : Nat) : Word := reg s (0x30200 + p * 4)

/-- Parse steps retired, counted in units of 64 (R312). -/
def countSteps (n : Nat) (s : State) : State :=
  let t := s.cls.stepRem + n
  let s := s.modCls fun c => { c with stepRem := t % 64 }
  if t / 64 = 0 then s else perf 19 (t / 64) s

/-- The lookup-cycles that a frame's exact-match lookups waited (R131, R312). -/
def bankWaits (looks : Nat) (s : State) : State := if looks = 0 then s else drawn (perf 21 (Config.bankWait s.freeCtr).toNat s)

/-- The counters and events of one classified frame (R126, R139). -/
def countParse (p : Nat) (up : Bool) (o : POut) (s : State) : State :=
  let s := addCtr (clsCtr (if up then 0 else 1)) 1 s
  let s := addCtr (clsCtr 3) o.hits (addCtr (clsCtr 2) o.looks s)
  let s := addCtr (clsCtr 5) (ofBit o.ternHit) (addCtr (clsCtr 4) (ofBit o.tern) s)
  let s := countSteps o.steps (bankWaits o.looks s)
  if o.bad then addCtr (clsCtr 6) 1 s
  else match o.exc with
    | some (at', cause) =>
      raise 0x310 (wordOf (p + ofBit up * 64)) (wordOf (at' + cause * 4096)) (addCtr (clsCtr 6) 1 s)
    | none => s

/-- A mark after classification: parsed and looked up (R323). -/
def markParsed (o : POut) (now : Word) (m : Mark) : Mark :=
  { ((m.at 1 now).at 2 now) with steps := o.steps, lookups := o.looks, ternHit := o.ternHit }

end Sys2Proof.Machine
end

