-- ==== Sys2Proof/Machine/Rings.lean ====
section
/-! DEFINITION. Rings and doorbells (R61–R83), the fetch of descriptors, the transmit descriptor's first steps, and the
writing of completions (R85–R93). -/

namespace Sys2Proof.Machine

/-! Doorbells (R29, R69). -/

/-- The queue whose doorbell a byte of the window belongs to, 8 bytes each (R29). -/
def bellOf (off : BitVec 16) : Nat := off.toNat / 8

/-- A read of the doorbell window (R29). -/
def bellRead (_ : BitVec 16) : Word := 0

/-- A doorbell is rung. -/
def ringBell (q : Nat) (s : State) : State :=
  if qType q = 7 || (getQueue s q).st = .notCreated then raise 0x120 (wordOf q) 0 (addCtr (hifCtr 0) 1 s)
  else modQueue q (fun Q => { Q with bell := true }) s

/-- DOORBELL: a write of any width; the value is ignored. -/
def execDoorbell (b : BellWrite) (s : State) : Host.Outcome State Fault Refusal :=
  .next (whenRunning (ringBell (bellOf b.off)) s)

/-- A set pending bit of an active queue is cleared, and then its index area is read (R69). -/
def serveBell (q : Nat) (s : State) : State :=
  let Q := getQueue s q
  if Q.bell && Q.st = .active then
    fabRead (.index q) Q.cfg.indexAddr 8 (perf 0 1 (modQueue q (fun Q => { Q with bell := false }) s))
  else s

def execDoorbellService (q : Fin 8192) (s : State) : Host.Outcome State Fault Refusal :=
  .next (whenRunning (serveBell q) s)

/-! Indices (R66, R90, R92, R93). -/

/-- The host's CI of a completion or event ring, read and checked; what waited is written into the space it shows. -/
def takeCi (q : Nat) (ci : Word) (s : State) : State :=
  let Q := getQueue s q
  if Q.st ≠ .active then s
  else if ringSize Q.cfg < gap Q.pi ci then raise 0x130 (wordOf q) ci (stopQueue q s)
  else
    let s := modQueue q (fun Q => { Q with ci := ci }) s
    if qType q = 3 then endEpisode q (drainPend Q.pend.length q s) else withHalves (drainEvents 66 q) s

/-- Entries of a queue that are on their way to the block, in ring order. -/
def entriesComing (s : State) (q : Nat) : List Word :=
  if q < 4096 then (s.hif.tx.filter fun t => t.q = q && t.stage = .fetching).map fun t => t.idx
  else if q < 5120 then bufsComing s q
  else (s.hif.adm.filter fun a => a.q = q && a.stage = .fetching).map fun a => a.idx

/-- An index lies in [CI, PI) of the PI last taken from the index area (R73). -/
def beforePi (Q : Queue) (idx : Word) : Bool := decide (gap idx Q.ci < gap Q.pi Q.ci)

/-- The fetch index less what polling has read ahead and not yet found valid: the first entry on its way past the PI last
taken, or F itself (R66, R71). -/
def firmF (s : State) (q : Nat) : Word :=
  let Q := getQueue s q
  ((entriesComing s q).find? fun i => !beforePi Q i).getD Q.f

/-- The host's PI of a transmit, receive or admin queue, read and checked. -/
def takePi (q : Nat) (pi : Word) (s : State) : State :=
  let Q := getQueue s q
  if Q.st ≠ .active then s
  else if ringSize Q.cfg < gap pi Q.ci || gap pi Q.ci < gap (firmF s q) Q.ci then raise 0x130 (wordOf q) pi (stopQueue q s)
  else modQueue q (fun Q => { Q with pi := pi }) s

/-- The two words of an index area arrive. -/
def takeIndex (q : Nat) (pi ci : Word) (s : State) : State :=
  if qType q < 3 then takePi q pi s else takeCi q ci s

/-- One microsecond after the first unreported entry the block writes its own index word (R68). -/
def execIndexWriteTimer (q : Fin 8192) (s : State) : Host.Outcome State Fault Refusal :=
  .next (whenRunning (issueIndex q) s)

/-! Polling (R71, R72). -/

/-- The reads that fetch a queue's entries. -/
def fetching (s : State) (q : Nat) : Bool :=
  (s.fab.reads ++ s.fab.wait).any fun r => match r.use with
    | .txDesc q' _ => decide (q' = q)
    | .adminDesc q' _ => decide (q' = q)
    | .rxDesc q' _ => decide (q' = q)
    | _ => false

/-- A poll read goes out, unless the queue is stopped, draining or fetching (R71); a late one is counted (R72). -/
def pollQueue (q : Nat) (late : Bool) (s : State) : State :=
  let Q := getQueue s q
  if Q.st ≠ .active || Q.cfg.pollIvl = 0 || fetching s q || asked s (.poll q) then s
  else
    let s := if late then addCtr (hifCtr 1) 1 s else s
    let s := if late && !s.hif.pollEp then
        raise 0x133 (wordOf q) 0 (s.modHif fun h => { h with pollEp := true })
      else s
    let addr := if qType q < 3 then slotAddr Q.cfg (entryBytes q) Q.f / 64 * 64 else Q.cfg.indexAddr
    fabRead (.poll q) addr 8 (perf 1 1 s)

def execPoll (q : Fin 8192) (late : Bool) (s : State) : Host.Outcome State Fault Refusal :=
  .next (whenRunning (pollQueue q late) s)

/-- A poll read returns: the entry at F has its tag, or the ring's CI is taken (R71). -/
def pollBack (q : Nat) (tag : Nat) (ci : Word) (s : State) : State :=
  if !reading s (.poll q) then s
  else
    let s := returnReads (fun u => u = .poll q) s
    let Q := getQueue s q
    if qType q < 3 then
      if Q.st = .active && decide (tag = tagOf Q.cfg.log2 Q.f) && decide (gap Q.f Q.ci < ringSize Q.cfg) then
        modQueue q (fun Q => { Q with pollFound := true }) s
      else s
    else takeCi q ci s

def execPollResponse (q : Fin 8192) (tag : BitVec 16) (ci : Word) (s : State) : Host.Outcome State Fault Refusal :=
  .next (whenRunning (pollBack q tag.toNat ci) s)

def execPollOverrunEpisodeEnd (s : State) : Host.Outcome State Fault Refusal :=
  .next (s.modHif fun h => { h with pollEp := false })

/-! The round robins (R74–R76). -/

/-- Entries that an index read has shown and that are not fetched yet. -/
def knownWork (Q : Queue) : Nat := if gap Q.f Q.ci < gap Q.pi Q.ci then gap Q.pi Q.ci - gap Q.f Q.ci else 0

/-- A queue with work: active, and F before PI or a valid entry found at F (R74). -/
def eligible (Q : Queue) : Bool := Q.st = .active && (decide (0 < knownWork Q) || Q.pollFound)

/-- An entry is there to be fetched at F. -/
def entryThere (Q : Queue) : Bool :=
  decide (0 < knownWork Q) || (Q.pollFound && decide (gap Q.f Q.ci < ringSize Q.cfg))

/-- A transmit descriptor of the queue waits for a park slot (R82). -/
def waitsPark (s : State) (q : Nat) : Bool :=
  decide (4096 ≤ parkUsed s) && s.hif.tx.any fun t => t.q = q && t.stage = .cached && !heldBack s t

/-- The first condition of R76 that holds for a queue, as the counter of R312 that counts its visit. -/
def bound (s : State) (q : Nat) : Option Nat :=
  if q < 4096 && decide (256 ≤ (s.hif.tx.filter fun t => t.q = q).length) then some 7
  else if (if q < 4096 then decide (65536 ≤ s.hif.tx.length) else decide (256 ≤ s.hif.adm.length)) then some 7
  else if 1024 ≤ tagsUsed s then some 8
  else if (getQueue s (ringOfQueue s q)).episode then some 9
  else if q < 4096 && waitsPark s q then some 10
  else none

/-- One visit's loop of R74: the indices taken, and why it ended early. -/
def visitLoop : Nat → Nat → List Word → State → State × List Word × Option Nat
  | 0, _, taken, s => (s, taken, none)
  | n + 1, q, taken, s =>
    let Q := getQueue s q
    if Q.credit < 16 then (s, taken, none)
    else match bound s q with
    | some k => (s, taken, some k)
    | none =>
      if !entryThere Q then (modQueue q (fun Q => { Q with credit := 0 }) s, taken, none)
      else
        let s := modQueue q (fun Q => { Q with f := Q.f + 1, credit := Q.credit - 16 }) s
        let s := s.modHif fun h =>
          if q < 4096 then { h with tx := h.tx ++ [{ q := q, idx := Q.f }] }
          else { h with adm := h.adm ++ [{ q := q, idx := Q.f }] }
        visitLoop n q (taken ++ [Q.f]) s

/-- Indices in runs that one 512-byte read brings (R74). -/
def runsOf (c : QCfg) (bytes : Nat) : List Word → List (List Word)
  | [] => []
  | i :: r =>
    match runsOf c bytes r with
    | [] => [[i]]
    | [] :: gs => [i] :: gs
    | (j :: g) :: gs =>
      if slotAddr c bytes i / 512 = slotAddr c bytes j / 512 && decide (slotOf c i < slotOf c j) then (i :: j :: g) :: gs
      else [i] :: (j :: g) :: gs

/-- The use of a read of entries of a queue. -/
def entryUse (q : Nat) (l : List Word) : RdUse :=
  if q < 4096 then .txDesc q l else if q < 5120 then .rxDesc q l else .adminDesc q l

/-- The reads of a list of entries of a queue. -/
def readEntries (q : Nat) (use : List Word → RdUse) (idxs : List Word) (s : State) : State :=
  let c := (getQueue s q).cfg
  let b := entryBytes q
  (runsOf c b idxs).foldl (fun s g =>
    match g with
    | [] => s
    | i :: _ => fabRead (use g) (slotAddr c b i) ((g.length) * b) s) s

/-- A visit of the round robin to an eligible queue (R74, R76). -/
def visit (q : Nat) (s : State) : State :=
  let Q := getQueue s q
  let s := modQueue q (fun Q => { Q with credit := min (Q.credit + Q.cfg.weight) (32 * Q.cfg.burst) }) s
  let (s, taken, why) := visitLoop Q.cfg.burst q [] s
  let s := readEntries q (entryUse q) taken s
  let s := if taken.isEmpty then s else perf (if q < 4096 then 2 else 3) taken.length s
  let s := if entryThere (getQueue s q) then s else modQueue q (fun Q => { Q with credit := 0 }) s
  match why with
  | none => s
  | some k =>
    let s := perf k 1 s
    if k ≠ 10 then s
    else
      let s := addCtr (hifCtr 2) 1 s
      if s.hif.parkEp then s else raise 0x134 (wordOf q) 0 (s.modHif fun h => { h with parkEp := true })

/-- The first queue with work at or after a pointer, in ascending order, round to the start (R74). -/
def nextQueue (s : State) (lo hi ptr : Nat) : Option Nat :=
  let ks := (s.hif.queues.filter fun e => decide (lo ≤ e.1 ∧ e.1 < hi) && eligible e.2).map fun e => e.1
  match ks.find? fun k => decide (ptr ≤ k) with
  | some k => some k
  | none => ks.head?

/-- Admin descriptors go first: an admin queue is eligible and is not skipped (R75). -/
def adminFirst (s : State) : Bool :=
  s.hif.queues.any fun e => decide (5120 ≤ e.1 ∧ e.1 < 5184) && eligible e.2 && (bound s e.1).isNone

/-- TX_FETCH: one visit of the transmit round robin. -/
def fetchTx (s : State) : State :=
  if adminFirst s then s
  else match nextQueue s 0 4096 s.hif.txPtr with
    | none => s
    | some q => visit q (s.modHif fun h => { h with txPtr := q + 1 })

def execTxFetch (s : State) : Host.Outcome State Fault Refusal := .next (whenRunning fetchTx s)

/-- ADMIN_FETCH: one visit of the admin round robin. -/
def fetchAdmin (s : State) : State :=
  match nextQueue s 5120 5184 s.hif.admPtr with
  | none => s
  | some q => visit q (s.modHif fun h => { h with admPtr := q + 1 })

def execAdminFetch (s : State) : Host.Outcome State Fault Refusal := .next (whenRunning fetchAdmin s)

/-! Entries that reach the core. -/

/-- An entry is part of a read; when it was the read's last, the read has returned. -/
def takeEntry (q : Nat) (idx : Word) (s : State) : State :=
  let cut := fun u : RdUse => match u with
    | .txDesc q' l => if q' = q then RdUse.txDesc q' (l.filter fun i => i ≠ idx) else u
    | .adminDesc q' l => if q' = q then RdUse.adminDesc q' (l.filter fun i => i ≠ idx) else u
    | .rxDesc q' l => if q' = q then RdUse.rxDesc q' (l.filter fun i => i ≠ idx) else u
    | _ => u
  let s := s.modFab fun f => { f with reads := f.reads.map fun r => { r with use := cut r.use } }
  returnReads (fun u => u = .txDesc q [] || u = .adminDesc q [] || u = .rxDesc q []) s

/-- The block's CI passes a copied entry, and its index word is written at the points of R68. An entry past the PI last taken
was found by polling: the copy of PI follows CI, and no point is reached by that. -/
def copied (q : Nat) (idx : Word) (s : State) : State :=
  let known := beforePi (getQueue s q) idx
  let s := modQueue q (fun Q =>
    { Q with ci := idx + 1, unreported := Q.unreported + 1, pi := if known then Q.pi else idx + 1 }) s
  let Q := getQueue s q
  if 16 ≤ Q.unreported || (known && Q.ci = Q.pi) then issueIndex q s else s

/-- Records of entries from an index on that are not in the block go, and F stands at that index (R25, R73). -/
def rewind (q : Nat) (idx : Word) (s : State) : State :=
  let Q := getQueue s q
  let gone := fun i : Word => decide (gap idx Q.ci ≤ gap i Q.ci)
  let s := s.modHif fun h =>
    { h with tx := h.tx.filter fun t => !(t.q = q && t.stage = .fetching && gone t.idx),
             adm := h.adm.filter fun a => !(a.q = q && a.stage = .fetching && gone a.idx) }
  let s := dropReads (fun u => match u with
    | .txDesc q' l => decide (q' = q) && l.any gone
    | .adminDesc q' l => decide (q' = q) && l.any gone
    | .rxDesc q' l => decide (q' = q) && l.any gone
    | _ => false) s
  modQueue q (fun Q => { Q with f := idx, tagRetry := none, pollFound := false, credit := 0 }) s

/-- A read that brings an entry is outstanding. -/
def entryRead (s : State) (q : Nat) (idx : Word) : Bool :=
  s.fab.reads.any fun r => match r.use with
    | .txDesc q' l => decide (q' = q) && l.contains idx
    | .adminDesc q' l => decide (q' = q) && l.contains idx
    | .rxDesc q' l => decide (q' = q) && l.contains idx
    | _ => false

/-- The entry of a queue that is taken next, once its read is outstanding: entries are taken in ring order, and one that is read a
second time holds back those behind it (R11, R73). -/
def nextEntry (s : State) (q : Nat) : Option Word :=
  match (getQueue s q).tagRetry, (entriesComing s q).head? with
  | none, some i => if entryRead s q i then some i else none
  | _, _ => none

/-- The tag of an arriving entry (R73): `ok` takes it; a wrong one inside [F, PI) waits 1 µs for a second reading, and one
found by polling ends the work. -/
def tagChecked (q : Nat) (idx : Word) (ws : List Word) (ok : State → State) (s : State) : State :=
  let Q := getQueue s q
  let s := takeEntry q idx s
  if dTag ws = tagOf Q.cfg.log2 idx then ok s
  else if beforePi Q idx then modQueue q (fun Q => { Q with tagRetry := some idx }) s
  else drainDone q (issueIndex q (rewind q idx s))

/-- An upstream frame or descriptor takes its draw (R322): the draw's number, and whether it is marked. -/
def marks (s : State) (up : Bool) : Bool :=
  let seed := reg s 0xB0004
  let v := if up then Config.markDraw seed s.mon.drawsUs else Config.markDraw (~~~seed) s.mon.drawsDs
  decide (v.toNat % 2 ^ bitsOf (reg s 0xB0000) 8 5 = 0)

/-- Marking runs in a direction (R322, R325). -/
def marking (s : State) (up : Bool) : Bool :=
  s.mon.trEn && !s.mon.trStopped && bitOf (reg s 0xB0000) (if up then 0 else 1)

/-- A port takes part in marking. -/
def markPort (s : State) (p : Nat) : Bool := bitOf (reg s (0xB0008 + p / 32 * 4)) (p % 32)

/-- A candidate's draw and its mark, with the stamp of its arrival (R322, R323). -/
def draw (up cand : Bool) (stamp : Word) (s : State) : State × Option Mark :=
  if !(marking s up && cand) then (s, none)
  else
    let hit := marks s up
    let s := s.modMon fun m => if up then { m with drawsUs := m.drawsUs + 1 } else { m with drawsDs := m.drawsDs + 1 }
    if hit then
      let s := perf 28 1 s
      (s, some (Mark.at 0 stamp { id := wordOf ((getCtr s (perfCtr 28)).toNat % 4294967296) }))
    else (s, none)

/-- A descriptor whose flow's port is known takes part by it; one whose context is not resident takes part while any port
does. -/
def txCandidate (s : State) (ws : List Word) : Bool :=
  match served s (txFlow ws) with
  | some i => markPort s (homeOf s (getSlot s i).ctx.txPort)
  | none => decide (reg s 0xB0008 ≠ 0 ∨ reg s 0xB000C ≠ 0)

/-- Steps 1–3 of R77 of a descriptor that is in the core, and then its turn at step 4. -/
def txArrive (q : Nat) (idx : Word) (ws : List Word) (s : State) : State :=
  let s := copied q idx s
  let (s, mark) := draw false (txCandidate s ws) (stampNow s) s
  let twin := s.hif.tx.find? fun t => t.q = q && t.idx ≠ idx && !t.dup && t.stage ≠ .fetching && dReqId t.ws = dReqId ws
  let inl := if txIndirect ws then 0 else txSegLen ws
  let s := modTx q idx (fun t => { t with ws := ws, len := inl, mark := mark, launched := !txLaunch ws, stage := .cached }) s
  let ended := (inLet s q (dReqId ws)).or (match twin with
    | some t => if t.stage.over then some t.status else none
    | none => none)
  match ended with
  | some orig =>
    drainDone q (flushTx q (countDrained q 1 (addCtr (hifCtr 4) 1 (modTx q idx (fun t =>
      { t with dup := true, status := orig, stage := .ended }) s))))
  | none =>
    if twin.isSome then addCtr (hifCtr 4) 1 (modTx q idx (fun t => { t with dup := true, stage := .twin }) s)
    else if !txFieldsOk s ws then txDone q idx 4 255 s
    else if !txIndirect ws then settleTx s
    else if txAddr ws % 16 ≠ 0 then txDone q idx 4 255 s
    else fabRead (.segList q idx) (txAddr ws) (txNseg ws * 16) (modTx q idx (fun t => { t with stage := .listRead }) s)

/-- TX_DESCRIPTOR_ARRIVE. -/
def txDescIn (q : Nat) (idx : Word) (ws : List Word) (s : State) : State :=
  if nextEntry s q = some idx then tagChecked q idx ws (txArrive q idx ws) s else s

def execTxDescriptorArrive (q : Fin 4096) (idx : Word) (ws : List Word) (s : State) : Host.Outcome State Fault Refusal :=
  .next (whenRunning (txDescIn q idx ws) s)

/-- A segment list returns (R78): its entries, then its total length. -/
def segListIn (q : Nat) (idx : Word) (ws : List Word) (s : State) : State :=
  if !reading s (.segList q idx) then s
  else match findTx s q idx with
    | none => s
    | some t =>
      let s := returnReads (fun u => u = .segList q idx) s
      let ent := (List.range (txNseg t.ws)).map fun i =>
        ((wAt ws (4 * i)).toNat + bitsOf (wAt ws (4 * i + 1)) 0 20 * 4294967296, bitsOf (wAt ws (4 * i + 2)) 0 16)
      let ok := (List.range (txNseg t.ws)).all fun i =>
        decide (bitsOf (wAt ws (4 * i + 2)) 0 16 ≠ 0 ∧ bitsOf (wAt ws (4 * i + 1)) 20 12 = 0)
      let len := ent.foldl (fun a e => a + e.2) 0
      if ok then settleTx (modTx q idx (fun t => { t with segs := ent, len := len, stage := .cached }) s)
      else txDone q idx 4 255 (modTx q idx (fun t => { t with len := len }) s)

def execSegmentListArrive (q : Fin 4096) (idx : Word) (ws : List Word) (s : State) : Host.Outcome State Fault Refusal :=
  .next (whenRunning (segListIn q idx ws) s)

def reserveNext (s : State) : State :=
  match cellTaker s with
  | some (q, idx) => settleTx (tryReserve q idx s)
  | none => s

def execCellReserve (s : State) : Host.Outcome State Fault Refusal := .next (whenRunning reserveNext s)

/-- The cells and the payload read of a descriptor that waits for its launch time (R80, R106). -/
def launchRead (q : Nat) (idx : Word) (s : State) : State :=
  match findTx s q idx with
  | some t =>
    if t.stage = .launch then
      settleTx (tryReserve q idx ((modTx q idx (fun t => { t with stage := .cells }) s).modHif fun h =>
        { h with cellWait := h.cellWait ++ [(q, idx)] }))
    else s
  | none => s

def execLaunchReadStart (q : Fin 4096) (idx : Word) (s : State) : Host.Outcome State Fault Refusal :=
  .next (whenRunning (launchRead q idx) s)

/-- The launch time of a descriptor is reached, or no longer holds it (R80, R215). -/
def launchNow (q : Nat) (idx : Word) (s : State) : State :=
  match findTx s q idx with
  | none => s
  | some t =>
    if t.stage.over || t.launched || t.stage = .fetching then s
    else
      let s := modTx q idx (fun t => { t with launched := true, hasPark := if t.stage = .parked then t.hasPark else false }) s
      settleTx (if t.stage = .launch then launchRead q idx s else s)

def execLaunchTimeReached (q : Fin 4096) (idx : Word) (s : State) : Host.Outcome State Fault Refusal :=
  .next (whenRunning (launchNow q idx) s)

/-- A whole payload is in the packet buffer: its check value, padding, and the way to classification (R79, R114). -/
def payloadIn (q : Nat) (idx : Word) (bytes : List Byte) (s : State) : State :=
  match findTx s q idx with
  | none => s
  | some t =>
    if t.stage ≠ .reading || bytes.length ≠ t.len then s
    else
      let s := returnReads (fun u => u = .payload q idx) s
      let v := checkValue (txPoly t.ws) bytes
      let s := modTx q idx (fun t => { t with check := v }) s
      if txPoly t.ws ≠ 0 && v ≠ txExpect t.ws then
        txDone q idx 8 15 (raise 0x151 (wordOf q) (dReqId t.ws) (stat t.port 15 1 s))
      else
        let s := if bytes.length < 60 then stat t.port 4 1 s else s
        let s := modTx q idx (fun t => { t with payload := bytes, stage := .classify, padded := decide (bytes.length < 60) }) s
        modPort t.port (fun P => { P with dsDisp := P.dsDisp ++ [(q, idx)] }) s

def execPayloadReadDone (q : Fin 4096) (idx : Word) (bytes : List Byte) (s : State) : Host.Outcome State Fault Refusal :=
  .next (whenRunning (payloadIn q idx bytes) s)

/-! Completions (R89–R91). -/

/-- The next completion of a ring is written, or becomes pending and may start the episode (R89, R90). -/
def completionOut (r : Nat) (s : State) : State :=
  let Q := getQueue s r
  if ringTakes Q && !Q.pend.isEmpty then endEpisode r (drainPend 1 r s)
  else match Q.ready with
    | [] => s
    | c :: rest =>
      let s := modQueue r (fun Q => { Q with ready := rest }) s
      if ringTakes Q then writeCpl r c s
      else
        let s := modQueue r (fun Q => { Q with pend := Q.pend ++ [c] }) s
        if 32 ≤ (getQueue s r).pend.length then startEpisode r s else s

def execCompletionWrite (r : Fin 1024) (s : State) : Host.Outcome State Fault Refusal :=
  .next (whenLive (completionOut (6144 + r)) s)

/-- The index area of a ring with pending or held entries is read (R91). -/
def recoveryRead (q : Nat) (s : State) : State :=
  let Q := getQueue s q
  if Q.st = .active && (!Q.pend.isEmpty || !Q.hold.isEmpty) && !asked s (.index q) then
    fabRead (.index q) Q.cfg.indexAddr 8 s
  else s

def execCqRecoveryRead (q : Fin 8192) (s : State) : Host.Outcome State Fault Refusal :=
  .next (whenRunning (recoveryRead q) s)

/-! Tokens and interrupts (R30, R284, R290). -/

/-- A code's bucket gains a token, up to 8 (R284). -/
def execRateTokenRefill (code : Fin 4096) (s : State) : Host.Outcome State Fault Refusal :=
  .next (if pbRate (pbEntry s code) = 0 then s
         else s.modErr fun e => { e with tokens := tset e.tokens 8 code (min 8 (tget e.tokens code 8 + 1)) })

/-- A vector's timer has passed since its first counted entry (R290). -/
def execVectorTimer (v : Fin 64) (s : State) : Host.Outcome State Fault Refusal :=
  .next (if (getVec s v).timer && decide (0 < (getVec s v).count) then sendVector v s else s)

/-- The interrupt controller acknowledges a message; merged sources go in the next (R30). -/
def execInterruptAck (v : Fin 64) (s : State) : Host.Outcome State Fault Refusal :=
  .next (if (getVec s v).unacked then
      let s1 := modVec v (fun V => { V with unacked := false, due := false }) s
      if (getVec s v).due then sendVector v s1 else s1
    else s)

end Sys2Proof.Machine
end

