-- ==== Sys2Proof/Machine/RxPath.lean ====
section
/-! DEFINITION. The frame path: upstream frames from the framer to host memory (R108–R115), the dispatcher and the results of
classification (R121–R129), and the hand-off of downstream frames (R31, R107). -/

namespace Sys2Proof.Machine

/-! Records. -/

def findUs (s : State) (id : Nat) : Option Us := s.tpt.us.find? fun u => u.id = id
def modUs (id : Nat) (f : Us → Us) (s : State) : State :=
  s.modTpt fun t => { t with us := updFirst (fun u => u.id = id) f t.us }

/-- The order of R13: one alloc ID of one terminal, and frames of the link apart from those of the tree ports. -/
def Us.key (u : Us) : Nat × Nat × Nat := (match u.link with | some (c, _) => c + 1 | none => 0, u.tree * 512 + u.term, u.alloc)

/-- A frame leaves the block: its cells, of the packet buffer or of a receive store, free. -/
def dropUs (id : Nat) (s : State) : State :=
  match findUs s id with
  | none => s
  | some u =>
    let s := s.modTpt fun t => { t with us := dropFirst (fun u => u.id = id) t.us }
    match u.link with
    | some (c, k) => storeFree c k s
    | none => freeUs u.port u.cells u.poolCells s

/-- A frame of a tree port ends, recorded by a statistics counter (R118, R324). -/
def endUs (id fate : Nat) (s : State) : State :=
  match findUs s id with
  | none => s
  | some u => dropUs id (traceUs u fate (stat u.port fate 1 s))

/-- A frame past stage 5. -/
def UsStage.past (x : UsStage) : Bool := x = .buffers || x = .writing || x = .acked || x = .link

/-- The counter of an error frame's class: runt, oversize or FCS error (R109, R117). -/
def errCounter (status : Nat) : Nat := 27 + (status - 0x0C)

/-! Quarantine and stage 6 (R112, R113, R115). -/

def quarantined (u : Us) : Bool := u.held || u.err
def quarRing (s : State) : Nat := bitsOf (reg s 0xA0) 0 10
def quarOn (s : State) : Bool := bitOf (reg s 0xA0) 31 && decide ((getQueue s (4096 + quarRing s)).st = .active)

/-- The ring that a frame is bound for, once its classification has ended. -/
def boundRing (s : State) (u : Us) : Option Nat :=
  if u.stage = .rebind || u.stage = .dispatch || u.stage = .engine then none
  else if quarantined u && !u.stage.past then some (quarRing s) else some u.ring

/-- An earlier frame of the same alloc ID may be bound for the same ring and has not reached stage 6. -/
def blockedAt6 (s : State) (u : Us) : Bool :=
  (s.tpt.us.takeWhile fun e => e.id ≠ u.id).any fun e =>
    e.key = u.key && !e.stage.past && (boundRing s e = none || boundRing s e = boundRing s u)

/-- `HIF_RX_CHK` of a ring (R115). -/
def rxPoly (s : State) (r : Nat) : Nat := bitsOf (reg s (0x1800 + r / 16 * 4)) (2 * (r % 16)) 2

/-- `LNK_REMOTE_RING` of a ring (R244). -/
def remoteRing (s : State) (r : Nat) : Option (Nat × Nat) :=
  let w := reg s (0x81000 + r * 4)
  if bitOf w 31 then some (bitsOf w 10 14, bitsOf w 0 10) else none

/-- The DATA message that carries a frame (R244). -/
def dataOf (u : Us) (ring : Nat) : DataMsg :=
  { ring := Fin.ofNat 1024 ring, cls := Fin.ofNat 64 u.cls, colour := u.colour, alloc := Fin.ofNat 4 u.alloc,
    terminal := u.tree * 512 + u.term, flow := u.flow, stamp := u.stamp, bytes := u.kept }

/-- A frame for another instance waits to be sent; without a valid route it is discarded (R244, R245). The manual names no
counter of R118 for that end; it is counted as a frame that found no way on from stage 6. -/
def toLink (u : Us) (dest ring : Nat) (s : State) : State :=
  if !routeValid s dest then endUs u.id 35 (noRoute none dest s)
  else
    let m : Msg := { body := .data (dataOf u ring), cls := u.cls / 8, hops := linkHops s, dest := dest, origin := ownInstance s,
                     us := some u.id }
    (modUs u.id (fun u => { u with stage := .link, mark := u.mark.map (Mark.at 4 (stampNow s)) }) s).modLnk fun l =>
      { l with out := l.out ++ [m] }

/-- A frame reaches stage 6. -/
def reach6 (id : Nat) (s : State) : State :=
  match findUs s id with
  | none => s
  | some u =>
    if quarantined u then
      if quarOn s then
        let s := if u.err then stat u.port (errCounter u.status) 1 s else s
        modUs id (fun u => { u with ring := quarRing s, poly := rxPoly s (quarRing s), stage := .buffers }) s
      else endUs id 37 (raise 0x152 (wordOf u.port) (wordOf u.flow) s)
    else match remoteRing s u.ring with
    | none => modUs id (fun u => { u with poly := rxPoly s u.ring, stage := .buffers }) s
    | some (dest, ring) =>
      if dest = ownInstance s then modUs id (fun u => { u with ring := ring, poly := rxPoly s ring, stage := .buffers }) s
      else toLink u dest ring s

/-- Frames past stage 5 reach stage 6 in the order of R112. -/
def settleUs (s : State) : State :=
  ((s.tpt.us.filter fun u => u.stage = .ready).map fun u => u.id).foldl (fun s id =>
    match findUs s id with
    | none => s
    | some u => if u.stage = .ready && !blockedAt6 s u then reach6 id s else s) s

/-! Stage 5 (R108, R129, R199, R204). -/

/-- A frame that waits for a flow waits for a page-in: a slot that is being evicted is reclaimed with none (R195, R210). -/
def needsPageIn (s : State) (f : Nat) : Bool :=
  match (getFlow s f).slot with
  | some i => decide ((getSlot s i).st ≠ .evicting)
  | none => true

/-- A migration is sending the flow, which stays unchanged until its close (R271). -/
def flowSent (s : State) (f : Nat) : Bool :=
  s.tpt.prot.any fun e => e.2.phase = 4 && match e.2.mig with
    | some m => m.flows.any fun x => x.1 = f
    | none => false

/-- A frame at the end of classification resolves its context, waits for it, or needs none. -/
def usStage5 (id : Nat) (s : State) : State :=
  match findUs s id with
  | none => s
  | some u =>
    let go := fun (f : Us → Us) (s : State) =>
      modUs id (fun u => { f u with stage := .ready }) s
    if !u.hasFlow || !flowLive s u.flow then go (fun u => { u with flow := 0, hasFlow := false }) (addCtr (clsCtr 8) 1 s)
    else if heldBoth s u.flow then go (fun u => { u with held := true }) s
    else match served s u.flow with
    | some i =>
      let s := touch i (if flowSent s u.flow then s else changeCtx i (fun c =>
        { c with rxFrames := (c.rxFrames + 1) % 281474976710656, rxBytes := (c.rxBytes + u.len) % 281474976710656 }) s)
      go (fun u => { u with mark := u.mark.map (Mark.at 3 (stampNow s)) }) s
    | none =>
      let s := if u.stage = .context then s
        else addCtr (pgrCtr 6) (ofBit (needsPageIn s u.flow)) (modUs id (fun u => { u with stage := .context }) s)
      needPage u.flow 1 (.send u.flow) id s

/-- Frames that wait for a flow's context take stage 5 again, in order. -/
def resumeUs (f : Nat) (s : State) : State :=
  settleUs (((s.tpt.us.filter fun u => u.stage = .context && decide (u.flow = f)).map fun u => u.id).foldl
    (fun s id => usStage5 id s) s)

/-! Arrival (R108 stages 1–3). -/

/-- Cells that an upstream frame of a port takes from the pool; none when the budget or the pool does not hold them. -/
def usTake (s : State) (p n : Nat) : Option Nat :=
  let P := getPort s p
  let fromPool := n - min n (1024 - (P.usCells - P.usPool))
  if 4096 < P.usCells + n || poolFree s < fromPool then none else some fromPool

/-- The tree that a frame presented on a port belongs to (R262, R267); none once a migration's drain has ended (R271), and while the
tree stays frozen after it (R273). -/
def usTree (s : State) (p : Nat) : Option Nat :=
  match treeOn s p with
  | some t => if (getProt s t).phase = 4 ∨ (getProt s t).phase = 7 then none else some t
  | none => match (getPort s p).former with
    | some (t, till) => if now16 s < till then some t else none
    | none => none

/-- The tree whose local re-homing has not rebound it to the port yet (R267). -/
def rebindTree (s : State) (p : Nat) : Option Nat :=
  (List.range 64).find? fun t => (getProt s t).phase = 1 && protKind s t = 1 && otherHome s t = p && homeOf s t ≠ p

def isTpid (n : Nat) : Bool := n = 0x8100 || n = 0x88A8 || n = 0x9100

/-- Bytes `[i, i + 1]` of a frame, most significant first. -/
def frame16 (bs : List Byte) (i : Nat) : Nat := (bs.getD i 0).toNat * 256 + (bs.getD (i + 1) 0).toNat

/-- Tags of a frame, its outer tag, and the EtherType after them (R110). -/
def tagsOf (bs : List Byte) : Nat × Nat × Nat :=
  if !isTpid (frame16 bs 12) then (0, 0, frame16 bs 12)
  else if !isTpid (frame16 bs 16) then (1, frame16 bs 14, frame16 bs 16)
  else (2, frame16 bs 14, frame16 bs 20)

/-- A frame value matches under a mask. -/
def maskEq (v x m : Nat) : Bool := decide (Nat.land (Nat.xor v x) m = 0)

/-- A filter entry in use matches a frame of a tree (R110, R262, R291). DESIGN CHOICE: a frame without a tag has VID 0 and PCP 0
for an entry with `TAGS` 0b11 that masks them in. -/
def filterHit (s : State) (tree : Nat) (tags outer et : Nat) (i : Nat) : Bool :=
  let w := fun k => reg s (0x38000 + i * 16 + k * 4)
  let need := bitsOf (w 2) 7 2
  bitOf (w 3) 0 && decide (bitsOf (w 3) 1 2 ≠ 3) && !itemBad s 8 i && maskEq et (bitsOf (w 0) 0 16) (bitsOf (w 0) 16 16)
    && (bitOf (w 2) 6 || decide (bitsOf (w 2) 0 6 = tree)) && (decide (need = 3) || decide (need = tags))
    && maskEq (outer % 4096) (bitsOf (w 1) 0 12) (bitsOf (w 1) 16 12) && maskEq (outer / 8192) (bitsOf (w 1) 12 3) (bitsOf (w 1) 28 3)

/-- Filter entries that hold something: only these can match (an entry at its reset value has `VALID` 0). -/
def filtersSet (s : State) : List Nat :=
  (s.regs.filter fun e => decide (0x38000 ≤ e.1 ∧ e.1 < 0x3C000 ∧ e.1 % 16 = 12)).map fun e => (e.1 - 0x38000) / 16

/-- The lowest-numbered entry that matches a frame. -/
def filterOf (s : State) (tree : Nat) (bs : List Byte) : Option Nat :=
  let (tags, outer, et) := tagsOf bs
  if tags = 0 ∧ et = 0x8808 then none else (filtersSet s).find? fun i => filterHit s tree tags outer et i

/-- Stage 3: the front filters, and the way to the dispatcher. -/
def usStage3 (id : Nat) (s : State) : State :=
  match findUs s id with
  | none => s
  | some u =>
    match filterOf s u.tree u.kept with
    | none => modUs id (fun u => { u with stage := .dispatch }) s
    | some i =>
      let w2 := reg s (0x38008 + i * 16)
      let ring := bitsOf w2 16 10
      match bitsOf (reg s (0x3800C + i * 16)) 1 2 with
      | 0 => settleUs (stat u.port 33 1 (modUs id (fun u => { u with ring := ring, cls := bitsOf w2 26 6, stage := .ready }) s))
      | 1 => endUs id 32 s
      | _ => modUs id (fun u => { u with ringFix := some ring, stage := .dispatch }) s

/-- Stage 2 found an error (R109): the frame is delivered where the playbook asks for it, or discarded. -/
def usError (u : Us) (status code : Nat) (s : State) : State :=
  let deliver := pbDeliver (pbEntry s code) && decide (4 < u.len)
  let s := raise code (wordOf u.port) (wordOf (sat 0xFFFFFFFF u.len)) s
  let s := modUs u.id (fun u =>
    { u with status := status, err := true, stage := .ready, hasFlow := false, flow := 0, cls := 0, colour := 0, held := false }) s
  settleUs (if deliver then s else endUs u.id (errCounter status) s)

/-- Stage 2: size class and FCS (R104, R109). -/
def usStage2 (u : Us) (f : UsPresented) (wait : Bool) (s : State) : State :=
  let mx := bitsOf (reg s (0x10010 + u.port * 0x400)) 0 14
  if u.len < 64 then usError u 0x0C 0x220 s
  else if mx < u.len then usError u 0x0D 0x221 s
  else
    let s := stat u.port (20 + sizeBucket u.len) 1 s
    if f.bad || decide (f.poison ≠ 0) || wordOf (leNat (f.bytes.drop (u.len - 4))) ≠ wordOf (crc32 u.kept) then
      usError u 0x0E 0x222 s
    else if wait then modUs u.id (fun u => { u with stage := .rebind }) s
    else usStage3 u.id s

/-- The first frame of a burst goes to the ranging unit; the port holds the cycle of the burst that is arriving (R33, R147). -/
def usBurst (p : Nat) (tree : Option Nat) (f : UsPresented) (s : State) : State :=
  let r := match (if f.first then tree else none) with
    | some t => burstIn p t f.term (now16 s + (f.sub : Nat)) f.stamp f.delimOfs s
    | none => (s, if f.first then none else (getPort s p).burst)
  modPort p (fun P => { P with burst := r.2 }) r.1

/-- Stage 1: a frame takes its cells, or is dropped (R105, R108). -/
def usStore (u : Us) (f : UsPresented) (n : Nat) (wait : Bool) (s : State) : State :=
  match usTake s u.port n with
  | none => traceUs u 34 (stat u.port 34 1 s)
  | some pool =>
    let banks := placeCells s n
    let u := { u with cells := n, poolCells := pool, banks := banks }
    let s := modPort u.port (fun P => { P with usCells := P.usCells + n, usPool := P.usPool + pool }) (wakeBanks banks s)
    usStage2 u f wait (s.modTpt fun t => { t with us := t.us ++ [u], usNext := t.usNext + 1 })

/-- US_FRAME_ARRIVAL: a whole frame is presented. The first frame of a burst goes to the ranging unit whether or not it is kept
(R33), but for a port in per-port reset, disabled, or without a tree (R55, R60, R262). -/
def usArrive (p : Nat) (f : UsPresented) (s : State) : State :=
  let P := getPort s p
  let len := f.bytes.length
  let mx := bitsOf (reg s (0x10010 + p * 0x400)) 0 14
  let s := perf (259 + 4 * p) 1 (perf (258 + 4 * p) len s)
  let s := stat p 42 f.fecUncorr.toNat (stat p 41 f.fecCorr.toNat s)
  let (s, mark) := draw true (markPort s p) (shortStamp (captured s f.sub 0)) s
  let tree := usTree s p
  let waits := if tree.isNone then rebindTree s p else none
  let u : Us := { id := s.tpt.usNext, port := p, tree := (tree.or waits).getD p, stage := .ready,
                  kept := f.bytes.take (min (len - 4) (mx - 4)), len := len, term := f.term, alloc := f.alloc,
                  stamp := shortStamp (captured s f.sub (reg s (0x10064 + p * 0x400)).toInt), mark := mark }
  let reject := fun k s => traceUs u k (stat p k 1 s)
  let st := portState P
  let asleep := decide (2 ≤ (getDom s p).depth)
  let s := if st = 2 || st = 3 || asleep then s else parityError f.poison 1 p s
  if st = 2 || st = 3 then reject 38 s
  else if (st ≠ 1 && st ≠ 4) || (tree.isNone && waits.isNone) then reject 39 s
  else
    let s := usBurst p tree f s
    if st = 4 then reject 39 s
    else if asleep && waits.isNone then reject 39 (raise 0x219 (wordOf p) (wordOf f.term) s)
    else usStore { u with cycle := (getPort s p).burst } f (cellsOf (min len mx)) waits.isSome s

/-- A frame that comes in the quiesce phase of a warm reset is discarded and counted (R52). -/
def quiesceArrive (p : Nat) (s : State) : State :=
  if portUp (getPort s p) then s.modHif fun h => { h with warmRx := sat 0xFFFFFFFF (h.warmRx + 1) } else s

def execUsFrameArrival (p : Fin 64) (f : UsPresented) (s : State) : Host.Outcome State Fault Refusal :=
  .next (if s.phase = .quiesce then quiesceArrive p s else whenRunning (usArrive p f) s)

/-! Stage 6 and 7 (R24, R85, R112, R115). -/

/-- Buffers that a frame of `n` bytes needs in a ring. -/
def bufsNeeded (s : State) (r n : Nat) : Nat := ceilDiv n (bufBytes (getQueue s (4096 + r)).cfg)

/-- An earlier frame of the alloc ID waits ahead at stage 6. -/
def aheadAt6 (s : State) (u : Us) : Bool :=
  (s.tpt.us.takeWhile fun e => e.id ≠ u.id).any fun e => e.key = u.key && e.stage = .buffers && decide (e.ring = u.ring)

/-- The data writes of a frame into its buffers, each with its part of the bytes. -/
def writeBufs (id size : Nat) : List RxBuf → List Byte → State → State
  | [], _, s => s
  | b :: r, bs, s =>
    let part := bs.take size
    writeBufs id size r (bs.drop size) (fabWrite (.rxData id) b.addr part.length (bytesWords part) s)

/-- RX_BUFFERS_TAKE. DEDUCED: a stopped or draining ring gives the buffers that it holds (R61, R83), though R129 says that a ring
that is not active has none; a ring not created has none. -/
def rxTake (id : Nat) (s : State) : State :=
  match findUs s id with
  | none => s
  | some u =>
    let q := 4096 + u.ring
    let Q := getQueue s q
    let n := bufsNeeded s u.ring u.kept.length
    if u.stage ≠ .buffers || aheadAt6 s u || Q.st = .notCreated || (getQueue s Q.cfg.cq).episode || Q.cache.length < n then s
    else
      let bufs := Q.cache.take n
      let now := stampNow s
      let s := modQueue q (fun Q => { Q with cache := Q.cache.drop n }) s
      let s := modUs id (fun u => { u with stage := .writing, bufs := bufs, mark := u.mark.map fun m => (m.at 4 now).at 5 now }) s
      writeBufs id (bufBytes Q.cfg) bufs u.kept s

def execRxBuffersTake (id : Nat) (s : State) : Host.Outcome State Fault Refusal := .next (whenRunning (rxTake id) s)

/-- A frame's DATA message has started, and goes on to its end (R244, R255). -/
def leaving (s : State) (id : Nat) : Bool := s.lnk.ports.any fun e => match e.2.cur with
  | some m => decide (m.us = some id)
  | none => false

/-- RX_NO_BUFFER_TIMEOUT. -/
def rxGiveUp (id : Nat) (s : State) : State :=
  match findUs s id with
  | none => s
  | some u =>
    if u.stage = .buffers || (u.stage = .link && !leaving s id) then
      let s := s.modLnk fun l => { l with out := l.out.filter fun m => m.us ≠ some id }
      match u.link with
      | some (c, _) => dropUs id (raise 0x150 (wordOf (4096 + u.ring)) (wordOf c) (lstat c 7 1 s))
      | none =>
        let s := raise 0x150 (wordOf (4096 + u.ring)) (wordOf u.port) s
        if u.err then dropUs id (traceUs u (errCounter u.status) s) else endUs id 35 s
    else s

def execRxNoBufferTimeout (id : Nat) (s : State) : Host.Outcome State Fault Refusal := .next (whenRunning (rxGiveUp id) s)

/-- The completions of a written frame, one a buffer (R85). -/
def rxCpls (u : Us) (size : Nat) : List Cpl :=
  let n := u.bufs.length
  (List.range n).map fun i =>
    let b := u.bufs.getD i { cookie := 0, addr := 0 }
    let last := decide (i + 1 = n)
    { status := u.status, kind := if last then 1 else 2, held := u.held, stampValid := true, queue := 4096 + u.ring,
      body := [b.cookie, wordOf (u.flow + u.cls * 262144 + u.colour * 16777216), u.stamp,
               wordOf (u.tree * 512 + u.term + u.alloc * 32768 + i * 131072),
               if last then checkValue u.poly u.kept else 0,
               wordOf (min size (u.kept.length - i * size) + (if last then u.kept.length * 65536 else 0))] }

/-- Completions become ready in arrival order for one alloc ID and ring (R13), and their buffers end (R100). -/
def flushUs (key : Nat × Nat × Nat) (ring : Nat) (s : State) : State :=
  let mine := s.tpt.us.filter fun u => u.key = key && decide (u.ring = ring) && (u.stage = .writing || u.stage = .acked)
  (mine.takeWhile fun u => u.stage = .acked).foldl (fun s u =>
    let Q := getQueue s (4096 + ring)
    drainDone (4096 + ring) <| countDrained (4096 + ring) u.bufs.length <|
      (rxCpls u (bufBytes Q.cfg)).foldl (fun s c => readyCpl Q.cfg.cq c s)
        (s.modTpt fun t => { t with us := dropFirst (fun e => e.id = u.id) t.us })) s

/-- The counters of a frame whose data write has ended (R117, R118, R260). -/
def countWritten (u : Us) (s : State) : State :=
  match u.link with
  | some (c, _) => if u.status = 0 then lstat c 5 1 s else s
  | none =>
    if u.status = 9 then (if u.err then s else stat u.port 40 1 s)
    else if u.err then stat u.port 30 1 s
    else
      let s := stat u.port 17 u.len (stat u.port 16 1 s)
      let s := if isBroadcast u.kept then stat u.port 19 1 s else if isMulticast u.kept then stat u.port 18 1 s else s
      if u.held then stat u.port 36 1 s else s

/-- The counter that recorded a written frame's end (R324). -/
def writtenFate (u : Us) : Nat := if u.err then errCounter u.status else if u.status = 9 then 40 else 16

/-- The last data write of a frame is acknowledged, or has failed (R24, R25). -/
def usWritten (id : Nat) (failed : Bool) (s : State) : State :=
  match findUs s id with
  | none => s
  | some u =>
    let fate := writtenFate { u with status := if failed then 9 else u.status }
    let u' := { u with status := if failed then 9 else u.status, stage := .acked, cells := 0, poolCells := 0,
                       mark := if failed then u.mark else u.mark.map (Mark.at 6 (stampNow s)) }
    let s := countWritten u' s
    let s := match u.link with
      | some (c, k) => storeFree c k s
      | none => traceUs u' (if u.err then errCounter u.status else fate) (freeUs u.port u.cells u.poolCells s)
    flushUs u.key u.ring (modUs id (fun _ => u') s)

/-! The dispatcher (R121, R122). -/

/-- Frames in the engines. -/
def engineUse (s : State) : Nat :=
  (s.tpt.us.filter fun u => u.stage = .engine).length + (s.hif.tx.filter fun t => t.stage = .engine).length

/-- Ports whose direction has a frame waiting for dispatch. -/
def usWaiting (s : State) (p : Nat) : Bool := s.tpt.us.any fun u => u.port = p && u.stage = .dispatch
def dsWaitHead (s : State) (p : Nat) : Option Tx :=
  s.hif.tx.find? fun t => t.stage = .classify && (getPort s p).dsDisp.contains (t.q, t.idx) &&
    ((getPort s p).dsDisp.filter fun e => match findTx s e.1 e.2 with
      | some x => x.stage = .classify
      | none => false).head? = some (t.q, t.idx)

/-- The port that a direction's round robin serves next. -/
def rrNext (ptr : Nat) (wait : Nat → Bool) : Option Nat :=
  ((List.range 64).map fun i => (ptr + i) % 64).find? wait

/-- The start results of an upstream frame (R122, R144): a latch of what its engine begins with. -/
def usLatch (s : State) (u : Us) : Us :=
  let a := ((getRec s (u.tree * 512 + u.term)).allocs.getD u.alloc {})
  let d := portDefault s u.tree
  { u with stage := .engine, depth := parseDepth s, cls := bitsOf d 10 6, ring := bitsOf d 0 10, colour := 0,
           hasFlow := a.enable && a.flowValid, flow := if a.enable && a.flowValid then a.flow else 0 }

def dsLatch (s : State) (t : Tx) : Tx :=
  let d := portDefault s t.tree
  { t with stage := .engine, depth := parseDepth s, cls := bitsOf d 24 6, prio := bitsOf d 16 3, colour := 0 }

/-- FRAME_DISPATCH. -/
def dispatch (p : Nat) (up : Bool) (s : State) : State :=
  if s.cls.hold.isSome || decide (1280 ≤ engineUse s) then s
  else if up then
    if rrNext s.cls.rrUs (usWaiting s) = some p then
      match s.tpt.us.find? fun u => u.port = p && u.stage = .dispatch with
      | none => s
      | some u => modUs u.id (usLatch s) ((access 209 s).modCls fun c => { c with rrUs := (p + 1) % 64 })
    else s
  else if (List.range 64).any (usWaiting s) then s
  else if rrNext s.cls.rrDs (fun n => (dsWaitHead s n).isSome) = some p then
    match dsWaitHead s p with
    | none => s
    | some t => modTx t.q t.idx (dsLatch s) ((access 209 s).modCls fun c => { c with rrDs := (p + 1) % 64 })
  else s

def execFrameDispatch (p : Fin 64) (up : Bool) (s : State) : Host.Outcome State Fault Refusal :=
  .next (whenRunning (dispatch p up) s)

/-! The results of classification (R127–R129). -/

/-- An upstream frame leaves its engine. -/
def usClassified (u : Us) (s : State) : State :=
  let f : PFrame := { up := true, win := u.kept.take u.depth,
                      start := { flow := u.flow, hasFlow := u.hasFlow, cls := u.cls, ring := u.ring } }
  let o := parseFrame s f [u.tree, u.len % 65536, u.term, u.alloc, 0, 0, 0, 0]
  let r := o.res
  let now := stampNow s
  let s := countParse u.port true o s
  let s := modUs u.id (fun u =>
    { u with cls := r.cls, colour := r.colour, ring := u.ringFix.getD r.ring, flow := r.flow, hasFlow := r.hasFlow,
             path := r.path, stage := .ready, mark := u.mark.map (markParsed o now) }) s
  let report := r.report && decide (frame16 u.kept 12 = 0x8808)
  if report then settleUs (endUs u.id 31 (applyReport u.tree u.term u.kept u.cycle s))
  else
    let s := if r.report then addCtr (clsCtr 9) 1 s else s
    settleUs (usStage5 u.id s)

/-- A downstream frame leaves its engine, on its way to its priority queue. -/
def dsClassified (p : Nat) (t : Tx) (s : State) : State :=
  let term := match (getFlow s (txFlow t.ws)).slot with
    | some i => (getSlot s i).ctx.txTerm
    | none => 0
  let start : PRes := { flow := txFlow t.ws, hasFlow := true, cls := t.cls, prio := t.prio }
  let f : PFrame := { up := false, win := t.payload.take t.depth, start := start }
  let o := parseFrame s f [t.tree, txFrameLen t % 65536, term, 0, 0, 0, 0, 0]
  let s := countParse p false o s
  let now := stampNow s
  let s := modPort p (fun P => { P with dsDisp := P.dsDisp.filter fun e => e ≠ (t.q, t.idx) }) s
  let s := modTx t.q t.idx (fun t =>
    { t with cls := o.res.cls, colour := o.res.colour, prio := o.res.prio, stage := .waitOrder,
             mark := t.mark.map (markParsed o now) }) s
  settleTx s

/-- CLASSIFY_DONE: results leave in arrival order within a port direction. -/
def classifyDone (p : Nat) (up : Bool) (s : State) : State :=
  if up then
    match s.tpt.us.find? fun u => u.port = p && (u.stage = .dispatch || u.stage = .engine) with
    | some u => if u.stage = .engine then usClassified u s else s
    | none => s
  else match (getPort s p).dsDisp.head? with
    | none => s
    | some (q, idx) =>
      match findTx s q idx with
      | some t => if t.stage = .engine then dsClassified p t s else s
      | none => modPort p (fun P => { P with dsDisp := P.dsDisp.drop 1 }) s

def execClassifyDone (p : Fin 64) (up : Bool) (s : State) : Host.Outcome State Fault Refusal :=
  .next (whenRunning (classifyDone p up) s)

end Sys2Proof.Machine
end

