-- ==== Sys2Proof/Machine/Paging.lean ====
section
/-! DEFINITION. The caddie's page operations: page-ins and page-outs (R194–R203), prefetches (R198, R199), holds (R204), the
writes of FLOW_CREATE and FLOW_DESTROY (R192, R193), and the enable (R191). -/

namespace Sys2Proof.Machine

/-! Commands that wait for a flow (R193, R197, R206). -/

/-- A command with an opcode at its turn for a flow. -/
def turnedOn (s : State) (op f : Nat) : Option Adm :=
  s.hif.adm.find? fun a => a.stage = .turned && aOp a.ws = op && (aTarget a.ws).toNat = f

/-- REKEY_FLOW's update of a resident context (R206). -/
def rekeyNow (f i key : Nat) (s : State) : State :=
  modFlow f (fun x => { x with hNonce := false, nearDone := false })
    (touch i (changeCtx i (fun c => { c with nonce := 0, keyIndex := key }) s))

/-- FLOW_PIN at its turn, or when its page-in has ended. A flow held for PLAYBOOK takes no page-in (R204): it is answered as held,
unless its slot is resident. -/
def settlePin (a : Adm) (f : Nat) (s : State) : State :=
  let x := getFlow s f
  if x.hCheck then admDone a.q a.idx 0 [1] s
  else if x.hFault then admDone a.q a.idx 0 [2] s
  else match served s f with
  | some i => admDone a.q a.idx 0 [0] (touch i s)
  | none => if x.hPlaybook && x.slot.isNone then admDone a.q a.idx 0 [1] s else s

/-- REKEY_FLOW at its turn, or when its page-in has ended. -/
def settleRekey (a : Adm) (f : Nat) (s : State) : State :=
  let x := getFlow s f
  if x.hCheck then admDone a.q a.idx 2 [] s
  else match served s f with
  | some i => admDone a.q a.idx 0 [] (rekeyNow f i (bitsOf (aParam a.ws) 0 12) s)
  | none => if x.hFault then admDone a.q a.idx 9 [] s else s

/-- The flow's commands that its page-in was for. -/
def settleCmds (f : Nat) (s : State) : State :=
  let s := match turnedOn s 0x12 f with
    | some a => settlePin a f s
    | none => s
  match turnedOn s 0x14 f with
  | some a => settleRekey a f s
  | none => s

/-! The flows that a migration sends (R252, R271). -/

/-- A MIGRATE message of the block's own waits to be sent; without a valid route it is discarded (R245, R252). -/
def pushMig (dest : Nat) (b : Body) (s : State) : State :=
  if !routeValid s dest then noRoute none dest s
  else s.modLnk fun l =>
    { l with out := l.out ++ [{ body := b, cls := migClass s, hops := linkHops s, dest := dest, origin := ownInstance s }] }

def modMig (t : Nat) (f : MigOut → MigOut) (s : State) : State := modProt t (fun r => { r with mig := r.mig.map f }) s

/-- The flows left to send, in list order, each as it stands; one that is not resident is paged in, one that is held for
good is skipped. After the last, MIG_END goes out. -/
def sendLeft (t : Nat) (m : MigOut) : List (Nat × Nat) → State → State
  | [], s =>
    let n := match (getProt s t).mig with
      | some x => x.sent
      | none => 0
    pushMig m.dest (.migEnd m.mid m.terms.length n) (modMig t (fun x => { x with left := [], ended := true }) s)
  | (f, d) :: r, s =>
    match served s f with
    | some i =>
      let s := pushMig m.dest (.migFlow m.mid d (ctxPage (getSlot s i).ctx)) (touch i s)
      sendLeft t m r (addCtr (protCtr 4) 1 (modMig t (fun x => { x with left := r, sent := x.sent + 1 }) s))
    | none =>
      if !flowLive s f || heldBoth s f then
        let drop := fun x : MigOut => { x with left := r, flows := x.flows.filter fun e => e.1 ≠ f }
        sendLeft t m r (addCtr (protCtr 5) 1 (modMig t drop s))
      else needPage f 3 (.send f) 0 s

/-- A migration that waited for a flow goes on. -/
def settleMigs (f : Nat) (s : State) : State :=
  (s.tpt.prot.map fun e => e.1).foldl (fun s t =>
    match (getProt s t).mig with
    | some m => if (getProt s t).phase = 4 && !m.ended && (m.left.head?.map fun e => e.1) = some f then sendLeft t m m.left s else s
    | none => s) s

/-- Every need for a flow is looked at again, in the ranks' order (R195, R199, R204). -/
def serveFlow (f : Nat) (s : State) : State :=
  settleMigs f (settleCmds f (resumeParked (fun t => txFlow t.ws = f) (resumeUs f s)))

/-! FLOW_CREATE and FLOW_DESTROY: their writes (R192, R193). -/

/-- The flow table entry goes out. -/
def writeEntry (f : Nat) (live : Bool) (s : State) : State :=
  fabWrite (.ftable f) (ftableAddr s f) 2 [ftableEntry (getFlow s f) live] s

/-- What a flow keeps when it ceases to be live: its generation, the values reserved in p, and the holds that do not end with it
(R193, R204). -/
def Flow.ended (x : Flow) : Flow := { gen := x.gen, p := x.p, hNonce := x.hNonce, hFault := x.hFault }

/-- FLOW_DESTROY's steps 2 and 3; `r0` is its result. -/
def destroyEntry (f q : Nat) (idx : Word) (r0 : Nat) (s : State) : State :=
  let s := match (getFlow s f).slot with
    | some i => freeSlot i s
    | none => s
  let s := modFlow f Flow.ended s
  let s := addOp { flow := f, slot := 0, why := .destroy q idx r0, ph := .entry } (dropOp f s)
  serveFlow f (writeEntry f false s)

/-- FLOW_DESTROY acts once no page operation of the flow is in progress. -/
def destroyStart (a : Adm) (f : Nat) (s : State) : State :=
  if paging s f then s
  else
    let x := getFlow s f
    let dirty := match x.slot with
      | some i => if (getSlot s i).st = .dirty then some i else none
      | none => none
    match dirty with
    | some i =>
      if x.hCheck then destroyEntry f a.q a.idx 1 s
      else
        let c := (getSlot s i).ctx
        let s := modSlot i (fun c => { c with st := .evicting }) s
        cipherReq (addOp { flow := f, slot := i, why := .destroy a.q a.idx 0, ph := .encrypt, ctx := c } s)
    | none => destroyEntry f a.q a.idx (if x.hCheck then 1 else 0) s

/-- A page operation of a flow has ended: a FLOW_DESTROY that waited for it goes on. -/
def opEnded (f : Nat) (s : State) : State :=
  match turnedOn s 0x11 f with
  | some a => destroyStart a f s
  | none => s

/-- Flows marked in the repair map (R209). -/
def repairCount (s : State) (bit : Nat) : Nat := (s.pgr.repair.filter fun e => e.2 / bit % 2 = 1).length
def repairSet (f v : Nat) (s : State) : State := s.modPgr fun p => { p with repair := tset p.repair 0 f v }

/-- A created or installed flow is live (R192, R272). -/
def createDone (f : Nat) (o : PageOp) (s : State) : State :=
  let s := modFlow f (fun x => { x with live := true }) (dropOp f s)
  let s := repairSet f (tget s.pgr.repair f 0 % 2) s
  match o.why with
  | .create q idx => admDone q idx 0 [] s
  | _ => s

/-- A create that cannot be completed (R192); of a flow that a migration brings, it is refused (R272). -/
def createFail (f : Nat) (o : PageOp) (s : State) : State :=
  let s := dropOp f s
  match o.why with
  | .create q idx => admDone q idx 9 [] s
  | .migrate p =>
    let m := tget s.tpt.migIn p { origin := 0, mid := 0 }
    if m.flows.contains f then
      addCtr (protCtr 6) 1 (s.modTpt fun x =>
        { x with migIn := tput x.migIn p (some { m with flows := m.flows.filter (fun k => k ≠ f), flowsRefused := m.flowsRefused + 1 }) })
    else s
  | _ => s

/-- The flow table entry of a flow is in host memory. -/
def entryWritten (f : Nat) (s : State) : State :=
  match opOf s f with
  | none => s
  | some o =>
    match o.why with
    | .destroy q idx r0 => admDone q idx 0 [wordOf r0] (dropOp f s)
    | .create _ _ => createDone f o s
    | .migrate _ => createDone f o s
    | _ => s

/-- A flow that is no longer live is marked DEAD, since its entry in host memory still says otherwise (R193). -/
def markDead (f : Nat) (s : State) : State :=
  let s := repairSet f (tget s.pgr.repair f 0 % 2 + 2) s
  logWrite 0xA41 3 (wordOf f) (wordOf (repairCount s 2)) s

/-- The flow table entry could not be written, after its retry (R192, R193). -/
def entryLost (f : Nat) (s : State) : State :=
  match opOf s f with
  | none => if (getFlow s f).live then s else markDead f s
  | some o =>
    match o.why with
    | .destroy q idx r0 => admDone q idx 9 [wordOf r0] (markDead f (dropOp f s))
    | .create _ _ => createFail f o s
    | .migrate _ => createFail f o s
    | _ => s

/-! The end of page operations. -/

/-- A page-in that failed for good: the flow is held for FAULT (R202). -/
def pageInLost (f : Nat) (o : PageOp) (cipher : Bool) (s : State) : State :=
  let s := freeSlot o.slot (dropOp f s)
  let s := modFlow f (fun x => { x with hFault := true }) (addCtr (pgrCtr 14) 1 s)
  opEnded f (serveFlow f (raise 0x603 (wordOf f) (wordOf (ofBit cipher)) s))

/-- A page-out that failed for good: the slot stays DIRTY and is no victim for 1 ms (R203). -/
def pageOutLost (f : Nat) (o : PageOp) (s : State) : State :=
  let s := modSlot o.slot (fun c => { c with st := .dirty, barred := true, victim := false, changed := false }) (dropOp f s)
  opEnded f (serveFlow f (raise 0x604 (wordOf f) 0 (addCtr (pgrCtr 15) 1 s)))

/-- A read, a write or a cipher request of a flow's page failed (R192, R202, R203). -/
def pageFail (f : Nat) (cipher : Bool) (s : State) : State :=
  match opOf s f with
  | none => s
  | some o =>
    match o.why with
    | .pageIn _ => if o.retried then pageInLost f o cipher s else modOp f (fun o => { o with ph := .retryWait, retried := true }) s
    | .pageOut => if o.retried then pageOutLost f o s else modOp f (fun o => { o with ph := .retryWait, retried := true }) s
    | .destroy q idx _ =>
      if o.retried then destroyEntry f q idx 1 (raise 0x604 (wordOf f) 0 (addCtr (pgrCtr 15) 1 s))
      else modOp f (fun o => { o with ph := .retryWait, retried := true }) s
    | _ =>
      if o.retried then createFail f o s
      else if cipher then cipherReq (modOp f (fun o => { o with ph := .encrypt, retried := true }) s)
      else modOp f (fun o => { o with retried := true }) s

/-- EV_CIPHER_ERR (R36). -/
def cipherErr (f : Nat) (a1 : Word) (s : State) : State := cipherReq (pageFail f true (raise 0x620 (wordOf f) a1 s))

/-- A flow is held for CHECK and its slot given up (R204). -/
def checkHold (f cause : Nat) (s : State) : State :=
  let s := match (getFlow s f).slot with
    | some i => freeSlot i s
    | none => s
  let s := modFlow f (fun x => { x with hCheck := true }) (addCtr (pgrCtr 13) 1 s)
  raise 0x600 (wordOf f) (wordOf cause) s

/-! Page-ins (R199, R200). -/

/-- The lowest slot that is FREE. -/
def lowestFree (s : State) : Option Nat :=
  match (List.range (s.pgr.slots.length + 1)).find? fun i => (getSlot s i).st = .free with
  | some i => if i < cacheSlots then some i else none
  | none => none

/-- The clock hand's sweep for a victim, over at most `n` slots (R196). -/
def sweep : Nat → State → State × Option Nat
  | 0, s => (s, none)
  | n + 1, s =>
    let i := s.pgr.hand
    let c := getSlot s i
    let s := s.modPgr fun p => { p with hand := (i + 1) % cacheSlots }
    if c.st = .filling || c.st = .evicting || !evictable s c then sweep n s
    else if c.ref then sweep n (modSlot i (fun c => { c with ref := false }) s)
    else if c.st = .dirty then sweep n (startPageOut i true s)
    else (s, some i)

/-- A slot for a page-in: a FREE one, or a CLEAN victim. -/
def findSlot (s : State) : State × Option Nat :=
  match lowestFree s with
  | some i => (s, some i)
  | none =>
    match sweep (2 * cacheSlots) s with
    | (s, some i) => (freeSlot i (addCtr (pgrCtr 9) 1 s), some i)
    | (s, none) => (s, none)

/-- No victim: counted once for the page-in, reported once an episode (R196). -/
def noVictim (f : Nat) (s : State) : State :=
  let s := if s.pgr.waitVictim.contains f then s
    else addCtr (pgrCtr 12) 1 (s.modPgr fun p => { p with waitVictim := f :: p.waitVictim })
  if s.pgr.pressEp then s
  else raise 0x607 (wordOf (pinnedFlows s)) (wordOf (freeSlots s)) (s.modPgr fun p => { p with pressEp := true })

/-- The rank and flow of the next page-in, the prefetch that it is, and the caddie without it (R199). -/
def nextPageIn (p : Pgr) : Option (Nat × Nat × Option Prefetch × Pgr) :=
  let r3 := fun (_ : Unit) => match p.rank3 with
    | n :: r => some (3, n.flowOf, none, { p with rank3 := r, since3 := 0 })
    | [] => none
  if decide (15 ≤ p.since3) && !p.rank3.isEmpty then r3 ()
  else
    let up := if p.rank3.isEmpty then 0 else p.since3 + 1
    match p.rank1, p.rank2 with
    | (f, _) :: r, _ => some (1, f, none, { p with rank1 := r, since3 := up })
    | [], x :: r => some (2, x.flow, some x, { p with rank2 := r, since3 := up })
    | [], [] => r3 ()

/-- The end of a prefetched slot's protection: A₁ + 20 µs (R198). -/
def Prefetch.until (x : Prefetch) : Int := x.a1 + 320000

/-- The end of the protection that the flow's prefetches give it at a page-in, unless it has passed (R198). -/
def protFor (s : State) (f : Nat) : Option Int :=
  ((s.pgr.rank2 ++ s.pgr.shields).filter fun x => x.flow = f && decide (now16 s < x.until)).foldl
    (fun a x => some (max (a.getD x.until) x.until)) none

/-- Rank 3 has waited while 15 page-ins of other ranks were issued (R199). -/
def rank3Turn (p : Pgr) : Bool := decide (15 ≤ p.since3) && !p.rank3.isEmpty

/-- A prefetch whose protection would have ended by its turn is dropped (R199). -/
def dropExpired (s : State) : State :=
  let late := fun x : Prefetch => decide (x.until ≤ now16 s)
  let n := (s.pgr.rank2.takeWhile late).length
  addCtr (pgrCtr 5) n (s.modPgr fun p => { p with rank2 := p.rank2.drop n })

/-- A flow that a page-in may be made for: held for PLAYBOOK only by REKEY_FLOW (R204, R206). -/
def pageable (s : State) (f rank : Nat) : Bool :=
  let x := getFlow s f
  flowLive s f && !x.hCheck && !x.hFault && (!x.hPlaybook || (decide (rank = 3) && (turnedOn s 0x14 f).isSome))

/-- A prefetch of a flow that has a slot: it gains the protection, and counts as a hit when it holds the context; while the slot is
still to be filled, it becomes resident with that page-in (R198, R199). -/
def prefetchMeets (x : Prefetch) (s : State) : State :=
  match (getFlow s x.flow).slot with
  | none => s
  | some i =>
    let st := (getSlot s i).st
    let s := modSlot i (fun c => { c with prot := some (max (c.prot.getD x.until) x.until) }) s
    if st = .filling then modOp x.flow (fun o => { o with a0 := o.a0 ++ [x.a0] }) s
    else if st = .evicting then
      addCtr (pgrCtr 3) 1 (addCtr (pgrCtr 11) 1 (modSlot i (fun c => { c with victim := false, ref := true }) s))
    else addCtr (pgrCtr 3) 1 (touch i s)

/-- PAGE_IN_ISSUE. -/
def pageInIssue (s : State) : State :=
  let s := if s.pgr.rank1.isEmpty && !rank3Turn s.pgr then dropExpired s else s
  match nextPageIn s.pgr with
  | none => s
  | some (rank, f, pre, p) =>
    let out := { s with pgr := { p with since3 := s.pgr.since3, waitVictim := p.waitVictim.filter fun x => x ≠ f } }
    if !pageable s f rank then serveFlow f (if pre.isSome then addCtr (pgrCtr 5) 1 out else out)
    else if (getFlow s f).slot.isSome then
      match pre with
      | some x => prefetchMeets x out
      | none => serveFlow f out
    else
      let prot := protFor s f
      match findSlot s with
    | (s, none) => noVictim f s
    | (s, some i) =>
      let s := s.modPgr fun x => { x with rank1 := p.rank1, rank2 := p.rank2, rank3 := p.rank3, since3 := p.since3,
                                          shields := x.shields.filter (fun y => y.flow ≠ f),
                                          waitVictim := x.waitVictim.filter fun y => y ≠ f }
      let s := modSlot i (fun _ => { st := .filling, flow := f, prot := prot }) s
      let s := modFlow f (fun x => { x with slot := some i }) s
      let s := addOp { flow := f, slot := i, why := .pageIn rank, ph := .read, a0 := pre.toList.map fun x => x.a0 } s
      let s := perf (23 + rank) 1 s
      let s := if rank = 2 then addCtr (pgrCtr 2) 1 s else s
      fabRead (.page f) (pageAddr s f) 128 s

def execPageInIssue (s : State) : Host.Outcome State Fault Refusal := .next (whenRunning pageInIssue s)

/-- PAGE_IN_READ_DONE: the decrypt request goes out. -/
def pageInRead (f : Nat) (ws : List Word) (s : State) : State :=
  match opOf s f with
  | some o =>
    if o.ph = .read && reading s (.page f) then
      cipherReq (modOp f (fun o => { o with ph := .decrypt, unit := ws }) (returnReads (fun u => u = .page f) s))
    else s
  | none => s

def execPageInReadDone (flow : Fin 262144) (ws : List Word) (s : State) : Host.Outcome State Fault Refusal :=
  .next (whenRunning (fun s => if ws.length = 32 then pageInRead flow ws s else s) s)

/-- A prefetch that became resident after A₀ (R199). -/
def lateOne (f : Nat) (a : Int) (s : State) : State :=
  if now16 s ≤ a then s
  else
    let s := addCtr (pgrCtr 4) 1 s
    if s.pgr.lateEp then s
    else raise 0x606 (wordOf f) (wordOf (sat 0xFFFFFFFF ((now16 s - a) / 16).toNat)) (s.modPgr fun p => { p with lateEp := true })

/-- Every prefetch that a page-in served. -/
def lateCheck (f : Nat) (a0 : List Int) (s : State) : State := a0.foldl (fun s a => lateOne f a s) s

/-- PAGE_IN_DONE: the decrypted page is checked (R189). -/
def pageInDone (f : Nat) (status : Nat) (ws : List Word) (s : State) : State :=
  match cipherOp s f with
  | none => s
  | some o =>
    if o.ph ≠ .decrypt then s
    else if status ≠ 0 then cipherErr f (wordOf status) (endReq f s)
    else
      let s := endReq f s
      cipherReq <| match pageCheck f ws with
      | 0 =>
        let s := modSlot o.slot (fun c => { c with st := .clean, ctx := ctxOf ws, ref := true }) (dropOp f s)
        opEnded f (serveFlow f (lateCheck f o.a0 (addCtr (pgrCtr 0) 1 s)))
      | k => opEnded f (serveFlow f (checkHold f (k - 1) (dropOp f s)))

def execPageInDone (flow : Fin 262144) (status : BitVec 16) (ws : List Word) (s : State) : Host.Outcome State Fault Refusal :=
  .next (whenRunning (pageInDone flow status.toNat ws) s)

/-! Page-outs (R196, R200, R203). -/

/-- PAGE_OUT_ENCRYPTED: the page write goes out. -/
def pageEncrypted (f : Nat) (status : Nat) (ws : List Word) (s : State) : State :=
  match cipherOp s f with
  | none => s
  | some o =>
    if o.ph ≠ .encrypt then s
    else if status ≠ 0 then cipherErr f (wordOf status) (endReq f s)
    else
      let fresh := match o.why with
        | .create _ _ => false
        | .migrate _ => false
        | _ => o.retried
      cipherReq (fabWrite (.page f) (pageAddr s f) 128 ws (modOp f (fun o => { o with ph := .write, retried := fresh }) (endReq f s)))

/-- A page write is acknowledged. -/
def pageWritten (f : Nat) (s : State) : State :=
  match opOf s f with
  | none => s
  | some o =>
    if o.ph ≠ .write then s
    else
      match o.why with
      | .pageOut =>
        let c := getSlot s o.slot
        let s := addCtr (pgrCtr 1) 1 (dropOp f s)
        let s := if c.changed then modSlot o.slot (fun c => { c with st := .dirty, victim := false, changed := false }) s
          else if c.victim then freeSlot o.slot (addCtr (pgrCtr 9) 1 s)
          else modSlot o.slot (fun c => { c with st := .clean }) s
        opEnded f (serveFlow f s)
      | .destroy q idx r0 => destroyEntry f q idx r0 (addCtr (pgrCtr 1) 1 s)
      | .pageIn _ => s
      | _ => writeEntry f true (modOp f (fun o => { o with ph := .entry, retried := false }) s)

/-- The write of a flow's page that is outstanding leaves the fabric. -/
def endPageWrite (f : Nat) (s : State) : State :=
  s.modFab fun b => { b with writes := b.writes.filter fun w => w.use ≠ .page f }

/-- Page-outs of every context that has changed since it was paged in (R53). -/
def writeBacks (s : State) : State :=
  ((s.pgr.slots.filter fun e => e.2.st = .dirty && !e.2.barred).map fun e => e.1).foldl (fun s i => startPageOut i false s) s

/-- PAGE_OUT_DONE: in a quiesce phase a context that changed meanwhile goes out again. -/
def pageOutDone (f : Nat) (s : State) : State :=
  if writing s (fun u => u = .page f) then
    let s := pageWritten f (endPageWrite f s)
    if s.phase = .quiesce then writeBacks s else s
  else s

def execPageOutDone (flow : Fin 262144) (s : State) : Host.Outcome State Fault Refusal := .next (whenLive (pageOutDone flow) s)

/-- A DIRTY slot that a cleaning page-out may take. -/
def cleanable (s : State) : Option Nat :=
  (s.pgr.slots.find? fun e => e.2.st = .dirty && !e.2.ref && evictable s e.2).map fun e => e.1

def freeTarget (s : State) : Nat := bitsOf (reg s 0x60004) 0 14

/-- CLEANING_PAGE_OUT (R196). -/
def cleaning (s : State) : State :=
  if freeSlots s + cleanVictims s < freeTarget s then
    match cleanable s with
    | some i => pageOut i false true (addCtr (pgrCtr 10) 1 s)
    | none => s
  else s

def execCleaningPageOut (s : State) : Host.Outcome State Fault Refusal := .next (whenRunning cleaning s)

/-- PAGE_RETRY: 10 µs after a failure the operation starts again (R202, R203). -/
def pageRetry (f : Nat) (s : State) : State :=
  match opOf s f with
  | none => s
  | some o =>
    if o.ph ≠ .retryWait then s
    else match o.why with
    | .pageIn _ => fabRead (.page f) (pageAddr s f) 128 (modOp f (fun o => { o with ph := .read }) s)
    | _ => cipherReq (modOp f (fun o => { o with ph := .encrypt, ctx := (getSlot s o.slot).ctx }) s)

def execPageRetry (flow : Fin 262144) (s : State) : Host.Outcome State Fault Refusal := .next (whenLive (pageRetry flow) s)

/-- CIPHER_TIMEOUT: the request's tag is quarantined (R36). -/
def cipherTimeout (f : Nat) (s : State) : State :=
  match cipherOp s f with
  | none => s
  | some o => cipherErr f 0x10000 (endReq f (s.modPgr fun p => { p with quarTags := p.quarTags ++ o.tags }))

/-- CIPHER_LATE_RESULT. DESIGN CHOICE: the command names no tag, so the tag quarantined longest is the one freed. -/
def execCipherLateResult (s : State) : Host.Outcome State Fault Refusal :=
  .next (cipherReq (s.modPgr fun p => { p with quarTags := p.quarTags.drop 1 }))

/-! Prefetches and timers (R196, R198, R199, R203, R204). -/

/-- PREFETCH_ISSUE. -/
def prefetchIssue (f : Nat) (s : State) : State :=
  match s.pgr.sched.find? fun x => x.flow = f with
  | none => s
  | some x =>
    let s := s.modPgr fun p => { p with sched := dropFirst (fun y => y.flow = f) p.sched }
    if !flowLive s f || heldBoth s f then addCtr (pgrCtr 5) 1 s
    else if (getFlow s f).slot.isSome then prefetchMeets x s
    else if s.pgr.rank1.any (fun e => e.1 = f) then s.modPgr fun p => { p with shields := p.shields ++ [x] }
    else s.modPgr fun p => { p with rank2 := p.rank2 ++ [x] }

def execPrefetchIssue (flow : Fin 262144) (s : State) : Host.Outcome State Fault Refusal :=
  .next (whenRunning (prefetchIssue flow) s)

def execProtectionEnd (flow : Fin 262144) (s : State) : Host.Outcome State Fault Refusal :=
  .next (match (getFlow s flow).slot with
    | some i => modSlot i (fun c => { c with prot := none }) s
    | none => s)

/-- FAULT_HOLD_END: a pinned flow starts a page-in at once (R202, R204). -/
def faultEnd (f : Nat) (s : State) : State :=
  if !(getFlow s f).hFault then s
  else
    let s := modFlow f (fun x => { x with hFault := false }) s
    if (getFlow s f).pinned && !heldBoth s f && (getFlow s f).slot.isNone then needPage f 3 (.send f) 0 s else s

def execFaultHoldEnd (flow : Fin 262144) (s : State) : Host.Outcome State Fault Refusal := .next (whenRunning (faultEnd flow) s)

def execVictimBarEnd (slot : Fin 49152) (s : State) : Host.Outcome State Fault Refusal :=
  .next (modSlot slot (fun c => { c with barred := false }) s)

def execCachePressureEpisodeEnd (s : State) : Host.Outcome State Fault Refusal :=
  .next (if freeTarget s ≤ freeSlots s + cleanVictims s then s.modPgr fun p => { p with pressEp := false } else s)

def execPrefetchLateEpisodeEnd (s : State) : Host.Outcome State Fault Refusal :=
  .next (s.modPgr fun p => { p with lateEp := false })

/-! The enable (R191). -/

/-- `PGR_CTRL.RESTORE`. -/
def restores (s : State) : Bool := bitOf (reg s 0x60000) 1

/-- What an enable does with the flow table: it reads the whole of it, or writes 0 to every entry. -/
def enableTable (s : State) : State :=
  if restores s then fabRead (.restore false) (ftableAddr s 0) 524288 s else fabWrite .clearTable (ftableAddr s 0) 524288 [] s

/-- CADDIE_ENABLE: a write of `PGR_CTRL`. -/
def caddieEnable (v : Word) (s : State) : State :=
  windowWrite 0x60000 4 v (fun s =>
    if !bitOf v 0 || s.pgr.enabled then s
    else if bitsOf (reg s 0x6000C) 0 12 = 0 then s.modPgr fun p => { p with bad := true }
    else enableTable (s.modPgr fun p => { p with bad := false, enabled := true, starting := true, flows := [] })) s

def execCaddieEnable (value : Word) (s : State) : Host.Outcome State Fault Refusal := .next (caddieEnable value s)

/-- A flow table entry as the enable takes it (R190, R191). -/
def takeRestored (e : Nat × BitVec 16) (s : State) : State :=
  let v := e.2.toNat
  modFlow e.1 (fun x => { x with gen := v % 16384, live := decide (v / 16384 = 1) }) s

/-- The repair map's mark of one flow, applied (R191). -/
def applyRepair (e : Nat × Nat) (s : State) : State :=
  let s := if e.2 / 2 % 2 = 1 then
      fabWrite (.dead e.1) (ftableAddr s e.1) 2 [ftableEntry (getFlow s e.1) false] (modFlow e.1 (fun x => { x with live := false }) s)
    else s
  if e.2 % 2 = 1 && (getFlow s e.1).live then modFlow e.1 (fun x => { x with hNonce := true }) s else s

/-- Requests of an enable. -/
def RdUse.enables : RdUse → Bool
  | .restore _ => true
  | _ => false
def WrUse.enables : WrUse → Bool
  | .clearTable => true
  | .dead _ => true
  | _ => false

/-- The enable's writes are done with. -/
def endEnableWrites (s : State) : State := s.modFab fun f => { f with writes := f.writes.filter fun w => !w.use.enables }

/-- A flow table access of the enable failed again after its retry: no flow is live, and the repair map is kept. -/
def enableFail (s : State) : State :=
  (endEnableWrites (dropReads RdUse.enables s)).modPgr fun p => { p with bad := true, enabled := false, starting := false, flows := [] }

/-- An access of the enable has failed twice, with an error response: the oldest that is outstanding, the event's use 5 (R25, R281). -/
def enableError (s : State) : State :=
  match readsOf s RdUse.enables with
  | r :: _ => enableFail (addrEvent 0x110 r.addr 5 s)
  | [] => match s.fab.writes.find? fun w => w.use.enables with
    | some w => enableFail (addrEvent 0x111 w.addr 5 s)
    | none => s

/-- The enable action has ended. -/
def caddieUp (s : State) : State := s.modPgr fun p => { p with starting := false, ready := true, repair := [] }

/-- The enable ends once each of its writes is acknowledged. -/
def settleEnable (s : State) : State := if s.pgr.starting && !writing s WrUse.enables then caddieUp s else s

/-- The enable with `RESTORE` 1: entries, rejected entries, repair map. -/
def enableRestore (entries : List (Nat × BitVec 16)) (s : State) : State :=
  let bad := entries.filter fun e => 32768 ≤ e.2.toNat
  let s := addCtr (pgrCtr 17) bad.length (entries.foldl (fun s e => takeRestored e s) s)
  let s := match bad with
    | e :: _ => raise 0x608 (wordOf e.1) 0 s
    | [] => s
  s.pgr.repair.foldl (fun s e => applyRepair e s) s

/-- The whole flow table has been read. -/
def tableRead (s : State) : State :=
  let waits := s.fab.wait.filter fun r => r.use.enables
  waits.foldl (fun t r => perf (11 + r.addr / 128 % 4) (beats r.len) t)
    (returnReads RdUse.enables (s.modFab fun f => { f with wait := f.wait.filter fun r => !r.use.enables }))

/-- CADDIE_ENABLE_DONE: the flow table has come, or every write of the enable is acknowledged; or one access has failed for good. -/
def caddieReady (ok : Bool) (entries : List (Nat × BitVec 16)) (s : State) : State :=
  if !s.pgr.starting then s
  else if !ok then enableError s
  else if (readsOf s RdUse.enables).isEmpty then caddieUp (endEnableWrites s)
  else settleEnable (enableRestore entries (tableRead s))

def execCaddieEnableDone (ok : Bool) (entries : List (Nat × BitVec 16)) (s : State) : Host.Outcome State Fault Refusal :=
  .next (whenRunning (caddieReady ok entries) s)

end Sys2Proof.Machine
end

