-- ==== Sys2Proof/Machine/Sleep.lean ====
section
/-! DEFINITION. What the power manager knows (R302–R306): each domain's events and work, the depth it may take, and the wakes
that it starts while no command waits. -/

namespace Sys2Proof.Machine

/-! Known events (R302, R304, R308, R316): spans of instants in 1/16 ns; an instant is a span of its own. -/

/-- The instants before the next two pulses of a port by a lead. -/
def beforePulses (P : Port) (lead : Nat) : List (Int × Int) :=
  match P.sPulse with
  | some x => if P.cycLost then [] else [cycle16, 2 * cycle16].map fun c => (x + c - us16 lead, x + c - us16 lead)
  | none => []

/-- A span with `ALIGN_LIMIT` on either side. -/
def widened (s : State) (e : Int × Int) : Int × Int := (e.1 - 16 * alignLimit s, e.2 + 16 * alignLimit s)

/-- The events of a tree's home beside its list times: the spans of the cycles expected and of the published plan, the frames that
are queued, the launch times. -/
def treeEvents (s : State) (t : Nat) : List (Int × Int) :=
  let now := now16 s
  let c := constsOf s (homeOf s t)
  let spans := (getRTree s t).spans ++ (getGTree s t).planNext.map (spanOf s t (nextStart s t) c)
  let launches := (s.hif.tx.filter fun x => x.stage = .launch && x.tree = t).filterMap fun x => launchDelta s x.ws
  spans.map (widened s) ++ (if s.tpt.dsq.any fun d => d.tree = t then [(now, now)] else []) ++
    launches.map fun d => (now + 16 * (d : Int), now + 16 * (d : Int))

/-- The events of a port's domains; a port that is held, armed or without a tree has its list times only (R308). -/
def portEvents (s : State) (p : Nat) : List (Int × Int) :=
  let P := getPort s p
  beforePulses P 45 ++ match (if P.enabled && !P.held then treeOn s p else none) with
    | some t => treeEvents s t
    | none => []

/-- The read points of the trees that grant (R140). -/
def readPoints (s : State) : List (Int × Int) :=
  ((List.range 64).filter fun p => portUp (getPort s p) && (treeOn s p).isSome).flatMap fun p => beforePulses (getPort s p) 65

/-- The events of a domain. -/
def domEvents (s : State) (d : Nat) : List (Int × Int) :=
  if d < 128 then portEvents s (domPort d)
  else if 176 ≤ d ∧ d < 188 then s.pgr.sched.map fun x => (x.issue, x.issue)
  else if d = 210 then readPoints s
  else if d = 214 then s.mon.freezes.map fun f => (4 * (f.t : Int), 4 * (f.t : Int))
  else []

/-- The earlier of two instants, where there are two. -/
def sooner (a : Option Int) (b : Int) : Option Int :=
  match a with
  | some x => some (min x b)
  | none => some b

/-- The next event of a domain at or after an instant; a span that is open then counts as that instant. -/
def nextEvent (s : State) (d : Nat) (now : Int) : Option Int :=
  ((domEvents s d).filter fun e => decide (now ≤ e.2)).foldl (fun a e => sooner a (max e.1 now)) none

/-- A span of a domain is open. -/
def spanOpen (s : State) (d : Nat) (now : Int) : Bool := (domEvents s d).any fun e => decide (e.1 ≤ now ∧ now ≤ e.2)

/-! Work in progress (R302). -/

/-- A tree has a list that is published and not committed. -/
def listWaits (g : GTree) : Bool := !g.committed && (g.published || g.standby.isSome)

/-- The queues and crossings of a port hold something, or it works. -/
def portWork (s : State) (p : Nat) : Bool :=
  let P := getPort s p
  P.xfer.isSome || P.reset.isSome || match treeOn s p with
    | some t => (s.tpt.dsq.any fun d => d.tree = t) || (!(getGTree s t).committed && (getGTree s t).standby.isSome)
    | none => false

/-- A core unit works. -/
def unitWork (s : State) (d : Nat) : Bool :=
  match d with
  | 208 => !s.fab.reads.isEmpty || !s.fab.writes.isEmpty
  | 209 => s.cls.hold.isSome || engineUse s ≠ 0
  | 210 => s.gnt.trees.any fun e => e.2.comp.isSome && !e.2.published
  | 212 => !s.pgr.ops.isEmpty
  | 213 => s.lnk.ports.any fun e => e.2.cur.isSome
  | 214 => s.mon.image.isSome
  | 215 => true
  | _ => false

def domWork (s : State) (d : Nat) : Bool := if d < 128 then portWork s (domPort d) else unitWork s d

/-! The depth that a domain may take (R299, R301, R303–R305, R307, R308). -/

/-- The block depth (R304). -/
def blockDepth (s : State) : Nat :=
  (List.range 64).foldl (fun a p => if domUsed s p then min a (getDom s p).depth else a) 3

/-- A local `PARTNER` of some tree (R308). -/
def isPartner (s : State) (p : Nat) : Bool :=
  (List.range 64).any fun t => decide (protKind s t = 1 ∧ protPartner s t = p)

/-- The cap of a domain: its register's, its group's, and what R304–R308 set beside them. -/
def capOf (s : State) (d : Nat) : Nat :=
  let g := reg s 0x90010
  let pc := reg s (0x90100 + domPort d * 4)
  let deep :=
    if d < 64 then min (bitsOf pc 0 2) (if isPartner s d then 2 else 3)
    else if d < 128 then bitsOf pc 2 2
    else if d < 144 then
      let C := getCPort s ((d - 128) / 4)
      if C.asleep && C.rxAsleep then bitsOf g 8 2 else 0
    else if d < 176 then min (blockDepth s) (bitsOf g 0 2)
    else if d < 188 then min (blockDepth s) (min (bitsOf g 2 2) 2)
    else if d < 204 then min (blockDepth s) (min (bitsOf g 4 2) 2)
    else if d < 208 then min (blockDepth s) (bitsOf g 6 2)
    else if d < 215 then (if 2 ≤ blockDepth s then bitsOf g 10 2 else 0)
    else 0
  if (getDom s d).failed then min 1 deep else deep

/-- Nothing waits in a port core (R301). -/
def coreEmpty (s : State) (p : Nat) : Bool :=
  (getPort s p).xfer.isNone && match treeOn s p with
    | some t => (s.tpt.dsq.all fun d => d.tree ≠ t) && !listWaits (getGTree s t)
    | none => true

/-- A domain that must hold nothing to take locker holds nothing (R299, R301). -/
def lockerOk (s : State) (d : Nat) : Bool :=
  if d < 64 then coreEmpty s d else if 144 ≤ d ∧ d < 176 then bankUsed s (d - 144) = 0 else true

/-- Wake time of a depth, and entry and wake together, in ns (R301). -/
def wakeNs (k : Nat) : Nat :=
  match k with
  | 1 => 40
  | 2 => 2000
  | _ => 60000

def reach (k : Nat) : Nat :=
  match k with
  | 1 => 50
  | 2 => 3000
  | _ => 65000

/-- `PWR_CTRL`: `ENABLE` and `GUARD_NS` (R310). -/
def sleepOn (s : State) : Bool := bitOf (reg s 0x90000) 0
def guardNs (s : State) : Nat := bitsOf (reg s 0x90000) 8 16

/-- A depth fits into the time up to the next event. -/
def fits (s : State) (now : Int) (next : Option Int) (k : Nat) : Bool :=
  match next with
  | some e => decide (16 * ((reach k + guardNs s : Nat) : Int) ≤ e - now)
  | none => true

/-- The deepest depth that the cap and the next event allow (R303). -/
def chooseDepth (s : State) (d : Nat) (now : Int) (next : Option Int) : Option Nat :=
  [3, 2, 1].find? fun k => decide (k ≤ capOf s d) && (k ≠ 3 || lockerOk s d) && fits s now next k

/-- The wake from a depth for an event. -/
def wakeTime (s : State) (k : Nat) (e : Int) : Int := e - 16 * ((wakeNs k + guardNs s : Nat) : Int)

/-! The manager at work (R303, R306, R308). -/

/-- The event that was known at the entry, once the next event is another: a later one has taken the place of one that was
withdrawn; an earlier one was not known. -/
def reknown (now : Int) (known next : Option Int) : Option Int :=
  match known with
  | some e => if e ≤ now then some e else next.map fun n => max e n
  | none => none

/-- A sleeping domain: its wake follows its next event, and starts when its time has come, when the domain has work, or when its cap
is below its depth. -/
def manage (d : Nat) (s : State) : State :=
  let D := getDom s d
  let k := D.entering.getD D.depth
  if k = 0 || D.waking || D.wakeDue || !domUsed s d then s
  else
    let now := now16 s
    let next := nextEvent s d now
    let at' := next.map (wakeTime s k)
    let s := modDom d (fun D => { D with wakeAt := at', known := reknown now D.known next }) s
    if (at'.any fun x => decide (x ≤ now)) || domWork s d || decide (capOf s d < k) then startWake d s else s

/-- Every domain, while domains may sleep. -/
def manageAll (s : State) : State := if sleepOn s then eachBelow 216 manage s else s

end Sys2Proof.Machine
end

