-- ==== Sys2Proof/Machine/Clock.lean ====
section
/-! DEFINITION. What one edge of the 1.000 GHz time-island clock does while no command waits: the time base (R212, R213), and
the counters that count time (R208, R260, R311–R313), beside what the lanes send (R230–R240). -/

namespace Sys2Proof.Machine

/-- The time island runs in every phase but those of a cold reset (R59, R213). -/
def timeAlive (s : State) : Bool := s.phase = .running || s.phase = .quiesce || s.phase = .warmInit

/-- Upstream frames that wait for a page-in (R208, R210). -/
def contextWaits (s : State) : Nat := (s.tpt.us.filter fun u => u.stage = .context && needsPageIn s u.flow).length

/-- Domains awake, whether or not they enter a depth (R310). -/
def domsAwake (s : State) : Nat := ((List.range 216).filter fun d => (getDom s d).depth = 0).length

/-- Domains that spend their time at a depth: from the end of its entry to the start of the wake (R301, R311). -/
def domsAt (s : State) (k : Nat) : Nat := ((List.range 216).filter fun d => (getDom s d).depth = k && !(getDom s d).waking).length

/-- Time at bench, dugout and locker, all domains, in whole microseconds (R311). -/
def residency (s : State) : State :=
  [1, 2, 3].foldl (fun s k =>
    let acc := s.pwr.subUs.getD (k - 1) 0 + domsAt s k
    addCtr (pwrCtr (2 + k)) (acc / 1000) (s.modPwr fun p => { p with subUs := p.subUs.set (k - 1) (acc % 1000) })) s

/-- Time in which any class was paused on a port's transmitter (R260). -/
def pausedTime (s : State) : State :=
  eachBelow 4 (fun c s => if (getCPort s c).paused.isEmpty then s else lstat c 18 1 s) s

/-- The occupancy that a threshold counter watches (R313). -/
def occupancyOf (s : State) (src i : Nat) : Nat :=
  let p := i % 64
  match src with
  | 1 => if i / 64 % 2 = 1 then (s.tpt.us.filter fun u => u.port = p && u.stage = .dispatch).length
         else (s.hif.tx.filter fun t => t.stage = .classify && (getPort s p).dsDisp.contains (t.q, t.idx)).length
  | 2 => (getPort s p).usCells
  | 3 => (getPort s p).dsCells
  | 4 => 262144 - s.tpt.ports.foldl (fun a e => a + e.2.usCells + e.2.dsCells) 0
  | 5 => parkUsed s
  | 6 => s.hif.tx.length
  | 7 => tagsUsed s
  | 8 => match i with
    | 1 => s.pgr.rank1.length
    | 2 => s.pgr.rank2.length
    | 3 => s.pgr.rank3.length
    | _ => 0
  | 9 => (s.pgr.ops.filter fun o => o.why = .pageOut).length
  | 10 => (cipherOps s).length + s.pgr.quarTags.length
  | 11 => (getQueue s (6144 + i)).pend.length
  | 12 => occupancy (getCPort s (i % 4)) (i / 4 % 8)
  | 13 => engineUse s
  | 14 => min (engineUse s) (Config.bankQueue s.uptime (i % 16)).toNat
  | 15 => (s.tpt.us.filter fun u => u.port = p && u.stage = .context).length
  | _ => 0

/-- The settings of the threshold counters that count. -/
def thrSet (s : State) : List (Nat × Word) :=
  s.regs.filter fun e => decide (0xB2000 ≤ e.1 ∧ e.1 < 0xB4000 ∧ e.1 % 8 = 0 ∧ bitsOf e.2 0 4 ≠ 0)

/-- `n` core clocks pass for the threshold counters (R313). -/
def thresholds (n : Nat) (s : State) : State :=
  (thrSet s).foldl (fun s e =>
    if bitsOf (reg s (e.1 + 4)) 0 24 < occupancyOf s (bitsOf e.2 0 4) (bitsOf e.2 16 10) then
      perf (1024 + (e.1 - 0xB2000) / 8) n s
    else s) s

/-- The core clocks of one ns, eight in every five (R42), and what they count (R312). -/
def coreClocks (s : State) : State :=
  let acc := s.mon.coreAcc + 8
  let n := acc / 5
  let s := s.modMon fun m => { m with coreAcc := acc % 5 }
  let s := if s.cls.hold.isSome then perf 20 n s else s
  let s := if s.gnt.trees.any fun e => e.2.comp.isSome && !e.2.published then perf 23 n s else s
  thresholds n s

/-- One edge of the time-island clock. -/
def tick (s : State) : State :=
  if !timeAlive s then s
  else
    let s := { s with tim := timeEdge s.tim, uptime := s.uptime + 1 }
    whenLive (fun s => linkClock (coreClocks (manageAll (residency (pausedTime (addCtr (pgrCtr 7) (contextWaits s) s)))))) s

end Sys2Proof.Machine
end

