-- ==== Sys2Proof/Machine/Admin.lean ====
section
/-! DEFINITION. Admin commands (R98–R100): the checks made at fetch, the objects that commands name, and their turns. -/

namespace Sys2Proof.Machine

/-! Steps 2 and 3 of R98. -/

/-- Which operands an opcode uses: `TARGET`, `PARAM`, `ADDR` with `LEN`, and how many of `DATA0`–`DATA8` (R100). -/
def adminUses (op : Nat) : Option (Bool × Bool × Bool × Nat) :=
  match op with
  | 0x01 => some (true, false, false, 0)
  | 0x02 => some (true, false, false, 0)
  | 0x03 => some (true, false, false, 0)
  | 0x04 => some (true, false, false, 0)
  | 0x10 => some (true, false, true, 0)
  | 0x11 => some (true, false, false, 0)
  | 0x12 => some (true, false, false, 0)
  | 0x13 => some (true, false, false, 0)
  | 0x14 => some (true, true, false, 0)
  | 0x20 => some (true, true, false, 2)
  | 0x21 => some (true, false, false, 0)
  | 0x22 => some (true, false, false, 1)
  | 0x30 => some (false, false, true, 0)
  | 0x31 => some (false, false, true, 0)
  | 0x32 => some (false, true, true, 0)
  | 0x33 => some (false, true, true, 0)
  | 0x34 => some (false, true, false, 0)
  | 0x40 => some (true, false, true, 0)
  | 0x41 => some (true, false, true, 0)
  | 0x50 => some (false, true, true, 0)
  | 0x60 => some (false, true, false, 3)
  | 0x61 => some (false, false, false, 1)
  | 0x62 => some (true, false, false, 5)
  | 0x70 => some (true, false, false, 0)
  | 0x71 => some (true, true, false, 0)
  | 0x72 => some (true, true, false, 0)
  | 0x73 => some (true, false, false, 0)
  | 0x74 => some (true, false, false, 0)
  | 0x75 => some (true, false, false, 0)
  | _ => none

/-- Operands that the opcode does not use, and the descriptor's reserved bits, are 0 (R8, R98). -/
def adminReserved (ws : List Word) (u : Bool × Bool × Bool × Nat) : Bool :=
  decide (bitsOf (wAt ws 0) 24 8 = 0 ∧ bitsOf (wAt ws 5) 20 12 = 0) && (u.1 || decide (wAt ws 2 = 0)) &&
  (u.2.1 || decide (wAt ws 3 = 0)) && (u.2.2.1 || decide (wAt ws 4 = 0 ∧ wAt ws 5 = 0 ∧ wAt ws 6 = 0)) &&
  ((List.range (9 - u.2.2.2)).all fun i => wAt ws (15 - i) = 0)

/-- A whistle's programme (R225), less the checks against the time. -/
def whistleFields (ws : List Word) : Bool :=
  let w := bitsOf (aData ws 0) 8 24
  let p := (aData ws 4).toNat
  decide (bitsOf (aData ws 0) 0 2 ≠ 3 ∧ bitsOf (aData ws 0) 2 6 = 0 ∧ bitsOf (aData ws 2) 16 16 = 0
    ∧ bitsOf (aData ws 3) 30 2 = 0 ∧ p < 1073741824) &&
  (decide (bitsOf (aData ws 0) 0 2 = 0) ||
    (decide (8 ≤ w ∧ (aData ws 3).toNat < 1000000000) &&
      (if bitsOf (aData ws 0) 0 2 = 1 then decide (p = 0) else decide (1000 ≤ p ∧ p ≤ 1000000000 ∧ w + 8 ≤ p))))

/-- The values of an opcode's operands (step 2). -/
def adminValues (ws : List Word) : Bool :=
  let t := (aTarget ws).toNat
  let p := (aParam ws).toNat
  match aOp ws with
  | 0x01 => decide (t < 8192 ∧ qType t ≠ 7)
  | 0x02 => decide (t < 8192 ∧ qType t ≠ 7)
  | 0x03 => decide (t < 8192 ∧ qType t < 3)
  | 0x04 => decide (t < 8192 ∧ qType t ≠ 7)
  | 0x14 => decide (t < 262144 ∧ p < 4096)
  | 0x20 => decide (t < 32768 ∧ p < 7 ∧ bitsOf (aData ws 0) 30 2 = 0 ∧ bitsOf (aData ws 1) 0 4 < 4 ∧ bitsOf (aData ws 1) 8 24 = 0)
  | 0x21 => decide (t < 32768)
  | 0x22 => decide (t < 32768 ∧ bitsOf (aData ws 0) 24 8 = 0)
  | 0x30 => true
  | 0x31 => true
  | 0x32 => decide (96 * p + aLen ws ≤ 786432)
  | 0x33 => decide (8 * p + aLen ws ≤ 32768)
  | 0x34 => decide (1 ≤ p ∧ p ≤ 3)
  | 0x40 => decide (t < 1024)
  | 0x41 => decide (t < 4096)
  | 0x50 => decide (p < 2 ∧ aAddr ws % 64 = 0)
  | 0x60 => decide (p < 65536 ∧ (aData ws 1).toNat < 1000000000)
  | 0x61 => decide (-4294967 ≤ (aData ws 0).toInt ∧ (aData ws 0).toInt ≤ 4294967)
  | 0x62 => decide (t < 8) && whistleFields ws
  | 0x70 => decide (t < 16)
  | 0x71 => decide (t < 64 ∧ p < 16384)
  | 0x72 => decide (t < 64 ∧ p < 16384)
  | 0x73 => decide (t < 64)
  | 0x74 => decide (t < 64)
  | 0x75 => decide (t < 64)
  | _ => decide (t < 262144)

def adminFieldsOk (ws : List Word) : Bool :=
  match adminUses (aOp ws) with
  | some u => adminReserved ws u && adminValues ws
  | none => false

/-- Step 3: `LEN`. -/
def adminLenOk (ws : List Word) : Bool :=
  let n := aLen ws
  match aOp ws with
  | 0x10 => decide (n = 124)
  | 0x30 => decide (n = 32)
  | 0x31 => decide (n = 32)
  | 0x32 => decide (n % 96 = 0 ∧ 96 ≤ n ∧ n ≤ 786432)
  | 0x33 => decide (n % 8 = 0 ∧ 8 ≤ n ∧ n ≤ 32768)
  | 0x40 => decide (n = 144)
  | 0x41 => decide (n % 4 = 0 ∧ 4 ≤ n ∧ n ≤ 16384 ∧ (aTarget ws).toNat + n / 4 ≤ 4096)
  | 0x50 => decide (68864 ≤ n)
  | _ => true

/-! Objects and turns (R99). -/

/-- The commands whose buffer names their object (R98). -/
def isRule (ws : List Word) : Bool := decide (aOp ws = 0x30 ∨ aOp ws = 0x31)

/-- An exact-match entry's profile and key in its buffer (R130). -/
def ruleProf (buf : List Word) : Nat := bitsOf (wAt buf 0) 0 8
def ruleKey (buf : List Word) : List Byte := (wordsBytes ((List.range 5).map fun i => wAt buf (1 + i)))

/-- The object that a command names, as a class and a number; none for a command that names none. -/
def objectOf (a : Adm) : Option (Nat × Nat) :=
  let t := (aTarget a.ws).toNat
  let op := aOp a.ws
  if op < 0x10 then some (0, t)
  else if op < 0x20 then some (1, t)
  else if op < 0x30 then some (2, t)
  else if isRule a.ws then
    match a.buf with
    | some (some b) => some (11, emBucket (ruleProf b) (ruleKey b))
    | _ => none
  else if op < 0x40 then some (10, 0)
  else if op = 0x40 then some (5, t)
  else if op = 0x41 then some (7, 0)
  else if op = 0x60 ∨ op = 0x61 then some (8, 0)
  else if op = 0x62 then some (6, t)
  else if op = 0x70 then some (4, t)
  else if op = 0x50 then none
  else some (3, t)

/-- Two commands name the same object, or may: a rule's object is not known before its buffer has come. -/
def sameObject (a b : Adm) : Bool :=
  match objectOf a, objectOf b with
  | some x, some y => decide (x = y)
  | _, _ => isRule a.ws && isRule b.ws

/-- A tree is being re-homed or migrated (R269, R271). -/
def treeMoving (s : State) (t : Nat) : Bool :=
  let ph := (getProt s t).phase
  decide (1 ≤ ph ∧ ph ≤ 4)

/-- A flow is on the list of a migration in progress (R271). -/
def flowMoving (s : State) (f : Nat) : Bool :=
  s.tpt.prot.any fun e => match e.2.mig with
    | some m => decide (e.2.phase = 3 ∨ e.2.phase = 4) && m.flows.any fun x => x.1 = f
    | none => false

/-- The turn waits for something other than a command (R137, R269, R271). -/
def turnHeld (s : State) (a : Adm) : Bool :=
  let op := aOp a.ws
  let t := (aTarget a.ws).toNat
  if op = 0x32 ∨ op = 0x33 ∨ op = 0x34 then s.cls.copy.isSome
  else if 0x20 ≤ op ∧ op < 0x30 then treeMoving s (t / 512)
  else if 0x10 ≤ op ∧ op < 0x20 then flowMoving s t
  else false

/-- A MIGRATE_IN that is armed: it keeps no other command on its port waiting (R272). -/
def Adm.isArmed (b : Adm) : Bool := b.stage = .turned && decide (aOp b.ws = 0x72)

/-- Commands before one in fetch order that name its object, or may while they are still on their way, and those at their turn
on it. -/
def aheadOf (s : State) (a : Adm) : Bool :=
  let live := fun b : Adm =>
    b.stage = .fetching || (!b.dup && !b.isArmed && (b.stage = .waiting || b.stage = .turned) && sameObject a b)
  ((s.hif.adm.takeWhile fun b => !isAdm a.q a.idx b).any live) ||
    s.hif.adm.any fun b => b.stage = .turned && !b.isArmed && !isAdm a.q a.idx b && sameObject a b

/-- A command's turn has come. -/
def turnOk (s : State) (a : Adm) : Bool :=
  a.stage = .waiting && !a.dup && (!isRule a.ws || a.buf.isSome) && !turnHeld s a && !aheadOf s a

/-- A command at its turn: step 4 of R98 and what follows. -/
def atTurn (q : Nat) (idx : Word) (op : Nat) (f : Adm → State → State) (s : State) : State :=
  match findAdm s (5120 + q) idx with
  | some a => if aOp a.ws = op && turnOk s a then f a s else s
  | none => s

/-- The command ends with a status and nothing else. -/
def admRefuse (a : Adm) (st : Nat) (s : State) : State := admDone a.q a.idx st [] s

/-- The command stays at its turn. -/
def admHold (a : Adm) (s : State) : State := modAdm a.q a.idx (fun a => { a with stage := .turned }) s

/-- The use of a command's host read: its queue-table entry, or its buffer. -/
def bufUse (a : Adm) : RdUse := if aOp a.ws < 0x10 then .qtable a.q a.idx else .adminBuf a.q a.idx

/-- A host read for a command goes out (step 5). -/
def admRead (a : Adm) (addr len : Nat) (s : State) : State := fabRead (bufUse a) addr len s

/-- The command at its turn reads its buffer. -/
def admTurnRead (a : Adm) (s : State) : State := admRead a (aAddr a.ws) (aLen a.ws) (admHold a s)

/-! Fetch (R96, R98). -/

/-- Steps 1–3 of R98 of a command that is in the core. -/
def admArrive (q : Nat) (idx : Word) (ws : List Word) (s : State) : State :=
  let s := copied q idx s
  let twin := s.hif.adm.find? fun a => a.q = q && a.idx ≠ idx && !a.dup && a.stage ≠ .fetching && dReqId a.ws = dReqId ws
  let s := modAdm q idx (fun a => { a with ws := ws, stage := .waiting }) s
  let ended := (inLet s q (dReqId ws)).or (match twin with
    | some a => if a.stage = .ended then some a.status else none
    | none => none)
  match ended with
  | some orig => admDone q idx orig [] (addCtr (hifCtr 4) 1 (modAdm q idx (fun a => { a with dup := true }) s))
  | none =>
    if twin.isSome then addCtr (hifCtr 4) 1 (modAdm q idx (fun a => { a with dup := true }) s)
    else if !adminFieldsOk ws then admDone q idx 4 [] s
    else if !adminLenOk ws then admDone q idx 3 [] s
    else if isRule ws then fabRead (.adminBuf q idx) (aAddr ws) (aLen ws) s
    else s

/-- ADMIN_DESCRIPTOR_ARRIVE. -/
def admDescIn (q : Nat) (idx : Word) (ws : List Word) (s : State) : State :=
  if nextEntry s q = some idx then tagChecked q idx ws (admArrive q idx ws) s else s

def execAdminDescriptorArrive (q : Fin 64) (idx : Word) (ws : List Word) (s : State) : Host.Outcome State Fault Refusal :=
  .next (whenRunning (admDescIn (5120 + q) idx ws) s)

end Sys2Proof.Machine
end

