-- ==== Sys2Proof/Machine/Flows.lean ====
section
/-! DEFINITION. The flow commands (R192, R193, R197, R206). -/

namespace Sys2Proof.Machine

/-! FLOW_CREATE (R192). -/

def flowCreate (a : Adm) (s : State) : State :=
  let f := (aTarget a.ws).toNat
  if !s.pgr.ready || (getFlow s f).live || paging s f then admRefuse a 2 s else admTurnRead a s

def execFlowCreate (q : Fin 64) (idx : Word) (s : State) : Host.Outcome State Fault Refusal :=
  .next (whenRunning (atTurn q idx 0x10 flowCreate) s)

/-- A new generation's page goes to be encrypted. -/
def createStart (f : Nat) (c : Ctx) (why : PageWhy) (s : State) : State :=
  let s := modFlow f (fun x => { x with gen := (x.gen + 1) % 16384 }) s
  cipherReq (addOp { flow := f, slot := 0, why := why, ph := .encrypt, ctx := c } s)

/-- The state of FLOW_CREATE has come. -/
def flowStateIn (a : Adm) (ws : List Word) (s : State) : State :=
  let f := (aTarget a.ws).toNat
  if bitsOf (wAt ws 0) 0 18 ≠ f || !ctxReservedOk ws then admRefuse a 4 s
  else createStart f (ctxOf ws) (.create a.q a.idx) s

/-! FLOW_DESTROY (R193). -/

/-- A descriptor of the flow between step 4 and its end (R100). -/
def flowUsed (s : State) (f : Nat) : Bool :=
  decide (0 < (getFlow s f).p) || (s.hif.tx.any fun t => decide (txFlow t.ws = f) && (t.stage = .parked || t.inUse)) ||
    match (getFlow s f).slot with
    | some i => decide (0 < (getSlot s i).inUse)
    | none => false

def flowDestroy (a : Adm) (s : State) : State :=
  let f := (aTarget a.ws).toNat
  if !flowLive s f || (getFlow s f).pinned || flowUsed s f then admRefuse a 2 s else destroyStart a f (admHold a s)

def execFlowDestroy (q : Fin 64) (idx : Word) (s : State) : Host.Outcome State Fault Refusal :=
  .next (whenRunning (atTurn q idx 0x11 flowDestroy) s)

/-! FLOW_PIN and FLOW_UNPIN (R197). -/

/-- A command needs its flow resident: it is settled at once, or a rank-3 need queues for a page-in. -/
def cmdNeed (a : Adm) (f : Nat) (s : State) : State :=
  let s := settleCmds f (admHold a s)
  match findAdm s a.q a.idx with
  | some b => if b.stage = .turned then needPage f 3 (.cmd f a.q a.idx) 0 s else s
  | none => s

def flowPin (a : Adm) (s : State) : State :=
  let f := (aTarget a.ws).toNat
  if !flowLive s f || (getFlow s f).pinned then admRefuse a 2 s
  else if bitsOf (reg s 0x60004) 16 15 ≤ pinnedFlows s then admRefuse a 5 s
  else cmdNeed a f (modFlow f (fun x => { x with pinned := true }) s)

def execFlowPin (q : Fin 64) (idx : Word) (s : State) : Host.Outcome State Fault Refusal :=
  .next (whenRunning (atTurn q idx 0x12 flowPin) s)

def flowUnpin (a : Adm) (s : State) : State :=
  let f := (aTarget a.ws).toNat
  if !(getFlow s f).pinned then admRefuse a 2 s
  else admDone a.q a.idx 0 [] (modFlow f (fun x => { x with pinned := false }) s)

def execFlowUnpin (q : Fin 64) (idx : Word) (s : State) : Host.Outcome State Fault Refusal :=
  .next (whenRunning (atTurn q idx 0x13 flowUnpin) s)

/-! REKEY_FLOW (R206). -/

def rekeyFlow (a : Adm) (s : State) : State :=
  let f := (aTarget a.ws).toNat
  if !flowLive s f || (getFlow s f).hCheck || (getFlow s f).hFault then admRefuse a 2 s else cmdNeed a f s

def execRekeyFlow (q : Fin 64) (idx : Word) (s : State) : Host.Outcome State Fault Refusal :=
  .next (whenRunning (atTurn q idx 0x14 rekeyFlow) s)

end Sys2Proof.Machine
end

