-- ==== Sys2Proof/Machine/Terminals.lean ====
section
/-! DEFINITION. The terminal commands (R146, R167, R176, R182, R184), service curves (R150, R152), and the terminal record's
words (R144, R167). -/

namespace Sys2Proof.Machine

/-! The record's words (R144, R167). -/

/-- A signed number in `n` bits. -/
def inBits (n : Nat) (i : Int) : Nat := (i % (2 ^ n : Nat)).toNat

/-- The signed value of an `n`-bit field. -/
def ofBits (n v : Nat) : Int := if v < 2 ^ (n - 1) then v else (v : Int) - (2 ^ n : Nat)

def allocWord (a : AllocRec) : Word := wordOf (a.curve + a.flow * 1024 + ofBit a.enable * 268435456 + ofBit a.flowValid * 536870912)

/-- The first three words of a record: the ranging words that `RNG_REC_DATA` shows (R186). -/
def rangeWords (r : TermRec) : List Word :=
  [wordOf (r.state + r.mode * 16 + ofBit r.rangePend * 64 + r.tries * 128 + r.miss * 1024 + ofBit r.rttValid * 16384
      + ofBit r.driftOut * 32768 + inBits 16 r.drift * 65536),
   wordOf (r.rtt + r.settle * 16777216 + r.samples * 268435456), wordOf (r.eqd + inBits 8 r.autoAdj * 16777216)]

/-- The 16 words of a record. -/
def recWords (r : TermRec) : List Word :=
  let al := fun k => r.allocs.getD k {}
  rangeWords r ++
  [wordOf (r.reportCycle + r.pollAge * 256 + r.burstsM1 * 65536 + ofBit r.seqValid * 262144 + r.lastSeq * 16777216)] ++
  ((List.range 4).map fun k => allocWord (al k)) ++
  (List.range 8).map fun k =>
    let a := al (k / 2)
    if k % 2 = 0 then wordOf (a.backlog + a.granted * 65536) else wordOf (a.owed + inBits 16 a.excess * 65536)

/-- A host-written allocation word. -/
def allocOf (w : Word) (a : AllocRec) : AllocRec :=
  { a with curve := bitsOf w 0 10, flow := bitsOf w 10 18, enable := bitOf w 28, flowValid := bitOf w 29 }

/-- A record read from its words. -/
def recOf (ws : List Word) : TermRec :=
  let w := wAt ws
  { state := bitsOf (w 0) 0 4, mode := bitsOf (w 0) 4 2, rangePend := bitOf (w 0) 6, tries := bitsOf (w 0) 7 3,
    miss := bitsOf (w 0) 10 4, rttValid := bitOf (w 0) 14, driftOut := bitOf (w 0) 15, drift := ofBits 16 (bitsOf (w 0) 16 16),
    rtt := bitsOf (w 1) 0 24, settle := bitsOf (w 1) 24 4, samples := bitsOf (w 1) 28 4,
    eqd := bitsOf (w 2) 0 24, autoAdj := ofBits 8 (bitsOf (w 2) 24 8),
    reportCycle := bitsOf (w 3) 0 8, pollAge := bitsOf (w 3) 8 8, burstsM1 := bitsOf (w 3) 16 2, seqValid := bitOf (w 3) 18,
    lastSeq := bitsOf (w 3) 24 8,
    allocs := (List.range 4).map fun k => allocOf (w (4 + k))
      { backlog := bitsOf (w (8 + 2 * k)) 0 16, granted := bitsOf (w (8 + 2 * k)) 16 16, owed := bitsOf (w (9 + 2 * k)) 0 16,
        excess := ofBits 16 (bitsOf (w (9 + 2 * k)) 16 16) } }

/-! TERMINAL_SET_STATE (R146, R182, R184). -/

/-- The allocation set-up that the inline operands carry. -/
def setAllocs (a : Adm) (s : State) : State :=
  let h := (aTarget a.ws).toNat
  let w := aData a.ws 0
  let c := aData a.ws 1
  modRec h (fun r =>
    let r := if bitOf c 7 then { r with burstsM1 := bitsOf c 5 2 } else r
    if bitOf c 4 then
      let k := bitsOf c 0 4
      let x := allocOf w (r.allocs.getD k {})
      let x := if x.enable then x else { x with owed := 0, excess := 0 }
      { r with allocs := r.allocs.set k x }
    else r) s

/-- RELEASE of a flagged record bypasses the table: the whole record is written anew (R184). -/
def releaseFlagged (h : Nat) (s : State) : State :=
  let s := modRec h (fun _ => { mode := bitsOf (stateAttr s 0) 0 2 }) s
  armDone h [0, 2, 0, 0] (setPend h false s)

def terminalSet (a : Adm) (s : State) : State :=
  let h := (aTarget a.ws).toNat
  let inp := bitsOf (aParam a.ws) 0 4
  let fin := fun s => admDone a.q a.idx 0 [wordOf (getRec s h).state] s
  if (getRec s h).flagged then
    if inp = 6 then fin (setAllocs a (releaseFlagged h s)) else admRefuse a 2 s
  else if inputRefused s h inp then admRefuse a 2 s
  else fin (takeInput h inp none (setAllocs a s))

def execTerminalSetState (q : Fin 64) (idx : Word) (s : State) : Host.Outcome State Fault Refusal :=
  .next (whenRunning (atTurn q idx 0x20 terminalSet) s)

/-! RANGE_ARM and EQUALISE_SET (R167, R176). -/

/-- START_RANGE is what ARM does in the terminal's state. -/
def armStarts (s : State) (h : Nat) : Bool := decide (bitsOf (regEntry s (getRec s h).state 7) 4 3 = 1)

def rangeArm (a : Adm) (s : State) : State :=
  let h := (aTarget a.ws).toNat
  let r := getRec s h
  if r.flagged || (r.state ≠ 2 && r.state ≠ 4 && r.state ≠ 5) || inputRefused s h 7 then admRefuse a 2 s
  else if armStarts s h then takeInput h 7 none (admHold a s)
  else admDone a.q a.idx 0 [0, 3, 0, 0] (takeInput h 7 none s)

def execRangeArm (q : Fin 64) (idx : Word) (s : State) : Host.Outcome State Fault Refusal :=
  .next (whenRunning (atTurn q idx 0x21 rangeArm) s)

def equaliseSet (a : Adm) (s : State) : State :=
  let h := (aTarget a.ws).toNat
  let r := getRec s h
  if r.flagged || (r.state ≠ 4 && r.state ≠ 5 && r.state ≠ 6) then admRefuse a 2 s
  else admDone a.q a.idx 0 [] (modRec h (fun r =>
    { r with eqd := bitsOf (aData a.ws 0) 0 24, autoAdj := 0, drift := 0, samples := 0, driftOut := false, settle := 15 }) s)

def execEqualiseSet (q : Fin 64) (idx : Word) (s : State) : Host.Outcome State Fault Refusal :=
  .next (whenRunning (atTurn q idx 0x22 equaliseSet) s)

/-! Service curves (R150, R152). -/

/-- The points of a curve image, as pairs of backlog and bytes. -/
def curvePts (ws : List Word) : List (Nat × Nat) :=
  (List.range 16).map fun i => ((wAt ws (4 + 2 * i)).toNat, bitsOf (wAt ws (5 + 2 * i)) 0 21)

/-- Points rise strictly in backlog and never fall in bytes. -/
def risingPts : List (Nat × Nat) → Bool
  | a :: b :: r => decide (a.1 < b.1 ∧ a.2 ≤ b.2) && risingPts (b :: r)
  | _ => true

/-- The contents of a curve image are in order (R150). -/
def curveOk (ws : List Word) : Bool :=
  let g := (wAt ws 0).toNat
  let a := (wAt ws 1).toNat
  let m := (wAt ws 2).toNat
  decide (g < 2097152 ∧ a < 2097152 ∧ m < 2097152 ∧ bitsOf (wAt ws 3) 11 21 = 0 ∧ g % 4 = 0 ∧ a % 4 = 0 ∧ m % 4 = 0
    ∧ g ≤ a ∧ a ≤ m ∧ wAt ws 4 ≠ 0) &&
  ((List.range 16).all fun i => decide (bitsOf (wAt ws (5 + 2 * i)) 21 11 = 0 ∧ bitsOf (wAt ws (5 + 2 * i)) 0 2 = 0)) &&
  risingPts (curvePts ws)

/-- The curve of an image. -/
def curveNew (ws : List Word) (now : Nat) : Curve :=
  { guar := bitsOf (wAt ws 0) 0 21, assured := bitsOf (wAt ws 1) 0 21, max := bitsOf (wAt ws 2) 0 21,
    weight := bitsOf (wAt ws 3) 0 8, pollLog2 := bitsOf (wAt ws 3) 8 3, pts := curvePts ws, loadedAt := some now }

/-- CURVE_LOAD at its turn reads its image. -/
def curveLoad (a : Adm) (s : State) : State := admTurnRead a s

def execCurveLoad (q : Fin 64) (idx : Word) (s : State) : Host.Outcome State Fault Refusal :=
  .next (whenRunning (atTurn q idx 0x40 curveLoad) s)

/-- A curve becomes current, and its CURVE_LOAD completes. -/
def curveApply (a : Adm) (ws : List Word) (s : State) : State :=
  admDone a.q a.idx 0 [] (modCurve (aTarget a.ws).toNat (fun _ => curveNew ws s.uptime) s)

/-- The image has come: it waits when its curve was loaded less than 20 µs ago. -/
def curveIn (a : Adm) (ws : List Word) (s : State) : State :=
  let i := (aTarget a.ws).toNat
  if !curveOk ws then admRefuse a 4 s
  else
    let soon := match (getCurve s i).loadedAt with
      | some t => decide (s.uptime < t + 20000)
      | none => false
    if soon then
      modAdm a.q a.idx (fun a => { a with buf := some (some ws) }) (s.modGnt fun g => { g with loads := g.loads ++ [(i, a.q, a.idx)] })
    else curveApply a ws s

/-- CURVE_LOAD_APPLY: a load that waited is made. -/
def curveApplyNext (i : Nat) (s : State) : State :=
  match s.gnt.loads.find? fun e => e.1 = i with
  | none => s
  | some (_, q, idx) =>
    let s := s.modGnt fun g => { g with loads := dropFirst (fun e => e.1 = i) g.loads }
    match findAdm s q idx with
    | some a => match a.buf with
      | some (some ws) => curveApply a ws s
      | _ => s
    | none => s

def execCurveLoadApply (curve : Fin 1024) (s : State) : Host.Outcome State Fault Refusal :=
  .next (whenRunning (curveApplyNext curve) s)

/-! `RNG_REC_SEL` (R186). -/

/-- REC_SEL_WRITE takes a snapshot of a record's ranging words. -/
def recSelect (v : Word) (s : State) : State :=
  windowWrite 0x50010 4 v (fun s => s.modRng fun r => { r with recData := rangeWords (getRec s (bitsOf v 0 15)) }) s

def execRecSelWrite (value : Word) (s : State) : Host.Outcome State Fault Refusal := .next (recSelect value s)

end Sys2Proof.Machine
end

