-- ==== Sys2Proof/Machine/Ports.lean ====
section
/-! DEFINITION. Tree ports: the framer's constants (R17, R142, R143, R165), per-port resets (R48, R54–R56), port clocks (R43,
R57) and indications (R35). -/

namespace Sys2Proof.Machine

/-! The framer's constants (R143). -/

/-- Ranges of a profile and rate: capacity, guard, preamble, delimiter, encapsulation. -/
def constRanges (prof rate : Nat) : List (Nat × Nat) :=
  match prof, rate with
  | 0, 0 => [(560000, 640000), (32, 512), (32, 1024), (4, 32), (8, 24)]
  | 0, 1 => [(280000, 320000), (16, 256), (16, 512), (4, 32), (8, 24)]
  | 0, 2 => [(140000, 160000), (16, 128), (16, 256), (4, 32), (8, 24)]
  | 1, 0 => [(300000, 345000), (64, 1024), (64, 1024), (8, 32), (8, 24)]
  | 2, 0 => [(1120000, 1152000), (64, 1024), (64, 2048), (4, 64), (8, 32)]
  | _, _ => []

def within (r : Nat × Nat) (v : Nat) : Bool := decide (r.1 ≤ v ∧ v ≤ r.2)

/-- Every constant lies in the range of the profile chosen for the port. -/
def constsOk (s : State) (p : Nat) (c : FramerConst) : Bool :=
  let rs := constRanges (c.profile % 4) (c.profile / 4 % 4)
  let vs := [c.cap, c.guardBytes, c.preamble, c.delim, c.encap]
  decide (c.profile % 4 = bitsOf (reg s (0x10000 + p * 0x400)) 0 2) && decide (rs.length = 5) &&
  ((rs.zip vs).all fun e => within e.1 e.2) &&
  decide (c.cap % 16 = 0 ∧ c.guardBytes % 4 = 0 ∧ c.preamble % 4 = 0 ∧ c.delim % 4 = 0 ∧ c.encap % 4 = 0 ∧ c.report % 4 = 0 ∧
    64 + c.encap ≤ c.report ∧ c.report ≤ 96 ∧
    98 * 8192000000 ≤ 100 * (c.byteTime * c.cap) ∧ 100 * (c.byteTime * c.cap) ≤ 102 * 8192000000 ∧
    c.dsLat ≤ 25600000 ∧ c.usLat ≤ 25600000)

/-- The first condition of R165 that fails for a tree. -/
def timingFault (s : State) (t : Nat) (c : FramerConst) : Option Nat :=
  if ¬(rttMinNs s t ≤ rttMaxNs s t ∧ rttMaxNs s t ≤ teqdNs s t) then some 0
  else if leadBytes s t % 4 ≠ 0 ∨ rangeBytes s t % 4 ≠ 0 ∨ answerBytes s t % 4 ≠ 0 ∨ randBytes s t % 4 ≠ 0 then some 1
  else if cycleBudget s t c < 2 * slotLen s t c ∨ cycleBudget s t c < 2 * windowLen s t c then some 2
  else none

/-- The ranging unit checks a tree's values (R165). -/
def checkTiming (p t : Nat) (c : FramerConst) (s : State) : State :=
  match timingFault s t c with
  | none => modRTree t (fun r => { r with cfgBad := false }) s
  | some k => raise 0x519 (wordOf p) (wordOf k) (modRTree t (fun r => { r with cfgBad := true }) s)

/-! Domains of a port (R299, R308). -/

/-- A domain awake, with no wake held. -/
def Dom.woken (D : Dom) : Dom :=
  { D with depth := 0, entering := none, waking := false, wakeDue := false, wakeAt := none, known := none }

/-- A domain has woken, counted by the depth that it leaves (R311). -/
def wakeDom (d : Nat) (s : State) : State :=
  let D := getDom s d
  let k := D.entering.getD D.depth
  let s := modDom d Dom.woken s
  if k = 0 then s else addCtr (pwrCtr (k - 1)) 1 s

/-- A port that comes into service finds its domains, the shared groups and the core units awake (R304, R308). -/
def wakePort (p : Nat) (s : State) : State :=
  ((List.range 72).map fun i => 144 + i).foldl (fun s d => wakeDom d s) (wakeDom (64 + p) (wakeDom p s))

/-- The domain of a disabled port or lane sits in locker (R299); one that has failed, at bench (R307). -/
def Dom.laid (D : Dom) : Dom := { D.woken with depth := if D.failed then 1 else 3 }

def sleepPort (p : Nat) (s : State) : State := modDom (64 + p) Dom.laid (modDom p Dom.laid s)

/-! Re-homings and migrations that end (R264, R269, R287). -/

/-- Holds that waited for a re-homing or migration take effect once none names their port. -/
def settleHolds (s : State) : State :=
  eachBelow 64 (fun p s => if (getPort s p).heldLater && !portBusy s p then holdNow p s else s) s

/-- A tree's service resumes where it is homed: its parked descriptors go on. -/
def treeResumes (t : Nat) (s : State) : State :=
  settleHolds (resumeParked (fun x => x.tree = t) (modProt t (fun r => { r with phase := 0, mig := none }) s))

/-- Frames that waited on a partner for a rebind that does not happen belong to no tree (R262). -/
def dropRebind (t : Nat) (s : State) : State :=
  ((s.tpt.us.filter fun u => u.stage = .rebind && decide (u.tree = t)).map fun u => u.id).foldl (fun s id => endUs id 39 s) s |> settleUs

/-- A re-homing fails (R264, R269). -/
def rehomeFail (t cause : Nat) (s : State) : State :=
  let s := addCtr (protCtr 1) 1 s
  raise 0x232 (wordOf t) (wordOf cause) (treeResumes t (dropRebind t s))

/-! The service of a port. -/

/-- A port enters service with its constants (R17, R56, R140, R275). -/
def portService (p : Nat) (c : FramerConst) (s : State) : State :=
  let s := modPort p (fun P =>
    { P with enabled := true, reset := none, clockLost := false, held := false, heldLater := false, armed := none,
             consts := some c, sPulse := none, cycLost := false, burst := none, degraded := false }) s
  let s := wakePort p s
  match treeOn s p with
  | none => s
  | some t =>
    let s := checkTiming p t c (restartTree t s)
    if (getProt s t).phase = 7 then treeResumes t s else resumeParked (fun x => x.tree = t) s

/-- A port is left disabled (R54, R105, R273, R287): the cells that it still holds are the pool's from now on. -/
def portOff (p : Nat) (s : State) : State :=
  let s := modPort p (fun P =>
    { P with enabled := false, reset := none, clockLost := false, held := false, heldLater := false, armed := none,
             burst := none, degraded := false, usPool := P.usCells, dsPool := P.dsCells }) s
  let s := sleepPort p s
  match treeOn s p with
  | none => s
  | some t =>
    let s := modProt t (fun r => if r.phase = 7 then { r with phase := 0, mig := none } else r) s
    resumeParked (fun x => x.tree = t) s

/-- A per-port reset starts: hand-off stops, the queued frames end, and the port side's frame and list state goes (R49, R54, R56);
the indications are sampled anew after it (R35). The port's domains are woken first (R308). -/
def startReset (p : Nat) (restart : Bool) (cmd : Option (Nat × Word)) (s : State) : State :=
  let s := startWake (64 + p) (startWake p s)
  let s := modPort p (fun P => { P with reset := some { restart := restart, cmd := cmd }, burst := none, degraded := false }) s
  match treeOn s p with
  | none => s
  | some t =>
    let s := withdraw t (((getGTree s t).cycle + 1) % 4294967296) s
    let s := modRTree t (fun r => { r with placed := r.slots.map Slot.term }) s
    flushQueues t 6 (modGTree t (fun g =>
      { g with comp := none, published := false, standby := none, committed := false, actList := [] }) s)

/-! PORT_ENABLE, PORT_DISABLE, PORT_RESTART (R17, R54, R56, R57, R100, R269, R272). -/

def portEnable (c : FramerConst) (a : Adm) (s : State) : State :=
  let p := (aTarget a.ws).toNat
  if portState (getPort s p) ≠ 0 || !(getPort s p).good then admRefuse a 2 s
  else if !constsOk s p c then admRefuse a 4 s
  else admDone a.q a.idx 0 [] (portService p c s)

def execPortEnable (q : Fin 64) (idx : Word) (fc : FramerConst) (s : State) : Host.Outcome State Fault Refusal :=
  .next (whenRunning (atTurn q idx 0x73 (portEnable fc)) s)

def portDisable (a : Adm) (s : State) : State :=
  let p := (aTarget a.ws).toNat
  let st := portState (getPort s p)
  if portBusy s p then admRefuse a 2 s
  else if st = 3 then admDone a.q a.idx 0 [] (portOff p s)
  else if st = 1 ∨ st = 4 then startReset p false (some (a.q, a.idx)) (admHold a s)
  else admRefuse a 2 s

def execPortDisable (q : Fin 64) (idx : Word) (s : State) : Host.Outcome State Fault Refusal :=
  .next (whenRunning (atTurn q idx 0x74 portDisable) s)

def portRestart (a : Adm) (s : State) : State :=
  let p := (aTarget a.ws).toNat
  let st := portState (getPort s p)
  if portBusy s p then admRefuse a 2 s
  else if st = 1 ∨ st = 4 ∨ (st = 3 ∧ (getPort s p).good = true) then startReset p true (some (a.q, a.idx)) (admHold a s)
  else admRefuse a 2 s

def execPortRestart (q : Fin 64) (idx : Word) (s : State) : Host.Outcome State Fault Refusal :=
  .next (whenRunning (atTurn q idx 0x75 portRestart) s)

/-! The steps of a per-port reset (R54–R56). -/

/-- PORT_FLUSH_ACK: the frame in transfer has finished, and the port's domains are awake (R308). -/
def flushAck (p : Nat) (s : State) : State :=
  match (getPort s p).reset, (getPort s p).xfer with
  | some r, none => if portAwake s p then modPort p (fun P => { P with reset := some { r with flushed := true } }) s else s
  | _, _ => s

/-- A flush request that was dropped is issued again by the reset, which goes on waiting (R46). -/
def execPortFlushAck (p : Ind) (s : State) : Host.Outcome State Fault Refusal :=
  .next (whenRunning (if (getPort s p.p).reset.isSome then handshake p.lost 9 p.p (flushAck p.p) else id) s)

/-- PORT_RESET_TRUNCATE. -/
def resetTruncate (p sent : Nat) (s : State) : State := if (getPort s p).reset.isSome then downEnd p true sent s else s

def execPortResetTruncate (p : BeatEnd) (s : State) : Host.Outcome State Fault Refusal :=
  .next (whenRunning (resetTruncate p.p p.sent) s)

/-- The command that a per-port reset completes; a migration's close has none. -/
def resetCmd (r : PortReset) (st : Nat) (s : State) : State :=
  match r.cmd with
  | some (q, idx) => admDone q idx st [] s
  | none => s

/-- Frames that waited in the queues of a port that is left disabled end with PORT_RESET (R54). -/
def resetOff (p : Nat) (s : State) : State :=
  portOff p (match treeOn s p with
    | some t => flushQueues t 6 s
    | none => s)

/-- PORT_RESET_DONE. -/
def resetDone (p : Nat) (c : FramerConst) (s : State) : State :=
  match (getPort s p).reset with
  | none => s
  | some r =>
    if !r.flushed then s
    else if !r.restart then resetCmd r 0 (resetOff p s)
    else if !constsOk s p c then resetCmd r 4 (resetOff p s)
    else resetCmd r 0 (portService p c s)

def execPortResetDone (p : Fin 64) (fc : FramerConst) (s : State) : Host.Outcome State Fault Refusal :=
  .next (whenRunning (resetDone p fc) s)

/-! Port clocks (R43, R57). -/

/-- An enabled port loses its clock: `cause` 0 lost, 1 out of range. DESIGN CHOICE: a further loss while the port is still
clock-lost raises no second EV_PORT_CLOCK_LOST, while each return of the clock raises EV_PORT_CLOCK_RESTORED. -/
def clockGone (p cause : Nat) (s : State) : State :=
  let P := getPort s p
  if !P.enabled || P.clockLost then s
  else
    let s := modPort p (fun P => { P with clockLost := true, burst := none }) s
    let s := if (getPort s p).xfer.isSome then downLost p (stat p 13 1 s) else s
    let s := raise 0x216 (wordOf p) (wordOf cause) s
    match treeOn s p with
    | none => s
    | some t =>
      let s := flushQueues t 7 s
      if (getProt s t).phase = 2 then rehomeFail t 5 s else s

/-- A re-homing whose partner's clock goes before it is rebound fails (R269). -/
def partnerGone (p : Nat) (s : State) : State :=
  match rebindTree s p with
  | some t => rehomeFail t 0 s
  | none => s

/-- PORT_CLOCK_LOST. -/
def clockLost (p : Nat) (s : State) : State :=
  partnerGone p <| clockGone p 0 (modPort p (fun P => { P with freqMhz := 0, present := false, good := false, lostSeen := P.lostSeen || P.good }) s)

def execPortClockLost (p : Fin 64) (s : State) : Host.Outcome State Fault Refusal := .next (whenRunning (clockLost p) s)

/-- PORT_CLOCK_MEASURE: a measurement of no edges finds the clock lost. -/
def clockMeasure (p khz : Nat) (s : State) : State :=
  if khz = 0 then clockLost p s
  else
    let was := (getPort s p).good
    let ok := decide (248000 ≤ khz ∧ khz ≤ 324000)
    let s := modPort p (fun P =>
      { P with freqMhz := sat 1023 (khz / 1000), present := true, good := ok, lostSeen := P.lostSeen || (was && !ok) }) s
    if !ok then partnerGone p (clockGone p 1 s)
    else if !was && (getPort s p).clockLost then raise 0x217 (wordOf p) (wordOf (getPort s p).freqMhz) s
    else s

def execPortClockMeasure (p : Fin 64) (khz : Nat) (s : State) : Host.Outcome State Fault Refusal :=
  .next (whenRunning (clockMeasure p khz) s)

/-! The degraded-signal indication (R35). -/

def degradedRise (p : Nat) (s : State) : State :=
  if !reads (getPort s p) || (getPort s p).degraded then s
  else raise 0x213 (wordOf p) 0 (modPort p (fun P => { P with degraded := true }) s)

def execSdDegradedRise (p : Ind) (s : State) : Host.Outcome State Fault Refusal :=
  .next (whenRunning (indication p (degradedRise p.p)) s)

def degradedFall (p : Nat) (s : State) : State :=
  if !reads (getPort s p) || !(getPort s p).degraded then s
  else raise 0x214 (wordOf p) 0 (modPort p (fun P => { P with degraded := false }) s)

def execSdDegradedFall (p : Ind) (s : State) : Host.Outcome State Fault Refusal :=
  .next (whenRunning (indication p (degradedFall p.p)) s)

end Sys2Proof.Machine
end

