-- ==== Sys2Proof/Machine/Protect.lean ====
section
/-! DEFINITION. Protection switching: re-homings (R262–R269) and migrations at their source and at their destination
(R270–R273). -/

namespace Sys2Proof.Machine

/-! What a re-homing and a migration share (R265, R268). -/

/-- Step 1 of R265: the list being made goes, and the ranging unit expects nothing of the tree. -/
def freeze (t : Nat) (s : State) : State :=
  let g := getGTree s t
  let s := if g.committed then s else withdraw t ((g.cycle + 1) % 4294967296) s
  dropExpect t (modGTree t (fun g =>
    if g.committed then g else { g with comp := none, published := false, standby := none }) s)

/-- `TPT_PROT_DELTA` of a tree, in ns (R276). -/
def protDelta (s : State) (t : Nat) : Int := (reg s (0x10074 + t * 0x400)).toInt

/-- A record after a change of the round trip by `d` ns (R268). -/
def shiftRec (d : Int) (r : TermRec) : TermRec :=
  if r.flagged then r
  else
    let v := (r.rtt : Int) + 16 * d
    let ok := decide (0 ≤ v ∧ v < 16777216)
    { r with rtt := if r.rttValid && ok then v.toNat else r.rtt, rttValid := r.rttValid && ok, miss := 0, drift := 0, samples := 0,
             driftOut := false, settle := 15 }

/-- Step 4 of R265: the tree's records and working values change by the signed delta (R268). -/
def equalise (t : Nat) (d : Int) (side : Bool) (s : State) : State :=
  let s := eachBelow 512 (fun k s => modRec (t * 512 + k) (shiftRec d) s) s
  modRTree t (fun r => { r with useDelta := if side then protDelta s t else 0 }) s

/-- The signed delta of a move to a side. -/
def deltaTo (s : State) (t : Nat) (side : Bool) : Int :=
  if (getProt s t).side = side then 0 else if side then protDelta s t else -protDelta s t

/-! The start of a re-homing (R264). -/

/-- The first condition of R264 that fails. -/
def rehomeFault (s : State) (t : Nat) : Option Nat :=
  let k := protKind s t
  let p := otherHome s t
  let h := homeOf s t
  let P := getPort s p
  if k = 1 ∧ ¬(P.enabled = true ∧ P.good = true ∧ treeOn s p = none) then some 0
  else if k = 1 ∧ (reg s (0x10000 + p * 0x400) ≠ reg s (0x10000 + h * 0x400) ∨
      reg s (0x10010 + p * 0x400) ≠ reg s (0x10010 + h * 0x400)) then some 1
  else if k = 2 ∧ (routeValid s (protInstance s t) = false ∨ ownInstance s = protInstance s t) then some 2
  else if (bitsOf (rngTree s t 1) 0 20 : Int) + deltaTo s t (getProt s t).target < 0 then some 3
  else if k = 3 then some 4
  else none

/-- A migration starts: the tree is frozen and drains (R271). -/
def migStart (t dest : Nat) (cmd : Option (Nat × Word)) (s : State) : State :=
  let m : MigOut := { mid := s.tpt.migNext, dest := dest, partner := protPartner s t, cmd := cmd }
  let s := s.modTpt fun x => { x with migNext := (x.migNext + 1) % 65536 }
  modProt t (fun r => { r with phase := 3, mig := some m }) s

/-- The check of R264, and the phase that follows it. -/
def rehomeCheck (t : Nat) (s : State) : State :=
  match rehomeFault s t with
  | some k => rehomeFail t k s
  | none => if protKind s t = 2 then migStart t (protInstance s t) none s else s

/-- The tree that a pulse on a port is about: the one homed on it, or one whose local partner it is. -/
def pulseTree (s : State) (p : Nat) : Option Nat :=
  (treeOn s p).or ((List.range 64).find? fun t => protKind s t = 1 && otherHome s t = p)

/-- Whether a pulse starts a re-homing (R35, R264, R287). -/
def pulseStarts (s : State) (p t : Nat) (side : Bool) (recent : Bool) : Bool :=
  let r := getProt s t
  r.phase = 0 && r.side ≠ side && !recent && !(getPort s (homeOf s t)).held && (getPort s p).enabled

/-- PROT_SWITCH: a local partner wakes at the pulse (R308). -/
def protSwitch (p : Nat) (side : Bool) (s : State) : State :=
  let P := getPort s p
  if !reads P then s
  else
    let recent := match P.lastProt with
      | some u => decide (s.uptime < u + 2000000)
      | none => false
    let s := modPort p (fun P => { P with protSide := side, lastProt := some s.uptime }) s
    match pulseTree s p with
    | none => s
    | some t =>
      let tell := raise 0x215 (wordOf p) (wordOf (t + ofBit side * 256))
      let s := if 1 ≤ (getProt s t).phase ∧ (getProt s t).phase ≤ 3 then modProt t (fun r => { r with target := side }) s else s
      if pbReaction (pbEntry s 0x215) ≠ 7 then tell s
      else if (getPort s (homeOf s t)).held then tell (reacted false s)
      else
        let s := reacted true s
        if pulseStarts s p t side recent then
          let s := modProt t (fun r => { r with phase := 1, target := side, t0 := s.uptime, equalised := false }) s
          let s := if protKind s t = 1 && (getPort s (otherHome s t)).enabled then
              startWake (64 + otherHome s t) (startWake (otherHome s t) s)
            else s
          rehomeCheck t (tell (freeze t s))
        else tell s

def execProtSwitch (p : Ind) (side : Bool) (s : State) : Host.Outcome State Fault Refusal :=
  .next (whenRunning (indication p (protSwitch p.p side)) s)

/-! Rebind and resume (R265, R267, R269). -/

/-- A list with entries has been committed for a tree's next cycle. -/
def nextGranted (g : GTree) : Bool :=
  g.committed && match g.standby with
    | some c => !c.entries.isEmpty
    | none => false

/-- Until when frames presented on a home that is left still belong to its tree, in 1/16 ns: to the end of the last cycle granted
there, by TEQD plus 20 µs (R267). -/
def formerUntil (s : State) (t : Nat) : Int :=
  ((getPort s (homeOf s t)).sPulse.getD (now16 s)) + (if nextGranted (getGTree s t) then 2 * cycle16 else cycle16) +
    16 * teqdNs s t + us16 20

/-- The tree's home becomes its partner, and its frames that waited there are classified; the lists stay with the old home. -/
def rebind (t : Nat) (s : State) : State :=
  let old := homeOf s t
  let new := otherHome s t
  let s := modPort old (fun P => { P with former := some (t, formerUntil s t) }) s
  let s := modGTree t (fun g => { g with comp := none, published := false, standby := none, committed := false, actList := [] }) s
  let s := modProt t (fun r => { r with home := if new = t then none else some new }) s
  ((s.tpt.us.filter fun u => u.stage = .rebind && decide (u.tree = t)).map fun u => u.id).foldl (fun s id => usStage3 id s) s

/-- REHOME_REBIND: steps 3 and 4 of R265, towards the side that the tree is not on. A local re-homing ends the frame still in
transfer on the old home as in R54. When the target side has changed meanwhile, the steps run once more (R269). -/
def rehomeRebind (t : Nat) (s : State) : State :=
  let r := getProt s t
  if r.phase ≠ 1 then s
  else if protKind s t = 1 && !(getPort s (otherHome s t)).good then rehomeFail t 0 s
  else
    let goal := !r.side
    let d := deltaTo s t goal
    let s := if protKind s t = 1 then rebind t (downCut (homeOf s t) s) else s
    let s := equalise t d goal s
    if r.target ≠ goal then modProt t (fun x => { x with side := goal }) s
    else resumeParked (fun x => x.tree = t) (modProt t (fun x => { x with side := goal, phase := 2, equalised := true }) s)

def execRehomeRebind (t : Fin 64) (s : State) : Host.Outcome State Fault Refusal := .next (whenRunning (rehomeRebind t) s)

/-- REHOME_RESUME: when the target side has changed meanwhile, steps 3 and 4 run once more. -/
def rehomeResume (t : Nat) (s : State) : State :=
  let r := getProt s t
  if r.phase ≠ 2 || !r.equalised then s
  else if r.target ≠ r.side then freeze t (modProt t (fun x => { x with phase := 1, equalised := false }) s)
  else
    let s := addCtr (protCtr 0) 1 (treeResumes t s)
    raise 0x231 (wordOf t) (wordOf ((s.uptime - r.t0) / 1000)) s

def execRehomeResume (t : Fin 64) (s : State) : Host.Outcome State Fault Refusal := .next (whenRunning (rehomeResume t) s)

/-! Migration at the source (R270, R271, R273). -/

/-- MIGRATE_OUT at its turn. -/
def migrateOut (a : Adm) (s : State) : State :=
  let p := (aTarget a.ws).toNat
  let st := portState (getPort s p)
  match treeOn s p with
  | none => admRefuse a 2 s
  | some t =>
    if (st ≠ 1 ∧ st ≠ 4) || portBusy s p then admRefuse a 2 s
    else migStart t (aParam a.ws).toNat (some (a.q, a.idx)) (freeze t (admHold a s))

def execMigrateOut (q : Fin 64) (idx : Word) (s : State) : Host.Outcome State Fault Refusal :=
  .next (whenRunning (atTurn q idx 0x71 migrateOut) s)

/-- The list's entries that name a live flow and hold no reserved bit (R270). -/
def migEntries (s : State) (list : List (Word × Word)) : List (Nat × Nat) :=
  (list.filter fun e => decide (bitsOf e.1 18 14 = 0 ∧ bitsOf e.2 18 14 = 0) && flowLive s (bitsOf e.1 0 18)).map fun e =>
    (bitsOf e.1 0 18, bitsOf e.2 0 18)

/-- Terminals that are not in IDLE, in ascending number. -/
def migTerms (s : State) (t : Nat) : List Nat := (List.range 512).filter fun k => (getRec s (t * 512 + k)).state ≠ 0

/-- Step 3 of R271: the messages go out. -/
def migSend (t : Nat) (s : State) : State :=
  match (getProt s t).mig with
  | none => s
  | some m =>
    let b : MigBegin := { mid := BitVec.ofNat 16 m.mid, srcPort := Fin.ofNat 64 (homeOf s t), dstPort := Fin.ofNat 64 m.partner,
                          terms := m.terms.length, flows := m.flows.length }
    let s := pushMig m.dest (.migBegin b) s
    let s := m.terms.foldl (fun s k => pushMig m.dest (.migTerm m.mid k (recWords (getRec s (t * 512 + k)))) s) s
    sendLeft t m m.flows (modMig t (fun x => { x with left := x.flows, sent := 0, ended := false }) s)

/-- The list of a migration has come (R270). -/
def listIn (t : Nat) (list : List (Word × Word)) (s : State) : State :=
  let flows := migEntries s list
  migSend t (modMig t (fun m => { m with flows := flows }) (addCtr (protCtr 5) (list.length - flows.length) s))

/-- `TPT_MIG_LIST` of a tree (R276). -/
def migListAddr (s : State) (t : Nat) : Nat :=
  bitsOf (reg s (0x10078 + t * 0x400)) 3 29 * 8 + bitsOf (reg s (0x1007C + t * 0x400)) 0 20 * 4294967296

/-- MIGRATION_DRAIN_END: the drain is over and the list is read, or, with a list, that read has returned. -/
def drainEnd (t : Nat) (list : Option (List (Word × Word))) (s : State) : State :=
  let r := getProt s t
  match r.mig, list with
  | none, _ => s
  | some m, none =>
    if r.phase ≠ 3 then s
    else if m.cmd.isNone && r.target = r.side then treeResumes t s
    else
      let n := bitsOf (reg s (0x10080 + t * 0x400)) 0 15
      let s := modProt t (fun r => { r with phase := 4, mig := some { m with terms := migTerms s t, count := n } }) s
      if n = 0 then listIn t [] s else fabRead (.migList t) (migListAddr s t) (8 * n) s
  | some m, some l =>
    if r.phase = 4 && reading s (.migList t) && decide (l.length = m.count) then
      listIn t l (returnReads (fun u => u = .migList t) s)
    else s

def execMigrationDrainEnd (t : Fin 64) (list : Option (List (Word × Word))) (s : State) : Host.Outcome State Fault Refusal :=
  .next (whenRunning (drainEnd t list) s)

/-- The command that started a migration completes. -/
def migCmd (m : MigOut) (st : Nat) (s : State) : State :=
  match m.cmd with
  | some (q, idx) => admDone q idx st [] s
  | none => s

/-- A migration fails: the tree stays frozen (R273). `arg` is 0xFF for a timeout. -/
def migFail (t arg : Nat) (m : MigOut) (s : State) : State :=
  let s := modProt t (fun r => { r with phase := 7, mig := none }) s
  settleHolds (migCmd m (if arg = 0xFF then 7 else arg) (raise 0x234 (wordOf t) (wordOf arg) s))

/-- The read of a migration's list has failed. DESIGN CHOICE: R25 and R273 do not say what follows; the migration fails with
FABRIC_ERROR. -/
def listLost (t : Nat) (s : State) : State :=
  match (getProt s t).mig with
  | some m => if (getProt s t).phase = 4 then migFail t 9 m (dropReads (fun u => u = .migList t) s) else s
  | none => s

/-- A flow ceases to be live without a write-back, keeping its generation (R271, R273). -/
def dropFlow (f : Nat) (s : State) : State :=
  let s := match (getFlow s f).slot with
    | some i => freeSlot i s
    | none => s
  let s := modFlow f Flow.ended (dropOp f s)
  serveFlow f (writeEntry f false s)

/-- A terminal that was sent returns to IDLE by CLEAR. -/
def clearTerm (h : Nat) (s : State) : State :=
  regAction h 6 4 none (modRec h (fun r => { r with state := 0, mode := bitsOf (stateAttr s 0) 0 2 }) s)

/-- Step 5 of R271. -/
def migClose (t st : Nat) (m : MigOut) (s : State) : State :=
  let s := m.flows.foldl (fun s e => dropFlow e.1 s) s
  let s := m.terms.foldl (fun s k => clearTerm (t * 512 + k) s) s
  let s := modProt t (fun r => { r with phase := 0, mig := none }) s
  let s := startReset (homeOf s t) false none (addCtr (protCtr 2) 1 s)
  migCmd m st (raise 0x233 (wordOf t) (wordOf (m.mid + st * 65536)) (settleHolds s))

/-- The tree whose migration an answer names. -/
def migTree (s : State) (origin mid : Nat) : Option (Nat × MigOut) :=
  (List.range 64).findSome? fun t => match (getProt s t).mig with
    | some m => if (getProt s t).phase = 4 && m.mid = mid && m.dest = origin then some (t, m) else none
    | none => none

/-- MIG_DONE has come (R271, R273). -/
def migDoneIn (origin mid st : Nat) (s : State) : State :=
  match migTree s origin mid with
  | none => s
  | some (t, m) => if st = 7 ∨ st = 2 then migFail t st m s else migClose t st m s

/-- MIG_DONE_TIMEOUT: the whole migration is sent once more, or fails. -/
def migDoneLate (t : Nat) (s : State) : State :=
  match (getProt s t).mig with
  | none => s
  | some m =>
    if (getProt s t).phase ≠ 4 || !m.ended then s
    else if m.attempt = 0 then migSend t (modMig t (fun x => { x with attempt := 1 }) s)
    else migFail t 0xFF m s

def execMigDoneTimeout (t : Fin 64) (s : State) : Host.Outcome State Fault Refusal := .next (whenRunning (migDoneLate t) s)

/-! Migration at the destination (R272, R273). -/

/-- MIGRATE_IN at its turn: cycles are counted, with empty lists, from the framer's next pulse (R140, R272). -/
def migrateIn (c : FramerConst) (a : Adm) (s : State) : State :=
  let p := (aTarget a.ws).toNat
  if portState (getPort s p) ≠ 0 || !(getPort s p).good then admRefuse a 2 s
  else if !constsOk s p c then admRefuse a 4 s
  else
    let s := modPort p (fun P => { P with armed := some (a.q, a.idx), consts := some c, sPulse := none, cycLost := false }) (admHold a s)
    let s := s.modTpt fun x => { x with migIn := tput x.migIn p (some { origin := (aParam a.ws).toNat, mid := 0 }) }
    let s := match treeOn s p with
      | some t => restartTree t s
      | none => s
    modProt p (fun r => if r.phase = 0 then { r with phase := 5 } else r) (wakePort p s)

def execMigrateIn (q : Fin 64) (idx : Word) (fc : FramerConst) (s : State) : Host.Outcome State Fault Refusal :=
  .next (whenRunning (atTurn q idx 0x72 (migrateIn fc)) s)

def getMigIn (s : State) (p : Nat) : Option MigIn := tfind s.tpt.migIn p
def modMigIn (p : Nat) (f : MigIn → MigIn) (s : State) : State :=
  s.modTpt fun x => { x with migIn := tput x.migIn p ((tfind x.migIn p).map f) }

/-- A terminal record in IDLE, as after reset. -/
def idleRec (s : State) : TermRec := { mode := bitsOf (stateAttr s 0) 0 2 }

/-- Everything that a migration has installed goes, and the port stays armed (R273). -/
def uninstall (p : Nat) (s : State) : State :=
  match getMigIn s p with
  | none => s
  | some m =>
    let s := m.flows.foldl (fun s f => dropFlow f s) s
    let s := m.terms.foldl (fun s k => setPend (p * 512 + k) false (modRec (p * 512 + k) (fun _ => idleRec s) s)) s
    modProt p (fun r => if r.phase = 6 then { r with phase := 5 } else r)
      (modMigIn p (fun m => { origin := m.origin, mid := 0 }) s)

/-- CANCEL_IN. -/
def cancelIn (p : Nat) (s : State) : State :=
  match (getPort s p).armed with
  | none => s
  | some (q, idx) =>
    let s := uninstall p s
    let s := modProt p (fun r => if r.phase = 5 then { r with phase := 0 } else r) s
    let s := s.modTpt fun x => { x with migIn := tput x.migIn p none }
    admDone q idx 7 [] (portOff p s)

def execCancelIn (p : Fin 64) (s : State) : Host.Outcome State Fault Refusal :=
  .next (windowWrite (0x10088 + p * 0x400) 4 1 (cancelIn p) s)

/-- An answer to the origin of a migration. -/
def answer (origin mid st : Nat) (s : State) : State := pushMig origin (.migDone mid st) s

/-- MIG_BEGIN has come: a repeated one is answered again, or starts the installation anew. -/
def migBeginIn (origin : Nat) (b : MigBegin) (s : State) : State :=
  let p := b.dstPort.val
  let mid := b.mid.toNat
  match s.tpt.migDone.find? fun e => e.1 = origin ∧ e.2.1 = mid with
  | some e => answer origin mid e.2.2 s
  | none =>
    match (getPort s p).armed, getMigIn s p with
    | some _, some m =>
      if m.origin ≠ origin then answer origin mid 2 s
      else
        let s := if m.begun then uninstall p s else s
        let s := modMigIn p (fun m => { origin := m.origin, mid := mid, begun := true }) s
        let s := if homeOf s p = p then s else restartTree p s
        modProt p (fun r => { r with home := none, phase := 6 }) s
    | _, _ => answer origin mid 2 s

/-- The port that installs a migration. -/
def migPort (s : State) (origin mid : Nat) : Option Nat :=
  (s.tpt.migIn.find? fun e => e.2.begun && e.2.origin = origin && e.2.mid = mid).map fun e => e.1

/-- MIG_TERMINAL has come. -/
def migTermIn (origin mid term : Nat) (ws : List Word) (s : State) : State :=
  match migPort s origin mid with
  | none => s
  | some p =>
    let h := p * 512 + term
    if (getRec s h).state ≠ 0 || (getRec s h).flagged then
      addCtr (protCtr 6) 1 (modMigIn p (fun m => { m with termsRefused := m.termsRefused + 1 }) s)
    else
      let r := shiftRec (protDelta s p) (recOf ws)
      setPend h r.rangePend (modMigIn p (fun m => { m with terms := m.terms ++ [term] }) (modRec h (fun _ => r) s))

/-- MIG_FLOW has come: the context takes its handle here, and its tree. -/
def migFlowIn (origin mid flow : Nat) (ws : List Word) (s : State) : State :=
  match migPort s origin mid with
  | none => s
  | some p =>
    if !s.pgr.ready || (getFlow s flow).live || paging s flow then
      addCtr (protCtr 6) 1 (modMigIn p (fun m => { m with flowsRefused := m.flowsRefused + 1 }) s)
    else
      let bad := decide (pageCheck flow ws = 1)
      let s := createStart flow { ctxOf ws with flow := flow, txPort := p } (.migrate p) s
      let s := modMigIn p (fun m => { m with flows := m.flows ++ [flow], anyHeld := m.anyHeld || bad }) s
      if bad then raise 0x600 (wordOf flow) 0 (addCtr (pgrCtr 13) 1 (modFlow flow (fun x => { x with hCheck := true }) s)) else s

/-- The port of an installed migration enters service with the constants read at its arming, and its tree's cycles go on (R265,
R272). DEDUCED: a clock that was lost meanwhile leaves it clock-lost (R57). -/
def migService (p : Nat) (s : State) : State :=
  let s := modPort p (fun P =>
    { P with enabled := true, held := false, heldLater := false, armed := none, burst := none, degraded := false }) s
  let s := wakePort p s
  let s := match treeOn s p, (getPort s p).consts with
    | some t, some c => resumeParked (fun x => x.tree = t) (checkTiming p t c s)
    | _, _ => s
  if (getPort s p).good then s else clockGone p 0 s

/-- A flow that a migration brings to a port is still being created. -/
def creating (s : State) (p : Nat) : Bool := s.pgr.ops.any fun o => o.why = .migrate p

/-- A migration whose MIG_END has come is installed once each of its flows is (R272). -/
def settleMigIn (p : Nat) (s : State) : State :=
  match getMigIn s p, (getPort s p).armed with
  | some m, some (q, idx) =>
    if !m.ended || creating s p then s
    else
      let st := if 0 < m.termsRefused + m.flowsRefused then 2 else if m.anyHeld then 0x0A else 0
      let s := answer m.origin m.mid st s
      let s := s.modTpt fun x => { x with migIn := tput x.migIn p none, migDone := (m.origin, m.mid, st) :: x.migDone }
      let s := migService p (modProt p (fun r => { r with phase := 0 }) s)
      admDone q idx st [wordOf m.mid, wordOf m.terms.length, wordOf m.flows.length, wordOf m.flowsRefused] (addCtr (protCtr 3) 1 s)
  | _, _ => s

def settleMigIns (s : State) : State := (s.tpt.migIn.map fun e => e.1).foldl (fun s p => settleMigIn p s) s

/-- MIG_END has come. -/
def migEndIn (origin mid terms flows : Nat) (s : State) : State :=
  match migPort s origin mid with
  | none => s
  | some p =>
    match getMigIn s p with
    | none => s
    | some m =>
      if terms ≠ m.terms.length + m.termsRefused ∨ flows ≠ m.flows.length + m.flowsRefused then
        answer origin mid 7 (uninstall p s)
      else settleMigIn p (modMigIn p (fun m => { m with ended := true }) s)

/-- MIG_END_TIMEOUT. -/
def migEndLate (p : Nat) (s : State) : State :=
  match getMigIn s p with
  | some m => if m.begun && !m.ended then uninstall p s else s
  | none => s

def execMigEndTimeout (p : Fin 64) (s : State) : Host.Outcome State Fault Refusal := .next (whenRunning (migEndLate p) s)

/-! Results of the cipher engine that can end the creation of a flow that a migration brings (R36, R192, R272). -/

def execPageOutEncrypted (flow : Fin 262144) (status : BitVec 16) (ws : List Word) (s : State) :
    Host.Outcome State Fault Refusal :=
  .next (whenLive (fun s => settleMigIns (pageEncrypted flow status.toNat ws s)) s)

def execCipherTimeout (flow : Fin 262144) (s : State) : Host.Outcome State Fault Refusal :=
  .next (whenLive (fun s => settleMigIns (cipherTimeout flow s)) s)

end Sys2Proof.Machine
end

