-- ==== Sys2Proof/Machine/Queues.lean ====
section
/-! DEFINITION. The queue commands (R61–R64, R97, R100), the bootstrap pair (R84), index reads (R66, R92), the second reading
of an entry (R73), and receive buffers (R83). -/

namespace Sys2Proof.Machine

/-! Queue-table entries (R64). -/

/-- The entry of a queue lies at its number's place in the queue table (R63). -/
def qtableAddr (s : State) (q : Nat) : Nat := regAddr s 0x100 + q * 64

/-- The block's copy of an entry; fields that a type ignores are 0. -/
def cfgOf (q : Nat) (ws : List Word) : QCfg :=
  let ring := decide (3 ≤ qType q)
  let rr := decide (qType q = 0 ∨ qType q = 2)
  { log2 := bitsOf (wAt ws 0) 8 5, pollIvl := bitsOf (wAt ws 0) 16 4,
    weight := if rr then bitsOf (wAt ws 1) 0 8 else 0, burst := if rr then bitsOf (wAt ws 1) 8 7 else 0,
    bufKib := if qType q = 1 then bitsOf (wAt ws 1) 16 4 else 0,
    ringBase := (wAt ws 2).toNat + bitsOf (wAt ws 3) 0 20 * 4294967296,
    indexAddr := (wAt ws 4).toNat + bitsOf (wAt ws 5) 0 20 * 4294967296,
    cq := if ring then 0 else 6144 + bitsOf (wAt ws 6) 0 10,
    vector := if ring then bitsOf (wAt ws 6) 16 6 else 0, intEn := ring && bitOf (wAt ws 6) 22 }

/-- Check 1 of R64. -/
def entryOk (q : Nat) (ws : List Word) : Bool :=
  let c := cfgOf q ws
  decide (bitsOf (wAt ws 0) 0 3 = qType q ∧ 4 ≤ c.log2 ∧ c.log2 ≤ 16 ∧ bitsOf (wAt ws 2) 0 6 = 0 ∧ bitsOf (wAt ws 3) 20 12 = 0
    ∧ bitsOf (wAt ws 4) 0 3 = 0 ∧ bitsOf (wAt ws 5) 20 12 = 0) &&
  (decide (qType q ≠ 0 ∧ qType q ≠ 2) || decide (1 ≤ c.weight ∧ 1 ≤ c.burst ∧ c.burst ≤ 64))

/-- QUEUE_MODIFY changes modifiable fields only. -/
def sameFixed (a b : QCfg) : Bool :=
  decide (a.log2 = b.log2 ∧ a.bufKib = b.bufKib ∧ a.ringBase = b.ringBase ∧ a.indexAddr = b.indexAddr ∧ a.cq = b.cq)

/-- A queue starts, empty, at an index. -/
def startQueue (q : Nat) (c : QCfg) (i : Word) (s : State) : State :=
  modQueue q (fun _ => { st := .active, cfg := c, pi := i, ci := i, f := i }) s

/-! QUEUE_CREATE and QUEUE_MODIFY. -/

def queueCreate (a : Adm) (s : State) : State :=
  let q := (aTarget a.ws).toNat
  if bootstrap q || (getQueue s q).st ≠ .notCreated then admRefuse a 2 s
  else admRead a (qtableAddr s q) 64 (admHold a s)

def execQueueCreate (q : Fin 64) (idx : Word) (s : State) : Host.Outcome State Fault Refusal :=
  .next (whenRunning (atTurn q idx 0x01 queueCreate) s)

def queueModify (a : Adm) (s : State) : State :=
  let q := (aTarget a.ws).toNat
  let st := (getQueue s q).st
  if bootstrap q then
    if st = .stopped then fabRead (.enableIndex q) (getQueue s q).cfg.indexAddr 8 (admHold a s) else admRefuse a 2 s
  else if st = .active || st = .stopped then admRead a (qtableAddr s q) 64 (admHold a s)
  else admRefuse a 2 s

def execQueueModify (q : Fin 64) (idx : Word) (s : State) : Host.Outcome State Fault Refusal :=
  .next (whenRunning (atTurn q idx 0x02 queueModify) s)

/-- The queue-table entry of QUEUE_CREATE or QUEUE_MODIFY has come: its checks, then the index area is read. -/
def queueEntryIn (a : Adm) (ws : List Word) (s : State) : State :=
  let q := (aTarget a.ws).toNat
  let c := cfgOf q ws
  if !entryOk q ws then admRefuse a 4 s
  else if aOp a.ws = 0x02 && !sameFixed c (getQueue s q).cfg then admRefuse a 4 s
  else if aOp a.ws = 0x01 && qType q < 3 && (getQueue s c.cq).st ≠ .active then admRefuse a 2 s
  else fabRead (.enableIndex q) c.indexAddr 8 (modAdm a.q a.idx (fun a => { a with buf := some (some ws) }) s)

/-- The queue or ring that an index, completion or event write belongs to. -/
def WrUse.ring : WrUse → Option Nat
  | .index q => some q
  | .cpl q _ => some q
  | .event q _ => some q
  | _ => none

/-- A write goes out again: the same bytes at the same address (R25). -/
def sendAgain (retried : Bool) (w : WrReq) (s : State) : State :=
  perf (15 + w.addr / 128 % 4) (beats w.len) (s.modFab fun f =>
    { f with next := f.next + 1, writes := f.writes ++ [{ w with id := f.next, retried := retried }] })

/-- The kept writes of a queue or ring go. -/
def dropAgain (q : Nat) (s : State) : State :=
  s.modFab fun f => { f with again := f.again.filter fun w => w.use.ring ≠ some q }

/-- Entries whose writes failed twice are written anew once their ring is active again, and so is the queue's own index word
(R24, R25, R90). -/
def resumeWrites (q : Nat) (s : State) : State :=
  let mine := s.fab.again.filter fun w => w.use.ring = some q
  if (getQueue s q).st ≠ .active || mine.isEmpty then s
  else
    let s := (mine.filter fun w => w.use ≠ .index q).foldl (fun s w => sendAgain false w s) (dropAgain q s)
    if mine.any (fun w => w.use = .index q) then
      issueIndex q (modQueue q (fun Q => { Q with unreported := max 1 Q.unreported }) s)
    else s

/-- A stopped queue becomes active and takes the index that its area holds (R61, R66, R92). -/
def restartQueue (q : Nat) (c : QCfg) (pi ci : Word) (s : State) : State :=
  resumeWrites q (takeIndex q pi ci (modQueue q (fun Q => { Q with cfg := c, st := .active }) s))

/-- The command at its turn that a queue's enable read is for. -/
def enableCmd (s : State) (q : Nat) : Option Adm :=
  s.hif.adm.find? fun a => a.stage = .turned && (aOp a.ws = 0x01 || aOp a.ws = 0x02) && (aTarget a.ws).toNat = q

/-- The index area of QUEUE_CREATE or QUEUE_MODIFY has come. -/
def queueIndexIn (a : Adm) (pi ci : Word) (s : State) : State :=
  let q := (aTarget a.ws).toNat
  let c := match a.buf with
    | some (some ws) => cfgOf q ws
    | _ => (getQueue s q).cfg
  if aOp a.ws = 0x02 then admDone a.q a.idx 0 [] (restartQueue q c pi ci s)
  else if pi ≠ ci then admRefuse a 4 s
  else admDone a.q a.idx 0 [] (startQueue q c ci s)

/-! The bootstrap pair (R84). -/

/-- The set-up of a member of the pair in the registers. -/
def aq0Cfg (s : State) (q : Nat) : QCfg :=
  let w := reg s 0x130
  if q = 5120 then
    { log2 := bitsOf w 8 5, weight := 16, burst := 8, ringBase := regAddr s 0x110, indexAddr := regAddr s 0x118, cq := 6144 }
  else
    { log2 := bitsOf w 16 5, ringBase := regAddr s 0x120, indexAddr := regAddr s 0x128, vector := bitsOf w 24 6,
      intEn := bitOf w 30 }

/-- The enable fails at a check. -/
def aq0Fail (check : Nat) (s : State) : State :=
  let s := dropReads (fun u => u = .enableIndex 5120 || u = .enableIndex 6144) s
  raise 0x135 (wordOf check) 0 (s.modHif fun h => { h with aq0Bad := true, aq0Idx := none, aq0Set := none })

def logOk (n : Nat) : Bool := decide (4 ≤ n ∧ n ≤ 16)

/-- A write of 1 to `HIF_AQ0_CTRL.ENABLE`. -/
def aq0Start (s : State) : State :=
  let again := fun q s => if (getQueue s q).st = .stopped && !asked s (.enableIndex q) && (enableCmd s q).isNone then
      fabRead (.enableIndex q) (getQueue s q).cfg.indexAddr 8 s
    else s
  if (getQueue s 5120).st ≠ .notCreated then again 6144 (again 5120 s)
  else if asked s (.enableIndex 5120) || asked s (.enableIndex 6144) then s
  else
    let s := s.modHif fun h => { h with aq0Bad := false, aq0Idx := none }
    let a := aq0Cfg s 5120
    let c := aq0Cfg s 6144
    if !logOk a.log2 || !logOk c.log2 then aq0Fail 1 s
    else
      let s := s.modHif fun h => { h with aq0Set := some (a, c) }
      fabRead (.enableIndex 6144) c.indexAddr 8 (fabRead (.enableIndex 5120) a.indexAddr 8 s)

def execAq0Enable (value : Word) (s : State) : Host.Outcome State Fault Refusal :=
  .next (windowWrite 0x130 4 value (fun s => if bitOf value 0 then aq0Start s else s) s)

/-- The set-up of a member that the enable took and checked. -/
def aq0Taken (s : State) (q : Nat) : QCfg :=
  match s.hif.aq0Set with
  | some (a, c) => if q = 5120 then a else c
  | none => aq0Cfg s q

/-- An index area of the pair has come; the pair starts with the set-up that the enable checked. -/
def aq0IndexIn (q : Nat) (pi ci : Word) (s : State) : State :=
  if (getQueue s q).st = .stopped then restartQueue q (getQueue s q).cfg pi ci s
  else if pi ≠ ci then aq0Fail 3 s
  else match s.hif.aq0Idx with
    | none => s.modHif fun h => { h with aq0Idx := some (q, pi) }
    | some (r, i) =>
      startQueue r (aq0Taken s r) i (startQueue q (aq0Taken s q) pi (s.modHif fun h => { h with aq0Idx := none, aq0Set := none }))

/-- INDEX_READ_RESPONSE. -/
def indexIn (q : Nat) (pi ci : Word) (s : State) : State :=
  if (s.fab.reads.any fun r => r.use = .index q) then takeIndex q pi ci (returnFirst (.index q) s)
  else if reading s (.enableIndex q) then
    let s := returnReads (fun u => u = .enableIndex q) s
    match enableCmd s q with
    | some a => queueIndexIn a pi ci s
    | none => if bootstrap q then aq0IndexIn q pi ci s else s
  else s

def execIndexReadResponse (q : Fin 8192) (pi ci : Word) (s : State) : Host.Outcome State Fault Refusal :=
  .next (whenRunning (indexIn q pi ci) s)

/-! QUEUE_DRAIN and QUEUE_DESTROY. -/

/-- A receive buffer goes back unused (R85, R100). -/
def flushBuf (q : Nat) (b : RxBuf) (s : State) : State :=
  readyCpl (ringOfQueue s q) { status := 7, kind := 1, queue := q, body := [b.cookie] }
    (countDrained q 1 s)

def queueDrain (a : Adm) (s : State) : State :=
  let q := (aTarget a.ws).toNat
  let Q := getQueue s q
  if (Q.st ≠ .active && Q.st ≠ .stopped) || decide (a.q = q) then admRefuse a 2 s
  else
    let s := modQueue q (fun Q => { Q with st := .draining, drained := 0, cache := [] }) (admHold a s)
    drainDone q (Q.cache.foldl (fun s b => flushBuf q b s) s)

def execQueueDrain (q : Fin 64) (idx : Word) (s : State) : Host.Outcome State Fault Refusal :=
  .next (whenRunning (atTurn q idx 0x03 queueDrain) s)

/-- Completions that a ring still has to write. -/
def cplsOf (Q : Queue) : List Cpl := Q.ready ++ Q.pend

/-- Nothing of a queue is in flight, and no completion of it is pending (R94, R100). -/
def queueIdle (s : State) (q : Nat) : Bool :=
  let Q := getQueue s q
  (s.hif.tx.all fun t => t.q ≠ q) && (s.hif.adm.all fun a => a.q ≠ q) && Q.cache.isEmpty && (cplsOf Q).isEmpty && !fetching s q
    && (s.tpt.us.all fun u => decide (4096 + u.ring ≠ q) || (u.stage ≠ .writing && u.stage ≠ .acked))
    && ((cplsOf (getQueue s Q.cfg.cq)).all fun c => c.queue ≠ q)
    && (s.fab.again.all fun w => match w.use with
      | .cpl r c => decide (r ≠ q ∧ c.queue ≠ q)
      | _ => true)
    && (decide (qType q ≠ 3) || s.hif.queues.all fun e => e.2.st = .notCreated || decide (e.2.cfg.cq ≠ q))

def queueDestroy (a : Adm) (s : State) : State :=
  let q := (aTarget a.ws).toNat
  if bootstrap q || (getQueue s q).st ≠ .stopped || !queueIdle s q then admRefuse a 2 s
  else admDone a.q a.idx 0 [] (modQueue q (fun _ => {}) (dropAgain q s))

def execQueueDestroy (q : Fin 64) (idx : Word) (s : State) : Host.Outcome State Fault Refusal :=
  .next (whenRunning (atTurn q idx 0x04 queueDestroy) s)

/-! Receive buffers (R83). -/

/-- RX_BUFFER_FETCH. -/
def bufFetch (q : Nat) (s : State) : State :=
  let Q := getQueue s q
  let have' := Q.cache.length + (bufsComing s q).length
  if Q.st ≠ .active || 16 < have' || Q.tagRetry.isSome || 1024 ≤ tagsUsed s || !entryThere Q then s
  else
    let room := ringSize Q.cfg - gap Q.f Q.ci
    let n := min 16 (if Q.pollFound then room else knownWork Q)
    let idxs := (List.range n).map fun i => Q.f + BitVec.ofNat 32 i
    let s := modQueue q (fun Q => { Q with f := Q.f + BitVec.ofNat 32 n }) s
    readEntries q (entryUse q) idxs (perf 4 n s)

def execRxBufferFetch (r : Fin 1024) (s : State) : Host.Outcome State Fault Refusal :=
  .next (whenRunning (bufFetch (4096 + r)) s)

/-- A receive buffer descriptor is in the core. -/
def bufArrive (q : Nat) (idx : Word) (ws : List Word) (s : State) : State :=
  let s := copied q idx s
  if !rxBufOk ws then drainDone q (countDrained q 1 (raise 0x132 (wordOf q) idx (addCtr (hifCtr 5) 1 s)))
  else if (getQueue s q).st = .draining then drainDone q (flushBuf q (rxBufOf ws) s)
  else modQueue q (fun Q => { Q with cache := Q.cache ++ [rxBufOf ws] }) s

/-- RX_BUFFER_ARRIVE: descriptors are taken in ring order. -/
def bufsIn (q : Nat) : List (List Word) → State → State
  | [], s => s
  | w :: r, s =>
    match nextEntry s q with
    | none => s
    | some idx => bufsIn q r (tagChecked q idx w (bufArrive q idx w) s)

def execRxBufferArrive (r : Fin 1024) (ws : List (List Word)) (s : State) : Host.Outcome State Fault Refusal :=
  .next (whenRunning (bufsIn (4096 + r) ws) s)

/-! SEQ_TAG_RETRY (R73). -/

/-- A microsecond after a wrong tag the entry is read a second time. -/
def retryRead (q : Nat) (idx : Word) (s : State) : State :=
  if !(readsOf s fun u => u = entryUse q [idx]).isEmpty then s else readEntries q (entryUse q) [idx] s

/-- The second reading has come: the entry is taken, or the queue stops with F at it. -/
def retryIn (q : Nat) (idx : Word) (ws : List Word) (s : State) : State :=
  if !reading s (entryUse q [idx]) then s
  else
    let s := modQueue q (fun Q => { Q with tagRetry := none }) (takeEntry q idx s)
    if dTag ws = tagOf (getQueue s q).cfg.log2 idx then
      if q < 4096 then txArrive q idx ws s else if q < 5120 then bufArrive q idx ws s else admArrive q idx ws s
    else drainDone q (raise 0x131 (wordOf (q + dTag ws * 65536)) idx (stopQueue q (rewind q idx s)))

def tagRetry (q : Nat) (ws : Option (List Word)) (s : State) : State :=
  match (getQueue s q).tagRetry with
  | none => s
  | some idx => match ws with
    | none => retryRead q idx s
    | some ws => retryIn q idx ws s

def execSeqTagRetry (q : Fin 8192) (ws : Option (List Word)) (s : State) : Host.Outcome State Fault Refusal :=
  .next (whenRunning (tagRetry q ws) s)

end Sys2Proof.Machine
end

