-- ==== Sys2Proof/Machine/Rules.lean ====
section
/-! DEFINITION. The classifier's commands (R125, R130–R133, R136, R137) and its indirection window (R135, R139). -/

namespace Sys2Proof.Machine

/-! RULE_INSERT and RULE_DELETE (R130, R131, R291). -/

/-- The buffer of a rule command, once it has come. -/
def ruleBuf (a : Adm) : List Word :=
  match a.buf with
  | some (some ws) => ws
  | _ => []

/-- RULE_INSERT refuses only a colour of 0b11 (R130). -/
def ruleOk (ws : List Word) : Bool := decide (bitsOf (wAt ws 6) 26 2 ≠ 3)

/-- An entry with a key is present, flagged or not. -/
def rulePresent (s : State) (ws : List Word) : Bool := s.cls.em.any fun e => emIs (ruleProf ws) (ruleKey ws) e

def ruleInsert (a : Adm) (s : State) : State :=
  let ws := ruleBuf a
  if rulePresent s ws then admRefuse a 2 s
  else if 8 ≤ emUsed s (emBucket (ruleProf ws) (ruleKey ws)) then admRefuse a 5 s
  else admDone a.q a.idx 0 [] (s.modCls fun c =>
    { c with em := c.em ++ [{ prof := ruleProf ws, key := ruleKey ws, act0 := wAt ws 6, act1 := wAt ws 7 }] })

def execRuleInsert (q : Fin 64) (idx : Word) (s : State) : Host.Outcome State Fault Refusal :=
  .next (whenRunning (atTurn q idx 0x30 ruleInsert) s)

def ruleDelete (a : Adm) (s : State) : State :=
  let ws := ruleBuf a
  if !rulePresent s ws then admRefuse a 2 s
  else admDone a.q a.idx 0 [] (s.modCls fun c => { c with em := dropFirst (emIs (ruleProf ws) (ruleKey ws)) c.em })

def execRuleDelete (q : Fin 64) (idx : Word) (s : State) : Host.Outcome State Fault Refusal :=
  .next (whenRunning (atTurn q idx 0x31 ruleDelete) s)

/-- The entry of a rule command has come: step 5 is made at once, and the command waits for its turn (R98). -/
def ruleIn (a : Adm) (ws : List Word) (s : State) : State :=
  if aOp a.ws = 0x30 && !ruleOk ws then admRefuse a 4 s
  else modAdm a.q a.idx (fun a => { a with buf := some (some ws) }) s

/-! TERNARY_STAGE and PARSE_STAGE (R125, R133). -/

def ternaryStage (a : Adm) (s : State) : State := admTurnRead a s

def execTernaryStage (q : Fin 64) (idx : Word) (s : State) : Host.Outcome State Fault Refusal :=
  .next (whenRunning (atTurn q idx 0x32 ternaryStage) s)

/-- Words in groups of `n`; `fuel` bounds the groups. -/
def groups : Nat → Nat → List Word → List (List Word)
  | 0, _, _ => []
  | fuel + 1, n, ws => match ws with
    | [] => []
    | _ => ws.take n :: groups fuel n (ws.drop n)

/-- Flags of standby items staged over go (R291). -/
def unflag (store lo n : Nat) (c : Cls) : Cls :=
  { c with badItems := c.badItems.filter fun e => !(decide (e.1 = store ∧ lo ≤ e.2 ∧ e.2 < lo + n)) }

/-- Whole rules have come. -/
def ternaryIn (a : Adm) (ws : List Word) (s : State) : State :=
  let p := (aParam a.ws).toNat
  let rs := groups ws.length 24 ws
  if !(rs.all ternOk) then admRefuse a 4 s
  else
    let put := fun (t : Table (List Word)) (i : Nat) =>
      tput t (p + i) (let r := rs.getD i []; if r.all (fun w => w = 0) then none else some r)
    admDone a.q a.idx 0 [] (s.modCls fun c =>
      unflag 6 (8192 + p) rs.length { c with ternS := (List.range rs.length).foldl put c.ternS })

def parseStage (a : Adm) (s : State) : State := admTurnRead a s

def execParseStage (q : Fin 64) (idx : Word) (s : State) : Host.Outcome State Fault Refusal :=
  .next (whenRunning (atTurn q idx 0x33 parseStage) s)

/-- A parse step from its two words. -/
def stepOf (ws : List Word) : BitVec 64 := BitVec.ofNat 64 ((wAt ws 0).toNat + (wAt ws 1).toNat * 4294967296)

/-- Whole steps have come. -/
def parseIn (a : Adm) (ws : List Word) (s : State) : State :=
  let p := (aParam a.ws).toNat
  let st := (groups ws.length 2 ws).map stepOf
  if !(st.all stepOk) then admRefuse a 4 s
  else admDone a.q a.idx 0 [] (s.modCls fun c =>
    unflag 7 (4096 + p) st.length
      { c with parseS := (List.range st.length).foldl (fun t i => tset t 0 (p + i) (st.getD i 0)) c.parseS })

/-! CLASS_COMMIT (R136, R137). -/

def classCommit (a : Adm) (s : State) : State := (admHold a s).modCls fun c => { c with hold := some (a.q, a.idx) }

def execClassCommit (q : Fin 64) (idx : Word) (s : State) : Host.Outcome State Fault Refusal :=
  .next (whenRunning (atTurn q idx 0x34 classCommit) s)

/-- Active and standby change places in one store: items below and from `n`. -/
def swapItems (store n : Nat) (l : List (Nat × Nat)) : List (Nat × Nat) :=
  l.map fun e => if e.1 = store then (store, if e.2 < n then e.2 + n else e.2 - n) else e

/-- The pages that are named flip. -/
def flipPages (tern parse : Bool) (c : Cls) : Cls :=
  let c := if tern then
      { c with ternA := c.ternS, ternS := c.ternA, ternPage := !c.ternPage, badItems := swapItems 6 8192 c.badItems }
    else c
  if parse then
    { c with parseA := c.parseS, parseS := c.parseA, parsePage := !c.parsePage, badItems := swapItems 7 4096 c.badItems }
  else c

/-- Frames still in an engine run again from their first step on the new pages. -/
def restartEngines (s : State) : State :=
  let n := engineUse s
  if n = 0 then s
  else
    let s := s.modTpt fun t => { t with us := t.us.map fun u => if u.stage = .engine then usLatch s u else u }
    let s := s.modHif fun h => { h with tx := h.tx.map fun t => if t.stage = .engine then dsLatch s t else t }
    raise 0x311 (wordOf n) 0 (addCtr (clsCtr 7) n s)

/-- COMMIT_FLIP. -/
def commitFlip (s : State) : State :=
  match s.cls.hold with
  | none => s
  | some (q, idx) =>
    let p := match findAdm s q idx with
      | some a => aParam a.ws
      | none => 0
    let s := restartEngines (s.modCls (flipPages (bitOf p 0) (bitOf p 1)))
    admDone q idx 0 [] (s.modCls fun c =>
      { c with hold := none, copy := some (bitOf p 0, bitOf p 1), commits := (c.commits + 1) % 65536 })

def execCommitFlip (s : State) : Host.Outcome State Fault Refusal := .next (whenRunning commitFlip s)

/-- The flags of a store's active page are those of its standby page too, after a copy. -/
def copyItems (store n : Nat) (l : List (Nat × Nat)) : List (Nat × Nat) :=
  let keep := l.filter fun e => e.1 ≠ store || decide (e.2 < n)
  keep ++ (keep.filter fun e => e.1 = store).map fun e => (e.1, e.2 + n)

/-- COMMIT_COPY_DONE: the standby pages equal the new active ones. -/
def copyDone (c : Cls) : Cls :=
  match c.copy with
  | none => c
  | some (tern, parse) =>
    let c := if tern then { c with ternS := c.ternA, badItems := copyItems 6 8192 c.badItems } else c
    let c := if parse then { c with parseS := c.parseA, badItems := copyItems 7 4096 c.badItems } else c
    { c with copy := none }

def execCommitCopyDone (s : State) : Host.Outcome State Fault Refusal := .next (whenRunning (State.modCls copyDone) s)

/-! `CLS_IND_ADDR` and `CLS_IND_DATA` (R135, R139). -/

/-- The entry that the address names, and the address moved on. -/
def indAddr (s : State) : Nat := (reg s 0x30A00).toNat % 32768
def indNext (s : State) : State := setReg 0x30A00 (wordOf ((indAddr s + 1) % 32768)) s

/-- An indirection entry as it reads: `VALUE` and `VALID`. -/
def indRead (s : State) : State := indNext (s.modHif fun h => { h with readData := tget s.cls.ind (indAddr s) 0 })

def execIndDataRead (s : State) : Host.Outcome State Fault Refusal := .next (windowRead indRead s)

/-- A written entry; its flag goes (R291). -/
def indWrite (v : Word) (s : State) : State :=
  windowWrite 0x30A04 4 v (fun s =>
    let i := indAddr s
    indNext ((setReg 0x30A04 0 s).modCls fun c =>
      unflag 9 (16 + i) 1 { c with ind := tset c.ind 0 i (wordOf (bitsOf v 0 10 + ofBit (bitOf v 31) * 2147483648)) })) s

def execIndDataWrite (value : Word) (s : State) : Host.Outcome State Fault Refusal := .next (indWrite value s)

end Sys2Proof.Machine
end

