-- ==== Sys2Proof/Machine/Link.lean ====
section
/-! DEFINITION. The messages of the Ebivios link: sending (R243–R245, R256, R257), sequencing (R247–R249), receiving (R242,
R246, R254), pauses (R255), time exchanges (R250, R251) and migration messages (R252). -/

namespace Sys2Proof.Machine

/-! Bodies. -/

/-- `LEN` of a body (R244, R248–R252, R255). -/
def bodyLen : Body → Nat
  | .data d => 16 + d.bytes.length
  | .time _ _ _ => 20
  | .migBegin _ => 12
  | .migTerm _ _ _ => 68
  | .migFlow _ _ _ => 136
  | .migEnd _ _ _ => 8
  | .migDone _ _ => 4
  | .ack _ _ => 8
  | .pause _ _ => 18
  | .cap _ => 12
  | .snap _ _ _ => 12
  | .other n => n

/-- Bytes of a message, header and CRC included (R242). -/
def msgBytes (b : Body) : Nat := 20 + bodyLen b

def isMig : Body → Bool
  | .migBegin _ => true
  | .migTerm _ _ _ => true
  | .migFlow _ _ _ => true
  | .migEnd _ _ _ => true
  | .migDone _ _ => true
  | _ => false

/-- The messages that are numbered on each hop (R247). -/
def isSeq : Body → Bool
  | .cap _ => true
  | .snap _ _ _ => true
  | b => isMig b

/-- Rank 1 and rank 2 of R243, and the control messages of rank 3. -/
def isUrgent : Body → Bool
  | .ack _ _ => true
  | .pause _ _ => true
  | _ => false
def isTime : Body → Bool
  | .time _ _ _ => true
  | _ => false

/-! Configuration of a port (R259). -/

def timeRole (s : State) (c : Nat) : Nat := bitsOf (portCfg s c) 16 2
def timeIvl (s : State) (c : Nat) : Nat := bitsOf (portCfg s c) 18 10
def lpiIdle (s : State) (c : Nat) : Nat := bitsOf (portCfg s c) 8 8

/-- The class that the far end accepts for a link class (R256). -/
def mapClass (accepts cls : Nat) : Nat :=
  let ok := fun k => decide (accepts / 2 ^ k % 2 = 1)
  match ((List.range (cls + 1)).filter ok).getLast? with
  | some k => k
  | none => ((List.range 8).find? ok).getD cls

/-- A stamp at the lane boundary, its port's offset added (R251). -/
def linkStamp (s : State) (off sub : Nat) : FullStamp := fullStamp (captured s sub (reg s off).toInt)
def txStamp (s : State) (c sub : Nat) : FullStamp := linkStamp s (0x80300 + c * 8) sub
def rxStamp (s : State) (c sub : Nat) : FullStamp := linkStamp s (0x80304 + c * 8) sub

/-! The end of a message (R243, R244, R246, R250). -/

/-- An own frame's END block leaves: that is its write (R244). -/
def usSent (id : Nat) (s : State) : State :=
  match findUs s id with
  | none => s
  | some u =>
    let u := { u with mark := u.mark.map (Mark.at 6 (stampNow s)) }
    dropUs id (traceUs u 16 (countWritten u s))

/-- The stamp of a time message that has been sent is noted, and a Sync is followed by its Follow_Up. -/
def timeSent (c sub seqId : Nat) (t : FullStamp) (s : State) : State :=
  match (getCPort s c).exch with
  | none => s
  | some x =>
    if x.seqId ≠ seqId then s
    else if sub = 0 then
      pushOwn c 0 (.time 8 seqId t) (modCPort c (fun C => { C with exch := some { x with step := 2, t1 := t } }) s)
    else if sub = 1 then modCPort c (fun C => { C with exch := some { x with step := 5, t3 := t } }) s
    else s

/-- The message that a port was sending ends: its bytes are counted, its cells free. -/
def finishMsg (c : Nat) (s : State) : State :=
  match (getCPort s c).cur with
  | none => s
  | some m =>
    let s := lstat c 1 (msgBytes m.body) (lstat c 0 1 (modCPort c (fun C => { C with cur := none }) s))
    let s := match m.body with
      | .data _ => match m.store with
        | some (k, _) => lstat k 6 1 (lstat c 4 1 s)
        | none => lstat c 4 1 s
      | .pause _ _ => lstat c 16 1 s
      | _ => s
    let s := match m.us with
      | some id => usSent id s
      | none => s
    match m.store with
    | some (k, id) => storeFree k id s
    | none => s

/-! The next message (R243). -/

/-- A message starts, in a class that the far end accepts (R256); `sub` is its START's fraction of a ns (R47, R251). -/
def startMsg (c sub : Nat) (m : Msg) (s : State) : State :=
  let s := modCPort c (fun C => { C with cur := some { m with cls := mapClass C.farClasses m.cls } }) s
  match m.body with
  | .time k seqId _ => timeSent c k seqId (txStamp s c sub) s
  | .data _ => match m.us with
    | some id => modUs id (fun u => { u with mark := u.mark.map (Mark.at 5 (stampNow s)) }) s
    | none => s
  | _ => s

/-- The window of R247 has room. -/
def windowOpen (C : CPort) : Bool := decide (C.unacked.length < 128)

/-- A new sequenced message takes its number and is kept until it is acknowledged. -/
def numbered (c : Nat) (m : Msg) (s : State) : Msg × State :=
  if isSeq m.body then
    let m := { m with seq := (getCPort s c).nextSeq }
    (m, modCPort c (fun C => { C with nextSeq := (C.nextSeq + 1) % 4294967296, unacked := C.unacked ++ [m] }) s)
  else (m, s)

/-- The path that the classifier gave an own frame (R135, R245). -/
def msgPath (s : State) (m : Msg) : Option Nat :=
  match m.us with
  | some id => (findUs s id).bind fun u => u.path
  | none => none

/-- A waiting message that the port may send now in a class. -/
def sendable (s : State) (c k : Nat) (m : Msg) : Bool :=
  let C := getCPort s c
  decide (mapClass C.farClasses m.cls = k) && (tfind C.paused k).isNone && decide (pickPort s m.dest (msgPath s m) = some c) &&
    (!isMig m.body || windowOpen C)

/-- Rank 4: by class from 7 down, in arrival order within a class. -/
def pickOut (s : State) (c : Nat) : Option Msg :=
  ((List.range 8).reverse).findSome? fun k => (s.lnk.out.find? fun m => sendable s c k m).map fun m =>
    { m with cls := k }

/-- The waiting message is the one taken: the messages of a link are told apart by what they hold. -/
def sameMsg (a b : Msg) : Bool := decide ({ a with cls := 0 } = { b with cls := 0 })

/-- Waiting messages whose route entry is no longer valid are discarded (R245). -/
def purgeOut (s : State) : State :=
  let bad := s.lnk.out.filter fun m => !routeValid s m.dest
  bad.foldl (fun s m =>
    let s := s.modLnk fun l => { l with out := dropFirst (fun x => x = m) l.out }
    match m.us, m.store with
    | some id, _ => endUs id 35 (noRoute none m.dest s)
    | none, some (k, id) => noRoute (some k) m.dest (storeFree k id s)
    | none, none => noRoute none m.dest s) s

/-- The far end has paused the class that a message travels in (R255, R256). DEDUCED from R254: ACK, PAUSE and TIME, which take no
cells, are never paused. -/
def held (C : CPort) (m : Msg) : Bool := (tfind C.paused (mapClass C.farClasses m.cls)).isSome

/-- The next message of a port by rank. -/
def nextMsg (c sub : Nat) (s : State) : State :=
  let C := getCPort s c
  let drop := fun (m : Msg) (s : State) => modCPort c (fun C => { C with txq := dropFirst (fun x => x = m) C.txq }) s
  match C.txq.find? fun m => isUrgent m.body with
  | some m => startMsg c sub m (drop m s)
  | none => match C.txq.find? fun m => isTime m.body with
    | some m => startMsg c sub m (drop m s)
    | none => match C.retx.head?.filter fun m => !held C m with
      | some m => startMsg c sub m (lstat c 14 1 (modCPort c (fun C => { C with retx := C.retx.tail }) s))
      | none => match (if windowOpen C && C.retx.isEmpty then C.txq.head?.filter fun m => !held C m else none) with
        | some m => let (m', s) := numbered c m (drop m s); startMsg c sub m' s
        | none =>
          let s := purgeOut s
          match pickOut s c with
          | some m =>
            let s := s.modLnk fun l => { l with out := dropFirst (fun x => sameMsg x m) l.out }
            let (m', s) := numbered c m s
            startMsg c sub m' s
          | none => s

/-- LINK_TRANSMIT: the message in progress ends with its last block, and the next one starts. -/
def linkTransmit (x : LinkSend) (s : State) : State :=
  let c := x.c.val
  let C := getCPort s c
  if !C.up || C.asleep then s
  else
    let s := access 213 s
    nextMsg c x.sub (finishMsg c (match C.cur with
      | some m => sendMsg c x.bad m s
      | none => s))

def execLinkTransmit (c : LinkSend) (s : State) : Host.Outcome State Fault Refusal := .next (whenRunning (linkTransmit c) s)

/-! Acknowledgements (R247, R248). -/

/-- (a − b) mod 2^32 of sequence numbers. -/
def seqGap (a b : Nat) : Nat := (a + 4294967296 - b % 4294967296) % 4294967296

/-- Retransmission from the oldest message that is kept. -/
def retransmit (c : Nat) (s : State) : State :=
  match (getCPort s c).unacked with
  | [] => s
  | m :: r =>
    let ep := (getCPort s c).retxEp
    let s := modCPort c (fun C => { C with retx := m :: r, retxEp := true }) s
    if ep then s else raise 0x81A (wordOf c) (wordOf m.seq) s

/-- ACK_RECEIVED: messages before `NEXT` are released; a gap brings the rest again. -/
def ackIn (c : Nat) (next : Word) (gap : Bool) (s : State) : State :=
  let C := getCPort s c
  if !C.up then s
  else
    let s := lstat c 3 (msgBytes (.ack 0 false)) (lstat c 2 1 s)
    let kept := fun m : Msg => decide (seqGap m.seq next.toNat < 2147483648)
    let s := modCPort c (fun C => { C with unacked := C.unacked.filter kept, retx := C.retx.filter kept }) s
    if gap then retransmit c s else s

def execAckReceived (c : Fin 4) (next : Word) (gap : Bool) (s : State) : Host.Outcome State Fault Refusal :=
  .next (whenRunning (ackIn c next gap) s)

def execRetransmitTimeout (c : Fin 4) (s : State) : Host.Outcome State Fault Refusal :=
  .next (whenRunning (fun s => if (getCPort s c).up then retransmit c s else s) s)

def execRetxEpisodeEnd (c : Fin 4) (s : State) : Host.Outcome State Fault Refusal :=
  .next (modCPort c (fun C => { C with retxEp := false }) s)

/-- An ACK is queued. -/
def sendAck (c : Nat) (gap : Bool) (s : State) : State :=
  pushOwn c (linkHops s) (.ack (getCPort s c).expect gap) (modCPort c (fun C => { C with accepted := 0 }) s)

def execAckTimer (c : Fin 4) (s : State) : Host.Outcome State Fault Refusal :=
  .next (whenRunning (fun s => if (getCPort s c).up && decide (0 < (getCPort s c).accepted) then sendAck c false s else s) s)

/-! Receiving (R242, R246, R248, R254). -/

/-- A sequenced message is accepted, or is a gap or a duplicate (R248). -/
def seqTake (c : Nat) (q : Word) (ok : State → State) (s : State) : State :=
  let C := getCPort s c
  let d := seqGap q.toNat C.expect
  if d = 0 then
    let s := modCPort c (fun C => { C with expect := (C.expect + 1) % 4294967296, accepted := C.accepted + 1 }) s
    ok (if 16 ≤ (getCPort s c).accepted then sendAck c false s else s)
  else if d < 2147483648 then
    let soon := match C.gapAt with
      | some t => decide (s.uptime < t + 1000)
      | none => false
    if soon then s else sendAck c true (modCPort c (fun C => { C with gapAt := some s.uptime }) s)
  else if 4294967040 ≤ d then sendAck c false (lstat c 15 1 s)
  else lstat c 15 1 s

/-- The cells that a message takes in the receive store, or its end there for want of them (R254). -/
def storeRoom (c cls len : Nat) (ok : State → State) (s : State) : State :=
  if 8192 < storeUsed (getCPort s c) + cellsOf (20 + len) then raise 0x81E (wordOf c) (wordOf cls) (lstat c 10 1 s) else ok s

/-- A message with cells is held from its START. -/
def hold (c : Nat) (cls len : Nat) (m : Msg) (local' : Bool) (s : State) : State :=
  let id := s.lnk.storeNext
  storeTake c { id := id, cls := cls, cells := cellsOf (20 + len), msg := m, local_ := local' }
    (s.modLnk fun l => { l with storeNext := l.storeNext + 1 })

/-- A message for this instance is carried out at once. -/
def carryOut (c cls len : Nat) (m : Msg) (act : State → State) (s : State) : State :=
  let id := s.lnk.storeNext
  storeFree c id (act (hold c cls len m true s))

/-- A message for another instance is forwarded, with a hop less (R246). -/
def forward (c : Nat) (h : MsgHdr) (b : Body) (s : State) : State :=
  if h.hops = 0 then raise 0x818 (wordOf c) (wordOf h.origin) (lstat c 12 1 s)
  else if !routeValid s h.dest then noRoute (some c) h.dest s
  else
    let m : Msg := { body := b, cls := h.cls, hops := h.hops - 1, dest := h.dest, origin := h.origin,
                     store := some (c, s.lnk.storeNext) }
    (hold c h.cls (bodyLen b) m false s).modLnk fun l => { l with out := l.out ++ [m] }

/-- Counters of a message that passes R242. -/
def countRx (c len : Nat) (s : State) : State := lstat c 3 (20 + len) (lstat c 2 1 s)

/-- A message that arrives on an up port. -/
def rxOn (c len : Nat) (f : State → State) (s : State) : State := if (getCPort s c).up then f (countRx c len (access 213 s)) else s

/-- A message that takes cells arrives: its class is one that the port accepts (R256). DESIGN CHOICE: any other is discarded, and no
counter names it. -/
def rxIn (c : Nat) (h : MsgHdr) (len : Nat) (f : State → State) (s : State) : State :=
  if bitOf (portCfg s c) h.cls then rxOn c len (storeRoom c h.cls len f) s else s

/-- DATA for this instance waits for buffers in the receive store (R246). -/
def dataHere (c : Nat) (h : MsgHdr) (d : DataMsg) (s : State) : State :=
  let id := s.lnk.storeNext
  let m : Msg := { body := .data d, cls := h.cls, hops := h.hops, dest := h.dest, origin := h.origin }
  let u : Us :=
    { id := s.tpt.usNext, port := 0, tree := d.terminal % 32768 / 512, stage := .buffers, kept := d.bytes,
      len := d.bytes.length + 4, term := d.terminal % 512, alloc := d.alloc, stamp := d.stamp, hasFlow := true,
      flow := d.flow % 262144, cls := d.cls, colour := d.colour % 4, ring := d.ring, poly := rxPoly s d.ring, link := some (c, id) }
  (hold c h.cls (bodyLen (.data d)) m true s).modTpt fun t => { t with us := t.us ++ [u], usNext := t.usNext + 1 }

/-- DATA_RECEIVED. -/
def dataIn (c : Nat) (h : MsgHdr) (d : DataMsg) (s : State) : State :=
  rxIn c h (bodyLen (.data d)) (fun s => if h.dest = ownInstance s then dataHere c h d s else forward c h (.data d) s) s

def execDataReceived (c : Fin 4) (h : MsgHdr) (d : DataMsg) (s : State) : Host.Outcome State Fault Refusal :=
  .next (whenRunning (dataIn c h d) s)

/-- A MIGRATE message: here, or on its way (R252). -/
def migIn (c : Nat) (h : MsgHdr) (b : Body) (act : State → State) (s : State) : State :=
  rxIn c h (bodyLen b) (seqTake c h.seq (fun s =>
    if h.dest = ownInstance s then carryOut c h.cls (bodyLen b) { body := b } act s else forward c h b s)) s

def execMigBeginReceived (c : Fin 4) (h : MsgHdr) (m : MigBegin) (s : State) : Host.Outcome State Fault Refusal :=
  .next (whenRunning (migIn c h (.migBegin m) (migBeginIn h.origin m)) s)

def execMigTerminalReceived (c : Fin 4) (h : MsgHdr) (mid : BitVec 16) (term : Fin 512) (ws : List Word) (s : State) :
    Host.Outcome State Fault Refusal :=
  .next (whenRunning (migIn c h (.migTerm mid.toNat term ws) (migTermIn h.origin mid.toNat term ws)) s)

def execMigFlowReceived (c : Fin 4) (h : MsgHdr) (mid : BitVec 16) (flow : Fin 262144) (ws : List Word) (s : State) :
    Host.Outcome State Fault Refusal :=
  .next (whenRunning (migIn c h (.migFlow mid.toNat flow ws) (migFlowIn h.origin mid.toNat flow ws)) s)

def execMigEndReceived (c : Fin 4) (h : MsgHdr) (mid : BitVec 16) (terms flows : Nat) (s : State) :
    Host.Outcome State Fault Refusal :=
  .next (whenRunning (migIn c h (.migEnd mid.toNat terms flows) (migEndIn h.origin mid.toNat terms flows)) s)

def execMigDoneReceived (c : Fin 4) (h : MsgHdr) (mid : BitVec 16) (status : Byte) (s : State) :
    Host.Outcome State Fault Refusal :=
  .next (whenRunning (migIn c h (.migDone mid.toNat status.toNat) (migDoneIn h.origin mid.toNat status.toNat)) s)

/-- INVALID_MESSAGE_RECEIVED: the bytes are checked; a message that passes is no matter of this command (R242). -/
def msgBad (c : Nat) (bs : List Byte) (s : State) : State :=
  if !(getCPort s c).up || msgFault bs = 0 then s
  else if msgFault bs ≠ 1 then lstat c 9 1 s
  else
    let s := lstat c 8 1 s
    let soon := match (getCPort s c).crcAt with
      | some t => decide (s.uptime < t + 1000000)
      | none => false
    if soon then s else raise 0x819 (wordOf c) 0 (modCPort c (fun C => { C with crcAt := some s.uptime }) s)

def execInvalidMessageReceived (c : Fin 4) (bytes : List Byte) (s : State) : Host.Outcome State Fault Refusal :=
  .next (whenRunning (msgBad c bytes) s)

/-- TRANSIT_TIMEOUT: the oldest forwarded message of a store that still waits is discarded (R246). -/
def transitLate (c : Nat) (s : State) : State :=
  match (getCPort s c).store.find? fun e => !e.local_ && s.lnk.out.any fun m => m.store = some (c, e.id) with
  | none => s
  | some e =>
    let s := s.modLnk fun l => { l with out := l.out.filter fun m => m.store ≠ some (c, e.id) }
    raise 0x81D (wordOf c) (wordOf e.msg.dest) (lstat c 13 1 (storeFree c e.id s))

def execTransitTimeout (c : Fin 4) (s : State) : Host.Outcome State Fault Refusal := .next (whenRunning (transitLate c) s)

/-! Pauses (R254, R255). -/

/-- PAUSE_RECEIVED. -/
def pauseIn (c : Nat) (enable : Byte) (quanta : List (BitVec 16)) (s : State) : State :=
  rxOn c (bodyLen (.pause 0 0)) (fun s =>
    eachBelow 8 (fun k s =>
      if enable.toNat / 2 ^ k % 2 = 0 then s
      else
        let n := (quanta.getD k 0).toNat
        modCPort c (fun C => { C with paused := tput C.paused k (if n = 0 then none else some n) }) s) (lstat c 17 1 s)) s

def execPauseReceived (c : Fin 4) (enable : Byte) (quanta : List (BitVec 16)) (s : State) : Host.Outcome State Fault Refusal :=
  .next (whenRunning (pauseIn c enable quanta) s)

def execPauseExpiry (c : Fin 4) (cls : Fin 8) (s : State) : Host.Outcome State Fault Refusal :=
  .next (whenRunning (modCPort c (fun C => { C with paused := tput C.paused cls none })) s)

/-- PAUSE_REFRESH. -/
def pauseAgain (c k : Nat) (s : State) : State :=
  let C := getCPort s c
  if C.up && C.xoffs.contains k && decide (xonOf s c k ≤ occupancy C k) then pushOwn c (linkHops s) (.pause k 0xFFFF) s else s

def execPauseRefresh (c : Fin 4) (cls : Fin 8) (s : State) : Host.Outcome State Fault Refusal :=
  .next (whenRunning (pauseAgain c cls) s)

/-! Time exchanges (R250, R251). -/

def master (s : State) (c : Nat) : Bool := decide (timeRole s c = 1 ∧ (getCPort s c).farRole = 2)
def slave (s : State) (c : Nat) : Bool := decide (timeRole s c = 2 ∧ (getCPort s c).farRole = 1)

def modExch (c : Nat) (x : Option Exch) (s : State) : State := modCPort c (fun C => { C with exch := x }) s

/-- TIME_EXCHANGE_START. -/
def timeStart (c : Nat) (s : State) : State :=
  let C := getCPort s c
  if !C.up || !master s c || timeIvl s c = 0 || C.exch.isSome then s
  else
    let s := modCPort c (fun C => { C with seqId := (C.seqId + 1) % 65536, exch := some { step := 1, seqId := C.seqId } }) s
    pushOwn c 0 (.time 0 C.seqId {}) s

def execTimeExchangeStart (c : Fin 4) (s : State) : Host.Outcome State Fault Refusal := .next (whenRunning (timeStart c) s)

/-- A time message on an up port. -/
def timeOn (c : Nat) (ok : Bool) (f : State → State) (s : State) : State := rxOn c 20 (fun s => if ok then f s else s) s

def syncIn (c seqId sub : Nat) (s : State) : State :=
  timeOn c (slave s c) (modExch c (some { step := 3, seqId := seqId, t2 := rxStamp s c sub })) s

def execSyncReceived (c : Fin 4) (seqId : BitVec 16) (sub : Fin 16) (s : State) : Host.Outcome State Fault Refusal :=
  .next (whenRunning (syncIn c seqId.toNat sub) s)

def stampOf (t : LinkStamp) : FullStamp := { sec := t.sec, ns := t.ns, qns := t.qns }

def followUpIn (c seqId : Nat) (t : LinkStamp) (s : State) : State :=
  timeOn c (slave s c) (fun s => match (getCPort s c).exch with
    | some x =>
      if x.step = 3 ∧ x.seqId = seqId then
        pushOwn c 0 (.time 1 seqId {}) (modExch c (some { x with step := 4, t1 := stampOf t }) s)
      else s
    | none => s) s

def execFollowUpReceived (c : Fin 4) (seqId : BitVec 16) (t : LinkStamp) (s : State) : Host.Outcome State Fault Refusal :=
  .next (whenRunning (followUpIn c seqId.toNat t) s)

def delayReqIn (c seqId sub : Nat) (s : State) : State :=
  timeOn c (master s c) (fun s => match (getCPort s c).exch with
    | some x =>
      if x.step = 2 ∧ x.seqId = seqId then
        pushOwn c 0 (.time 9 seqId (rxStamp s c sub)) (lstat c 19 1 (modExch c none s))
      else s
    | none => s) s

def execDelayReqReceived (c : Fin 4) (seqId : BitVec 16) (sub : Fin 16) (s : State) : Host.Outcome State Fault Refusal :=
  .next (whenRunning (delayReqIn c seqId.toNat sub) s)

/-- The results of an exchange are written, or dropped while the last ones are held (R251). -/
def timeResult (c : Nat) (x : Exch) (t4 : FullStamp) (s : State) : State :=
  let s := modExch c none s
  if (getCPort s c).resValid then raise 0x81C (wordOf c) (wordOf x.seqId) (lstat c 20 1 s)
  else
    let s := modCPort c (fun C => { C with resValid := true, resSeq := x.seqId, res := [x.t1, x.t2, x.t3, t4] }) s
    raise 0x81B (wordOf c) (wordOf x.seqId) (lstat c 19 1 s)

def delayRespIn (c seqId : Nat) (t : LinkStamp) (s : State) : State :=
  timeOn c (slave s c) (fun s => match (getCPort s c).exch with
    | some x => if x.step = 5 ∧ x.seqId = seqId then timeResult c x (stampOf t) s else s
    | none => s) s

def execDelayRespReceived (c : Fin 4) (seqId : BitVec 16) (t : LinkStamp) (s : State) : Host.Outcome State Fault Refusal :=
  .next (whenRunning (delayRespIn c seqId.toNat t) s)

def execTimeExchangeTimeout (c : Fin 4) (s : State) : Host.Outcome State Fault Refusal :=
  .next (whenRunning (fun s => if (getCPort s c).exch.isSome then lstat c 20 1 (modExch c none s) else s) s)

/-! Low-power idle (R257). -/

/-- A message waits for the port. -/
def hasWork (s : State) (c : Nat) : Bool :=
  let C := getCPort s c
  !C.txq.isEmpty || !C.retx.isEmpty || C.cur.isSome || s.lnk.out.any fun m => decide (pickPort s m.dest (msgPath s m) = some c)

/-- LPI_ENTER: 16 SLEEP blocks on each lane, and then electrical idle. -/
def lpiEnter (c : Nat) (s : State) : State :=
  if (getCPort s c).up && !(getCPort s c).asleep && decide (lpiIdle s c ≠ 0) && !hasWork s c then
    let s := putBlocks c (List.replicate 64 sleepBlock) (fillRow c (newLines c s))
    lstat c 21 1 (modCPort c (fun C => { C with asleep := true }) s)
  else s

/-- WAKE blocks that a lane sends: for the greater of the two ends' `WAKE_NS` (R235, R257). -/
def wakeRows (s : State) (c : Nat) : Nat :=
  let far := (getLane s (4 * c)).cap
  ceilDiv (max ownWake ((far.getD 6 0).toNat * 256 + (far.getD 7 0).toNat) * 25) 64

def execLpiEnter (c : Fin 4) (s : State) : Host.Outcome State Fault Refusal := .next (whenRunning (lpiEnter c) s)

/-- LPI_WAKE: WAKE blocks, then ALIGN on all four lanes. -/
def lpiWake (c : Nat) (s : State) : State :=
  if (getCPort s c).asleep && hasWork s c then
    let s := wakeLanes c s
    let s := eachBelow (4 * wakeRows s c) (fun k s => putLane (4 * c + k % 4) wakeBlock s) (newLines c s)
    alignRow c (modCPort c (fun C => { C with asleep := false }) s)
  else s

def execLpiWake (c : Fin 4) (s : State) : Host.Outcome State Fault Refusal := .next (whenRunning (lpiWake c) s)

end Sys2Proof.Machine
end

