-- ==== Sys2Proof/Machine/Lanes.lean ====
section
/-! DEFINITION. The lanes of the Ebivios link: enabling, per-lane resets (R48, R58), training (R230–R234), capabilities and the
switch to full rate (R235, R236), block lock and alignment (R237–R240), the state of a port (R241, R249), sleep (R257). -/

namespace Sys2Proof.Machine

/-! Port down and up (R241). -/

/-- The port whose lane this is. -/
def lanePort (l : Nat) : Nat := l / 4

/-- A port goes down: its pauses end, its frame in transfer is gone, and it keeps what is sequenced (R58, R241, R249). -/
def portStop (c : Nat) (s : State) : State :=
  let s := wakeLanes c (finishMsg c s)
  modCPort c (fun C => { C with
    up := false, paused := [], xoffs := [], asleep := false, rxAsleep := false,
    txq := C.txq.filter fun m => !isUrgent m.body && !isTime m.body }) s

/-- Lane `l` leaves ACTIVE: an up port goes down. -/
def portDown (l : Nat) (s : State) : State :=
  let c := lanePort l
  if (getCPort s c).up then raise 0x814 (wordOf c) (wordOf l) (portStop c s) else s

/-- A lane changes state: a port kept down for a mismatch may try again. -/
def laneTo (l st : Nat) (s : State) : State :=
  modCPort (lanePort l) (fun C => { C with blocked := false }) (modLane l (fun L => { L with st := st }) s)

/-- A message that was being received on a lane's port is discarded with the lane's queues (R58). -/
def cutMessage (l : Nat) (s : State) : State :=
  if (getLane s l).st = 5 && (getCPort s (lanePort l)).up then
    addCtr (laneCtr l) (ofBit (Config.midMessage s.freeCtr)) (drawn s)
  else s

/-- A per-lane reset (R48, R58): the lane's queues are flushed in both directions. -/
def laneReset (l : Nat) (s : State) : State :=
  let s := cutMessage l s
  let s := laneTo l 0 (modLane l (fun L => { resetting := true, noClkSaid := L.noClkSaid }) s)
  portDown l (lstat (lanePort l) 22 1 s)

/-- LANE_RESET_DONE: an enabled lane re-enters DETECT. -/
def laneResetDone (l : Nat) (s : State) : State :=
  if (getLane s l).resetting then
    let s := modLane l (fun L => { L with resetting := false }) s
    if laneOn s l then laneTo l 1 s else s
  else s

def execLaneResetDone (l : Fin 16) (s : State) : Host.Outcome State Fault Refusal := .next (whenRunning (laneResetDone l) s)

/-! `LNK_LANE_CTRL` (R230, R259). -/

/-- What a changed `ENABLE` bit does; the domain of a disabled lane sits in locker (R299). -/
def laneSwitched (l : Nat) (was : Bool) (s : State) : State :=
  if was = laneOn s l then s
  else if was then modDom (128 + l) Dom.laid (laneReset l s)
  else
    let s := wakeDom 213 (wakeDom (128 + l) s)
    if (getLane s l).resetting then s else laneTo l 1 (modLane l (fun L => { L with noClkSaid := false }) s)

/-- A write of `LNK_LANE_CTRL`, one lane after another. -/
def laneCtrlWrite (width : Nat) (v : Word) (s : State) : State :=
  let old := reg s 0x80004
  windowWrite 0x80004 width v (eachBelow 16 fun l s => laneSwitched l (bitOf old l) s) s

/-- A word with one bit set or cleared. -/
def withBit (w : Word) (i : Nat) (b : Bool) : Word :=
  wordOf (w.toNat - ofBit (bitOf w i) * 2 ^ i + ofBit b * 2 ^ i)

def execLaneEnable (l : Fin 16) (s : State) : Host.Outcome State Fault Refusal :=
  .next (laneCtrlWrite 4 (withBit (reg s 0x80004) l true) s)

def execLaneDisable (l : Fin 16) (s : State) : Host.Outcome State Fault Refusal :=
  .next (laneCtrlWrite 4 (withBit (reg s 0x80004) l false) s)

/-- LINK_RETRAIN (R50, R100): a lane that is enabled and not in its reset is reset. -/
def retrain (a : Adm) (s : State) : State :=
  let l := (aTarget a.ws).toNat
  if laneOn s l && !(getLane s l).resetting then admDone a.q a.idx 0 [] (laneReset l s) else admRefuse a 2 s

def execLinkRetrain (q : Fin 64) (idx : Word) (s : State) : Host.Outcome State Fault Refusal :=
  .next (whenRunning (atTurn q idx 0x70 retrain) s)

/-! DETECT (R38, R230). -/

/-- The reference clock of lanes `8h` to `8h + 7` is absent: each that is in DETECT is affected, and told of once (R38). -/
def noRefClk (h : Nat) (s : State) : State :=
  eachBelow 8 (fun i s =>
    let l := 8 * h + i
    if (getLane s l).st = 1 && !(getLane s l).noClkSaid then
      raise 0x810 (wordOf l) 0 (modLane l (fun L => { L with noClkSaid := true }) s)
    else s) s

/-- LANE_PROBE: entry to TRAIN takes the preset coefficients (R233, R258). -/
def probe (l : Nat) (found refClk : Bool) (s : State) : State :=
  if (getLane s l).st ≠ 1 then s
  else if !refClk then noRefClk (l / 8) s
  else
    let s := eachBelow 8 (fun i s => modLane (l / 8 * 8 + i) (fun L => { L with noClkSaid := false }) s) s
    if found then laneTo l 2 (modLane l (fun _ => {}) s) else s

def execLaneProbe (l : Fin 16) (found refClk : Bool) (s : State) : Host.Outcome State Fault Refusal :=
  .next (whenRunning (probe l found refClk) s)

/-- LANE_TIME_LIMIT: a lane that saw only CAP sets that are not valid also reports a mismatch (R235). -/
def timeLimit (l : Nat) (s : State) : State :=
  let L := getLane s l
  if L.st < 2 ∨ 4 < L.st then s
  else
    let s := if L.st = 4 && L.sawBad && L.cap.isEmpty then raise 0x815 (wordOf (lanePort l)) 2 s else s
    raise 0x811 (wordOf l) (wordOf L.st) (laneReset l s)

def execLaneTimeLimit (l : Fin 16) (s : State) : Host.Outcome State Fault Refusal := .next (whenRunning (timeLimit l) s)

/-! Symbol lock (R234). -/

/-- A lane at one-eighth rate. -/
def isSlow (L : Lane) : Bool := decide (2 ≤ L.st ∧ L.st ≤ 4) && !L.full

def execCharacterAlignment (l : Fin 16) (s : State) : Host.Outcome State Fault Refusal :=
  .next (whenRunning (fun s => if isSlow (getLane s l) then modLane l (fun L => { L with symLock := true }) s else s) s)

/-- SYMBOL_LOCK_LOST: its errors are counted; TRAIN hunts again, LOCK and EXCHANGE reset the lane. -/
def symbolLost (x : LaneLoss) (s : State) : State :=
  let l := x.l.val
  let L := getLane s l
  if !isSlow L || !L.symLock then s
  else
    let s := addCtr (laneCtr l) x.errors s
    if L.st = 2 then modLane l (fun L => { L with symLock := false, tsSeen := 0 }) s
    else raise 0x812 (wordOf l) 3 (laneReset l s)

def execSymbolLockLost (l : LaneLoss) (s : State) : Host.Outcome State Fault Refusal := .next (whenRunning (symbolLost l) s)

/-! Ordered sets (R232). -/

def psAt (ps : List Byte) (i : Nat) : Nat := (ps.getD i 0).toNat

/-- The CRC-16 of a received set is right (R232). -/
def setOk (ps : List Byte) (x : SetTail) : Bool := decide (crc16 (x.type :: (List.range 12).map fun i => ps.getD i 0) = x.crc.toNat)

/-- An ordered set at a lane that has symbol lock: one with a wrong CRC, or of a type that it is not taken for, is counted and
ignored; single errors count for the lane (R234). -/
def orderedSet (l : Nat) (type : Byte) (ps : List Byte) (x : SetTail) (f : State → State) (s : State) : State :=
  if !isSlow (getLane s l) || !(getLane s l).symLock then s
  else
    let s := if x.errors = 0 then s else addCtr (laneCtr l) x.errors s
    if x.type = type && setOk ps x then f s else lstat (lanePort l) 23 1 s

/-! The tap handshake (R233, R258). -/

/-- The FFE codes that the transmitter can take. -/
def tapsOk (pre main post : Nat) : Bool :=
  decide (pre ≤ 10 ∧ 30 ≤ main ∧ main ≤ 63 ∧ post ≤ 24 ∧ pre + main + post ≤ 64 ∧ 16 + pre + post ≤ main)

/-- The status code of one tap, 0 pre, 1 main, 2 post. -/
def tapStatus (L : Lane) (i : Nat) : Nat := L.tapStat / 4 ^ i % 4
def setStatus (i v : Nat) (L : Lane) : Lane := { L with tapStat := L.tapStat - tapStatus L i * 4 ^ i + v * 4 ^ i }

/-- One step of a tap, up or down. -/
def stepTap (i : Nat) (up : Bool) (L : Lane) : Lane :=
  let mv := fun v : Nat => if up then v + 1 else v - 1
  match i with
  | 0 => { L with pre := mv L.pre }
  | 1 => { L with main := mv L.main }
  | _ => { L with post := mv L.post }

/-- The value of a tap. -/
def tapValue (i : Nat) (L : Lane) : Nat :=
  match i with
  | 0 => L.pre
  | 1 => L.main
  | _ => L.post

/-- A request for one tap: applied once, reported until the request returns to hold. -/
def tapRequest (i r : Nat) (L : Lane) : Lane :=
  if r = 0 ∨ r = 3 then setStatus i 0 L
  else if tapStatus L i ≠ 0 then L
  else
    let up := decide (r = 1)
    let M := stepTap i up L
    if tapsOk M.pre M.main M.post && (up || decide (0 < tapValue i L)) then setStatus i 1 M
    else setStatus i (if up then 3 else 2) L

/-- The byte P1 of a TS set. -/
def tapHandshake (p1 : Nat) (L : Lane) : Lane :=
  if p1 / 64 % 2 = 1 then { L with pre := 4, main := 52, post := 8, tapStat := 21 }
  else tapRequest 2 (p1 / 16 % 4) (tapRequest 1 (p1 / 4 % 4) (tapRequest 0 (p1 % 4) L))

/-- One tap's part of the receiver's request: kept until the far end answers, then hold; from hold, what the receiver asks next (0b11
is not used). -/
def nextAsk (req status ask i : Nat) : Nat :=
  let r := req / 4 ^ i % 4
  let answered := decide (status / 4 ^ i % 4 ≠ 0)
  if r ≠ 0 then (if answered then 0 else r) else if answered || ask / 4 ^ i % 4 = 3 then 0 else ask / 4 ^ i % 4

/-- The receiver's request after a TS set with status P2 (R233); with no further request once it is trained. `PRESET` is asked for
with every tap at hold, and is kept until all three statuses answer it. -/
def askNext (status ask : Nat) (L : Lane) : Lane :=
  if L.trained then { L with req := 0 }
  else if L.req / 64 % 2 = 1 then
    { L with req := if (List.range 3).all fun i => decide (status / 4 ^ i % 4 ≠ 0) then 0 else 64 }
  else
    let taps := (List.range 3).foldl (fun a i => a + nextAsk L.req status ask i * 4 ^ i) 0
    { L with req := if taps = 0 && decide (status % 64 = 0) && decide (ask / 64 % 2 = 1) then 64 else taps }

/-- TRAIN ends when both receivers are trained (R230). -/
def trainEnd (l : Nat) (s : State) : State :=
  let L := getLane s l
  if L.st = 2 && L.trained && decide (8 ≤ L.tsSeen) then laneTo l 3 s else s

/-- TS_RECEIVED. -/
def tsIn (l : Nat) (ps : List Byte) (s : State) : State :=
  if (getLane s l).st ≠ 2 then s
  else trainEnd l (drawn (modLane l (fun L =>
    askNext (psAt ps 2) (Config.tapRequest s.freeCtr).toNat
      { tapHandshake (psAt ps 1) L with tsSeen := if psAt ps 3 % 2 = 1 then sat 8 (L.tsSeen + 1) else 0 }) s))

def execTsReceived (l : Fin 16) (ps : List Byte) (tail : SetTail) (s : State) : Host.Outcome State Fault Refusal :=
  .next (whenRunning (orderedSet l 0xB5 ps tail (tsIn l ps)) s)

/-- RECEIVER_TRAINED: the receiver's own requests are all hold and its equaliser has converged (R233); its setting is measured,
not given (R258). -/
def receiverTrained (l : Nat) (s : State) : State :=
  if (getLane s l).st = 2 && decide ((getLane s l).req = 0) then
    trainEnd l (drawn (modLane l (fun L => { L with trained := true, ctle := (Config.ctle s.freeCtr).toNat }) s))
  else s

def execReceiverTrained (l : Fin 16) (s : State) : Host.Outcome State Fault Refusal :=
  .next (whenRunning (receiverTrained l) s)

/-- LK_RECEIVED: `clean` says that 4,096 consecutive characters have come without error. -/
def lkIn (l : Nat) (ps : List Byte) (clean : Bool) (s : State) : State :=
  if (getLane s l).st ≠ 3 then s
  else
    let n := if psAt ps 1 % 2 = 1 then sat 8 ((getLane s l).lkSeen + 1) else 0
    let s := modLane l (fun L => { L with lkSeen := n, locked := L.locked || clean }) s
    if (getLane s l).locked && decide (8 ≤ n) then laneTo l 4 s else s

def execLkReceived (l : Fin 16) (ps : List Byte) (tail : SetTail) (clean : Bool) (s : State) : Host.Outcome State Fault Refusal :=
  .next (whenRunning (orderedSet l 0xC6 ps tail (lkIn l ps clean)) s)

/-! Capabilities (R235, R236). -/

/-- A CAP set with its `ACK` bit clear. -/
def capSet (ps : List Byte) : List Byte := (List.range 12).map fun i => if i = 10 then 0 else ps.getD i 0

/-- CAP_SET_RECEIVED: `PROTOCOL` and `RATE` are 1 in a valid set. -/
def capSetIn (l : Nat) (ps : List Byte) (s : State) : State :=
  let L := getLane s l
  if L.st ≠ 4 then s
  else if psAt ps 1 ≠ 0x11 then modLane l (fun L => { L with sawBad := true, capSame := 0 }) s
  else
    let same := if L.cap = capSet ps then sat 3 (L.capSame + 1) else 1
    let ack := L.ack || decide (3 ≤ same)
    modLane l (fun L => { L with cap := capSet ps, capSame := same, ack := ack, farAck := L.farAck || decide (psAt ps 10 % 2 = 1) }) s

def execCapSetReceived (l : Fin 16) (ps : List Byte) (tail : SetTail) (s : State) : Host.Outcome State Fault Refusal :=
  .next (whenRunning (orderedSet l 0xD7 ps tail (capSetIn l ps)) s)

/-- MARK_RECEIVED: the receiver switches after `COUNT` further set times. -/
def markIn (l : Nat) (ps : List Byte) (s : State) : State :=
  if (getLane s l).st ≠ 4 then s else modLane l (fun L => { L with markLeft := some (psAt ps 1 % 8) }) s

def execMarkReceived (l : Fin 16) (ps : List Byte) (tail : SetTail) (s : State) : Host.Outcome State Fault Refusal :=
  .next (whenRunning (orderedSet l 0xE8 ps tail (markIn l ps)) s)

/-- RATE_SWITCH: the receiver's countdown ends. -/
def rateSwitch (l : Nat) (s : State) : State :=
  if (getLane s l).st = 4 && (getLane s l).markLeft.isSome then
    modLane l (fun L => { L with full := true, markLeft := none, symLock := false }) s
  else s

def execRateSwitch (l : Fin 16) (s : State) : Host.Outcome State Fault Refusal := .next (whenRunning (rateSwitch l) s)

/-! Port up (R241, R249, R250). -/

def capInstance (cap : List Byte) : Nat := (psAt cap 2 * 256 + psAt cap 3) % 16384
def capPort (cap : List Byte) : Nat := psAt cap 0 / 4 % 4
def capSession (cap : List Byte) : Nat := psAt cap 8 * 256 + psAt cap 9

def laneCap (s : State) (c i : Nat) : List Byte := (getLane s (4 * c + i)).cap

/-- The in-port numbers that the ALIGN blocks of a port's lanes carry: they give the lanes' order, so that lanes crossed within the
port still work (R240). -/
def laneOrder (s : State) (c : Nat) : List Nat := (List.range 4).map fun i => (getLane s (4 * c + i)).pos

/-- All four lanes are ACTIVE and aligned, each in a place of its own. -/
def lanesReady (s : State) (c : Nat) : Bool :=
  ((List.range 4).all fun i => decide ((getLane s (4 * c + i)).st = 5) && (getLane s (4 * c + i)).aligned) &&
    (List.range 4).all fun i => (laneOrder s c).contains i

/-- Why a port whose lanes are ready stays down. -/
def mismatch (s : State) (c : Nat) : Option Nat :=
  let k := laneCap s c 0
  if capInstance k = ownInstance s then some 0
  else if !(List.range 4).all (fun i => decide (capInstance (laneCap s c i) = capInstance k ∧
      capPort (laneCap s c i) = capPort k ∧ capSession (laneCap s c i) = capSession k)) then some 1
  else if psAt k 4 = 0 then some 3
  else none

/-- A far end of another session: both directions start again at 0 (R249). -/
def sessionChange (c new : Nat) (s : State) : State :=
  let old := (getCPort s c).session
  let s := modCPort c (fun C => { C with session := some new }) s
  match old with
  | none => s
  | some o =>
    if o = new then s
    else
      let n := (getCPort s c).unacked.length
      let s := modCPort c (fun C =>
        { C with nextSeq := 0, expect := 0, accepted := 0, unacked := [], retx := [], retxEp := false, gapAt := none }) s
      raise 0x816 (wordOf c) (wordOf n) (lstat c 24 n s)

/-- Roles that run no exchange. -/
def rolesClash (s : State) (c : Nat) : Bool := !master s c && !slave s c

/-- A port comes up when nothing holds it down. -/
def tryUp (c : Nat) (s : State) : State :=
  if (getCPort s c).up || (getCPort s c).blocked || !lanesReady s c then s
  else
    match mismatch s c with
    | some k => raise 0x815 (wordOf c) (wordOf k) (modCPort c (fun C => { C with blocked := true }) s)
    | none =>
      let k := laneCap s c 0
      let s := modCPort c (fun C => { C with
        up := true, farId := capInstance k, farPort := capPort k, farClasses := psAt k 4, farRole := psAt k 5 / 64 }) s
      let s := raise 0x813 (wordOf c) (wordOf (capInstance k + capPort k * 65536)) s
      let s := sessionChange c (capSession k) s
      let s := if rolesClash s c then raise 0x815 (wordOf c) 4 s else s
      pushOwn c (linkHops s) (.cap (capFields s c ++ [1])) s

/-- BLOCK_LOCK: a lane at full rate enters ACTIVE (R236, R239). -/
def blockLock (l : Nat) (s : State) : State :=
  let L := getLane s l
  if L.st = 4 && L.full then tryUp (lanePort l) (laneTo l 5 s) else s

def execBlockLock (l : Fin 16) (s : State) : Host.Outcome State Fault Refusal := .next (whenRunning (blockLock l) s)

/-- LANE_ALIGNED: it also ends the wait that follows a WAKE (R240, R257). -/
def laneAligned (x : LaneAlign) (s : State) : State :=
  let l := x.l.val
  if (getLane s l).st = 5 then
    tryUp (lanePort l) (modLane l (fun L => { L with aligned := true, wakeLock := false, pos := x.pos }) s)
  else s

def execLaneAligned (l : LaneAlign) (s : State) : Host.Outcome State Fault Refusal := .next (whenRunning (laneAligned l) s)

/-! Locks lost in ACTIVE (R239, R240, R257). -/

/-- A lane of ACTIVE loses what `cause` names. -/
def laneLost (l cause : Nat) (s : State) : State := raise 0x812 (wordOf l) (wordOf cause) (laneReset l s)

/-- The checks of R239 and R240 are in force. -/
def checked (s : State) (l : Nat) : Bool := decide ((getLane s l).st = 5) && !(getCPort s (lanePort l)).rxAsleep

/-- BLOCK_LOCK_LOST: the invalid headers that no INVALID_BLOCK has brought are counted with it. -/
def headersLost (x : LaneLoss) (s : State) : State :=
  if checked s x.l then laneLost x.l 0 (addCtr (laneCtr x.l) x.errors s) else s

def execBlockLockLost (l : LaneLoss) (s : State) : Host.Outcome State Fault Refusal := .next (whenRunning (headersLost l) s)

def execAlignmentLost (l : Fin 16) (s : State) : Host.Outcome State Fault Refusal :=
  .next (whenRunning (fun s => if checked s l then laneLost l 1 s else s) s)

/-- LANE_RECOVERED_CLOCK_LOST: flushed as by a per-lane reset, without an event of its own (R58). -/
def execLaneRecoveredClockLost (l : Fin 16) (s : State) : Host.Outcome State Fault Refusal :=
  .next (whenRunning (fun s => if 2 ≤ (getLane s l).st then laneReset l s else s) s)

/-- Blocks pass the descrambler; the last of them, as it is read. -/
def readLine : BitVec 58 → List LineBlock → Option (Option Block) × BitVec 58
  | st, [] => (none, st)
  | st, [x] => ((readBlock st x).map some id)
  | st, x :: r => readLine (readBlock st x).2 r

/-- INVALID_BLOCK: an invalid or poisoned block is counted, and ends the message in progress (R46, R238); a block that is neither
is no matter of this command. -/
def invalidBlock (l : Nat) (x : RxBlocks) (s : State) : State :=
  let L := getLane s l
  let (b, st) := readLine L.rxScr x.line
  if L.st ≠ 5 then s
  else
    let s := modLane l (fun L => { L with rxScr := st }) s
    match b with
    | none => s
    | some b =>
      if !badBlock b && decide (x.poison = 0) then s
      else
        let s := addCtr (laneCtr l) 1 s
        let s := if x.mid && (getCPort s (lanePort l)).up then lstat (lanePort l) 9 1 s else s
        parityError x.poison 5 l s

def execInvalidBlock (l : Fin 16) (rx : RxBlocks) (s : State) : Host.Outcome State Fault Refusal :=
  .next (whenRunning (invalidBlock l rx) s)

/-! Sleep of the far transmitter (R257). -/

def sleepIn (c : Nat) (s : State) : State :=
  if (getCPort s c).up then modCPort c (fun C => { C with rxAsleep := true }) s else s

def execSleepReceived (c : Fin 4) (s : State) : Host.Outcome State Fault Refusal := .next (whenRunning (sleepIn c) s)

/-- WAKE_RECEIVED: the lane domains wake (R305), and every lane must lock and align again. -/
def wakeIn (c : Nat) (s : State) : State :=
  if (getCPort s c).rxAsleep then
    eachBelow 4 (fun i s => modLane (4 * c + i) (fun L => { L with wakeLock := true }) s) <| wakeLanes c
      (modCPort c (fun C => { C with rxAsleep := false }) s)
  else s

def execWakeReceived (c : Fin 4) (s : State) : Host.Outcome State Fault Refusal := .next (whenRunning (wakeIn c) s)

def execLpiWakeTimeout (l : Fin 16) (s : State) : Host.Outcome State Fault Refusal :=
  .next (whenRunning (fun s => if (getLane s l).st = 5 && (getLane s l).wakeLock then laneLost l 2 s else s) s)

/-! CAP messages (R249). -/

/-- P1–P9 of a lane's CAP sets, with which a CAP message agrees: P10 holds no more than `ACK`. -/
def capAgrees (cap ps : List Byte) : Bool := (List.range 9).all fun i => decide (psAt cap (i + 1) = psAt ps i)

/-- A CAP message that differs from the port's CAP sets takes the port down. -/
def capMsgIn (c : Nat) (ps : List Byte) (s : State) : State :=
  if capAgrees (laneCap s c 0) ps then s
  else raise 0x815 (wordOf c) 1 (modCPort c (fun C => { C with blocked := true }) (portStop c s))

def execCapReceived (c : Fin 4) (h : MsgHdr) (ps : List Byte) (s : State) : Host.Outcome State Fault Refusal :=
  .next (whenRunning (rxIn c h 12 (seqTake c h.seq (carryOut c h.cls 12 { body := .cap ps } (capMsgIn c ps)))) s)

end Sys2Proof.Machine
end

