-- ==== Sys2Proof/Machine/Monitor.lean ====
section
/-! DEFINITION. The monitor: the trace ring (R324, R325), bandwidth windows (R315), and the scoreboard (R253, R316–R321). -/

namespace Sys2Proof.Machine

/-! Rings that belong to a unit, not to a queue number (R221, R224, R325). -/

/-- The index-area read that an enable makes (R25, R26). -/
def areaRead (addr : Nat) (index : Answer (Word × Word)) (s : State) : State :=
  match index with
  | .data _ => perf (11 + addr / 128 % 4) 1 s
  | .error => addrEvent 0x110 addr 2 s
  | .timeout => quarantine s.fab.next (addrEvent 0x112 addr 2 (s.modFab fun f => { f with next := f.next + 1 }))

/-- The two words of an index area that is fit to start a ring. -/
def areaStart (index : Answer (Word × Word)) : Option Word :=
  match index with
  | .data (pi, ci) => if pi = ci then some pi else none
  | _ => none

/-! The trace ring. -/

/-- The ring's PI word that is due goes out once every entry that it reports is acknowledged; a point of R68 reached meanwhile
comes next (R24, R68). -/
def traceIndexOut (s : State) : State :=
  let m := s.mon
  match m.trIdx with
  | none => s
  | some v =>
    if gap m.trPi v < unackedBack s (fun u => u = .trace) (regAddr s 0xB0018) 64 (2 ^ traceSize s) m.trPi then s
    else
      let n := gap m.trPi v
      let s := s.modMon fun m =>
        { m with trUnrep := n, trIdx := if 16 ≤ n || (decide (0 < n) && m.trHold.isEmpty) then some m.trPi else none }
      fabWrite .traceIndex (regAddr s 0xB0020) 4 [v] s

/-- TRACE_RING_ENABLE: the checks of R221 hold by the registers' own fields but for the two words. -/
def traceStart (index : Answer (Word × Word)) (s : State) : State :=
  if s.mon.trEn then s
  else
    let s := areaRead (regAddr s 0xB0020) index s
    match areaStart index with
    | none => s.modMon fun m => { m with trBad := true }
    | some i => s.modMon fun m =>
        { m with trEn := true, trBad := false, trStopped := false, trPi := i, trCi := i, trUnrep := 0, trIdx := none }

def traceEnable (v : Word) (index : Answer (Word × Word)) (s : State) : State :=
  windowWrite 0xB0010 4 v (fun s => if bitOf v 0 then traceStart index s else s) s

def execTraceRingEnable (value : Word) (index : Answer (Word × Word)) (s : State) : Host.Outcome State Fault Refusal :=
  .next (traceEnable value index s)

/-- A CI read may go out: the ring is full in the block's own copy, no read is outstanding, none was issued in the last µs. -/
def ciReadOk (s : State) (on : Bool) (full : Bool) (u : RdUse) (at' : Option Nat) : Bool :=
  on && full && !asked s u && match at' with
    | some t => decide (t + 1000 ≤ s.uptime)
    | none => true

/-- TRACE_CI_READ. -/
def traceCiRead (s : State) : State :=
  let m := s.mon
  if ciReadOk s (m.trEn && !m.trStopped) (decide (gap m.trPi m.trCi = 2 ^ traceSize s)) .traceCi m.trReadAt then
    fabRead .traceCi (regAddr s 0xB0020) 8 (s.modMon fun m => { m with trReadAt := some s.uptime })
  else s

def execTraceCiRead (s : State) : Host.Outcome State Fault Refusal := .next (whenRunning traceCiRead s)

/-- Held records are written as space allows. -/
def drainTrace : Nat → State → State
  | 0, s => s
  | n + 1, s =>
    match s.mon.trHold with
    | [] => s
    | ws :: r =>
      if gap s.mon.trPi s.mon.trCi < 2 ^ traceSize s then drainTrace n (writeTrace ws (s.modMon fun m => { m with trHold := r }))
      else s

/-- TRACE_CI_RESPONSE: an invalid CI stops the ring, and what it held is not written. -/
def traceCiIn (ci : Word) (s : State) : State :=
  if !reading s .traceCi then s
  else
    let s := returnReads (fun u => u = .traceCi) s
    let m := s.mon
    if !m.trEn || m.trStopped then s
    else if 2 ^ traceSize s < gap m.trPi ci then
      perf 30 m.trHold.length (s.modMon fun m => { m with trStopped := true, trHold := [], trLost := m.trLost + m.trHold.length })
    else drainTrace 32 (s.modMon fun m => { m with trCi := ci })

def execTraceCiResponse (ci : Word) (s : State) : Host.Outcome State Fault Refusal := .next (whenRunning (traceCiIn ci) s)

/-! Bandwidth windows (R315, R326). -/

/-- The bytes that a port's two counters hold. -/
def bwCount (s : State) (n : Nat) : Nat × Nat :=
  ((getCtr s (perfCtr (256 + 4 * n))).toNat, (getCtr s (perfCtr (258 + 4 * n))).toNat)

/-- Every port's window starts at the counters as they stand. -/
def bwStart (s : State) : State :=
  eachBelow 64 (fun n s => s.modMon fun m => { m with bwBase := tset m.bwBase (0, 0) n (bwCount s n) }) s

/-- Bytes counted since a count was noted, over a wrap of the counter. -/
def since (now was : Nat) : Nat := (now + 281474976710656 - was) % 281474976710656

/-- A window ends: its results are latched for every port. -/
def bwEnd (short : Bool) (s : State) : State :=
  let s := eachBelow 64 (fun n s => s.modMon fun m =>
    let now := bwCount s n
    let was := tget m.bwBase n (0, 0)
    { m with bwRes := tset m.bwRes (0, 0) n (since now.1 was.1 % 1099511627776, since now.2 was.2 % 1099511627776) }) s
  bwStart (s.modMon fun m => { m with bwSeq := (m.bwSeq + 1) % 65536, bwShort := short || m.bwAbandoned, bwAbandoned := false })

def execBwWindowEnd (s : State) : Host.Outcome State Fault Refusal := .next (whenRunning (bwEnd false) s)

/-- A write of `MON_BW_CTRL`: a changed length abandons the window in progress. -/
def bwCtrlWrite (width : Nat) (v : Word) (s : State) : State :=
  let old := reg s 0xB0030
  windowWrite 0xB0030 width v (fun s =>
    if reg s 0xB0030 = old then s else bwStart (s.modMon fun m => { m with bwAbandoned := true })) s

def execBwWindowChange (value : Word) (s : State) : Host.Outcome State Fault Refusal := .next (bwCtrlWrite 4 value s)

/-- The four words of a port's result. -/
def bwWords (s : State) (n : Nat) : List Word :=
  let r := tget s.mon.bwRes n (0, 0)
  [wordOf (r.1 % 4294967296), wordOf (r.1 / 4294967296), wordOf (r.2 % 4294967296),
   wordOf (r.2 / 4294967296 + s.mon.bwSeq * 65536)]

/-- BW_LATCH_READ: word +0x0 latches the set. -/
def bwRead (n : Nat) (s : State) : State :=
  let ws := bwWords s n
  (s.modMon fun m => { m with bwLatch := tput m.bwLatch n (some ws) }).modHif fun h => { h with readData := wAt ws 0 }

def execBwLatchRead (n : Fin 64) (s : State) : Host.Outcome State Fault Refusal := .next (windowRead (bwRead n) s)

/-! The scoreboard (R316–R321). -/

/-- The time base in quarters of a nanosecond. -/
def nowQuarter (s : State) : Nat := (now32 s.tim / 1073741824).toNat

/-- Pending freeze times, in the order of T. -/
def insertFreeze (f : Freeze) : List Freeze → List Freeze
  | [] => [f]
  | g :: r => if f.t < g.t then f :: g :: r else g :: insertFreeze f r

/-- A freeze time comes: kept, or dropped at a full queue. -/
def addFreeze (f : Freeze) (s : State) : State :=
  if 8 ≤ s.mon.freezes.length then
    let s := raise 0xB21 (wordOf f.number) 0xFFFFFFFF (perf 33 1 s)
    match f.cmd with
    | some (q, idx) => admDone q idx 5 [] s
    | none => s
  else
    let s := s.modMon fun m => { m with freezes := insertFreeze f m.freezes }
    match f.cmd with
    | some (q, idx) => modAdm q idx (fun a => { a with stage := .turned }) s
    | none => s

/-- SNAP messages go out on every up port that a test picks. -/
def sendSnap (pick : Nat → Bool) (m : Msg) (s : State) : State :=
  eachBelow 4 (fun c s => if pick c && (getCPort s c).up then pushTx c m s else s) s

/-- A snapshot that a command took is in progress (R100, R319). -/
def snapBusy (s : State) : Bool :=
  (s.mon.freezes.any fun f => f.cmd.isSome) || s.mon.image.any fun m => m.fz.cmd.isSome

/-- SNAPSHOT at its turn (R100, R253, R319). -/
def snapTake (a : Adm) (s : State) : State :=
  if snapBusy s then admRefuse a 2 s
  else
  let n := (s.mon.snapCount + 1) % 4294967296
  let cluster := decide (aParam a.ws = 1)
  let t := nowQuarter s + (if cluster then bitsOf (reg s 0x80008) 0 10 * 4000 else 0)
  let full := decide (8 ≤ s.mon.freezes.length)
  let s := addFreeze { t := t, number := n, origin := ownInstance s, cluster := cluster, cmd := some (a.q, a.idx) } s
  if full then s
  else
    let s := s.modMon fun m => { m with snapCount := n }
    if cluster then
      sendSnap (fun _ => true) { body := .snap (n % 65536) (t / 4000000000 % 281474976710656) (t / 4 % 1000000000),
                                 hops := linkHops s, origin := ownInstance s } s
    else s

def execSnapshot (q : Fin 64) (idx : Word) (s : State) : Host.Outcome State Fault Refusal :=
  .next (whenRunning (atTurn q idx 0x50 snapTake) s)

/-- A trigger of another instance (R253, R320). -/
def snapIn (c : Nat) (h : MsgHdr) (number sec ns : Nat) (s : State) : State :=
  if s.lnk.seen.contains (h.origin, number) then s
  else
    let s := s.modLnk fun l => { l with seen := ((h.origin, number) :: l.seen).take 256 }
    let s := if bitOf (reg s 0xB0048) 16 then
        addFreeze { t := (sec * 1000000000 + ns) * 4, number := number, origin := h.origin, cluster := true, cmd := none } s
      else perf 33 1 s
    if h.hops = 0 then s
    else sendSnap (fun k => decide (k ≠ c))
      { body := .snap number sec ns, hops := h.hops - 1, dest := h.dest, origin := h.origin } s

def execSnapReceived (c : Fin 4) (h : MsgHdr) (number : BitVec 16) (sec : Nat) (ns : Nat) (s : State) :
    Host.Outcome State Fault Refusal :=
  .next (whenRunning (rxIn c h 12 (seqTake c h.seq
    (carryOut c h.cls 12 { body := .snap number.toNat sec ns } (snapIn c h number.toNat sec ns)))) s)

/-- Offsets of the counters of an image, in its order (R317). -/
def imageOffsets : List Nat :=
  (List.range 4096).map (fun i => statCtr (i / 64) (i % 64)) ++ (List.range 256).map (fun i => lnkCtr (i / 64) (i % 64)) ++
  (List.range 16).map laneCtr ++ (List.range 32).map hifCtr ++ (List.range 16).map clsCtr ++
  (List.range 1024).map (fun i => gntCtr (i / 16) (i % 16)) ++ (List.range 1024).map (fun i => rngCtr (i / 16) (i % 16)) ++
  (List.range 32).map pgrCtr ++ (List.range 8).map timCtr ++ (List.range 16).map protCtr ++ (List.range 16).map errCtr ++
  (List.range 16).map pwrCtr ++ (List.range 2048).map perfCtr

/-- The sections of an image. -/
def imageWords (t : Table (BitVec 48)) : List Word :=
  imageOffsets.flatMap fun o =>
    let v := (tget t o 0).toNat
    [wordOf (v % 4294967296), wordOf (v / 4294967296)]

/-- The header of an image (R318). -/
def headerWords (s : State) (m : Image) : List Word :=
  let f := m.fz
  [wordOf (f.number % 65536 + ofBit f.cluster * 65536 + ofBit m.late * 131072 + 16777216), wordOf (f.origin % 16384),
   wordOf (f.t / 4 % 1000000000 * 4 + f.t % 4), wordOf (f.t / 4000000000 % 4294967296),
   wordOf (f.t / 4000000000 / 4294967296 % 65536), wordOf m.lateNs, 68864, wordOf (ownInstance s), 0, 0, 0, 0, 0, 0, 0, 0]

/-- Where an image lies from its freeze on: the command's buffer, or a slot of the received-snapshot area (R320). -/
def imageBase (s : State) (fz : Freeze) (slot : Nat) : Nat :=
  match fz.cmd with
  | some (q, idx) => match findAdm s q idx with
    | some a => aAddr a.ws
    | none => 0
  | none => regAddr s 0xB0040 + slot * 69632

/-- SNAPSHOT_FREEZE: the first pending freeze time has come and the buffer is free. -/
def freezeNow (s : State) : State :=
  match s.mon.freezes, s.mon.image with
  | f :: r, none =>
    let now := nowQuarter s
    if now < f.t then s
    else
      let late := decide (8 < now - f.t)
      let ns := if late then sat 0xFFFFFFFF ((now - f.t) / 4) else 0
      let slots := 2 ^ bitsOf (reg s 0xB0048) 0 3
      let slot := if f.cmd.isNone then some (s.mon.snapNext % slots) else none
      let m : Image := { fz := f, late := late, lateNs := ns, ctrs := s.ctrs, slot := slot,
                         base := imageBase s f (slot.getD 0) }
      let s := s.modMon fun x =>
        { x with freezes := r, image := some m,
                 snapNext := if slot.isSome then (x.snapNext + 1) % slots else x.snapNext }
      let s := if late then raise 0xB21 (wordOf f.number) (wordOf ns) s else s
      fabWrite .snapshot (m.base + 64) 68800 (imageWords m.ctrs) s
  | _, _ => s

def execSnapshotFreeze (s : State) : Host.Outcome State Fault Refusal := .next (whenRunning freezeNow s)

/-- The image's writes leave the fabric. -/
def endImageWrites (s : State) : State :=
  s.modFab fun b => { b with writes := b.writes.filter fun w => w.use ≠ .snapshot }

/-- The header goes out after every section (R318). -/
def writeHeader (m : Image) (s : State) : State := fabWrite .snapshot m.base 64 (headerWords s m) s

/-- The header is out: its write is outstanding. -/
def headerOut (s : State) (m : Image) : Bool :=
  s.fab.writes.any fun w => w.use = .snapshot && decide (w.addr = m.base)

/-- The buffer frees; a command of its own ends with a status. -/
def imageEnd (m : Image) (st : Nat) (results : List Word) (s : State) : State :=
  let s := (endImageWrites s).modMon fun x => { x with image := none }
  match m.fz.cmd with
  | some (q, idx) => admDone q idx st results s
  | none => s

/-- The header is acknowledged (R319, R320). -/
def imageDone (m : Image) (s : State) : State :=
  let s := perf 31 1 s
  let s := match m.slot with
    | some k => s.modMon fun x => { x with snapLast := m.fz.number, snapSlot := k }
    | none => s
  imageEnd m 0 [wordOf m.fz.number] (raise 0xB20 (wordOf m.fz.number) 0 s)

/-- SNAPSHOT_IMAGE_DONE: the sections and then the header are acknowledged. -/
def snapDone (s : State) : State :=
  match s.mon.image with
  | none => s
  | some m => imageDone m (if headerOut s m then s else writeHeader m (endImageWrites s))

def execSnapshotImageDone (s : State) : Host.Outcome State Fault Refusal := .next (whenLive snapDone s)

/-- A write of an image is acknowledged: the header follows the last section. -/
def imageAck (header : Bool) (s : State) : State :=
  match s.mon.image with
  | none => s
  | some m => if header then imageDone m s else if writing s (fun u => u = .snapshot) then s else writeHeader m s

/-- A write of an image failed: it is abandoned. -/
def imageFail (s : State) : State :=
  match s.mon.image with
  | none => s
  | some m => perf 32 1 (imageEnd m 9 [] s)

/-! The generators of marked frames (R322). -/

/-- A write of `MON_MARK_SEED` reloads both generators. -/
def seedWrite (width : Nat) (v : Word) (s : State) : State :=
  windowWrite 0xB0004 width v (State.modMon fun m => { m with drawsUs := 0, drawsDs := 0 }) s

def execMarkSeedWrite (value : Word) (s : State) : Host.Outcome State Fault Refusal := .next (seedWrite 4 value s)

end Sys2Proof.Machine
end

