-- ==== Sys2Proof/Machine/Reset.lean ====
section
/-! DEFINITION. The block's own resets: cold (R48–R50, R213), warm with its quiesce phase (R51–R53), the loss of the supply
(R39), the time reference (R37) and the calibration of the capture cells (R47). -/

namespace Sys2Proof.Machine

/-! Cold reset. -/

/-- Everything at its reset value, and held there (R49, R213). -/
def coldState (s : State) : State := { phase := .coldHeld, freeCtr := s.freeCtr, pending := s.pending }

/-- COLD_RESET: a pulse shorter than 1 µs is a full cold reset or nothing (R48). -/
def coldReset (short : Bool) (s : State) : State :=
  if short then (if Config.shortPulseTaken s.freeCtr then coldState (drawn s) else drawn s) else coldState s

def execColdReset (short : Bool) (s : State) : Host.Outcome State Fault Refusal := .next (coldReset short s)

def execColdResetRelease (s : State) : Host.Outcome State Fault Refusal :=
  .next (if s.phase = .coldHeld then { s with phase := .coldInit } else s)

/-- RESET_INITIALISATION_DONE: the block leaves reset with a new `SESSION` (R213, R235), after a cold reset with its capture cells
calibrated (R47). -/
def initDone (s : State) : State :=
  if s.phase = .coldInit || s.phase = .warmInit then
    let s := if s.phase = .coldInit then s.modTim fun t => { t with calibrations := t.calibrations + 1 } else s
    drawn (({ s with phase := .running } : State).modLnk fun l => { l with session := (Config.session s.freeCtr).toNat })
  else s

def execResetInitialisationDone (s : State) : Host.Outcome State Fault Refusal := .next (initDone s)

/-! Warm reset: the quiesce phase (R51–R53). -/

/-- A table with every entry changed, in canonical form. -/
def tmap {α : Type} [DecidableEq α] (d : α) (f : α → α) (t : Table α) : Table α :=
  (t.map fun e => (e.1, f e.2)).filter fun e => e.2 ≠ d

/-- Every ready completion goes into its ring wherever the ring has space (R51). -/
def drainRing (r : Nat) (s : State) : State :=
  let all := (getQueue s r).pend ++ (getQueue s r).ready
  drainPend all.length r (modQueue r (fun Q => { Q with pend := all, ready := [] }) s)

def drainRings (s : State) : State :=
  ((s.hif.queues.map fun e => e.1).filter fun q => qType q = 3).foldl (fun s r => drainRing r s) s

/-- Descriptors not handed over end with FLUSHED; those still on their way to the block are forgotten (R51). -/
def flushDescriptors (s : State) : State :=
  let s := s.modTpt fun t => { t with dsq := [] }
  let s := s.modHif fun h => { h with tx := h.tx.filter (fun t => t.stage ≠ .fetching), adm := h.adm.filter fun a => a.stage ≠ .fetching }
  let gone := fun x : TxStage => x ≠ .transfer && x ≠ .stampWait && x ≠ .twin && !x.over
  let s := ((s.hif.tx.filter fun t => gone t.stage).map fun t => (t.q, t.idx)).foldl (fun s e => txEnd e.1 e.2 7 255 s) s
  ((s.hif.adm.filter fun a => a.stage ≠ .ended && !a.dup).map fun a => (a.q, a.idx)).foldl (fun s e => admEnd e.1 e.2 7 [] s) s

/-- Upstream frames whose data write has not begun are discarded and counted (R52). -/
def flushUpstream (s : State) : State :=
  let stays := fun u : Us => u.stage = .writing || u.stage = .acked
  let n := (s.tpt.us.filter fun u => !stays u).length
  (s.modTpt fun t => { t with us := t.us.filter stays }).modHif fun h => { h with warmRx := sat 0xFFFFFFFF n }

/-- A page operation that writes a changed context back. -/
def PageOp.writesBack (o : PageOp) : Bool :=
  match o.why with
  | .pageOut => true
  | .destroy _ _ _ => decide (o.ph ≠ .entry)
  | _ => false

/-- Only write-backs go on in the caddie, those barred for 1 ms among them (R53); the tags of the requests given up are
quarantined (R36). -/
def quiesceCaddie (s : State) : State :=
  writeBacks (s.modPgr fun p =>
    { p with rank1 := [], rank2 := [], rank3 := [], sched := [], shields := [],
             slots := tmap {} (fun c => { c with barred := false }) p.slots,
             ops := (p.ops.filter PageOp.writesBack).map fun o => { o with why := .pageOut },
             quarTags := p.quarTags ++ (p.ops.filter fun o => !o.writesBack).flatMap PageOp.tags })

/-- A warm reset starts with its quiesce phase; the whistle pins go to high impedance (R39, R51). -/
def startWarm (cause : Nat) (s : State) : State :=
  let s := ({ s with phase := .quiesce } : State).modHif fun h => { h with warmCause := cause }
  let s := s.modTim fun t => { t with whistles := tmap {} (fun w => { w with fallAt := none }) t.whistles }
  let s := s.modMon fun m => { m with freezes := [], image := none }
  quiesceCaddie (drainRings (flushUpstream (flushDescriptors (dropReads (fun _ => true) s))))

def execWarmResetByPin (s : State) : Host.Outcome State Fault Refusal := .next (whenRunning (startWarm 1) s)

def execWarmReset (key : BitVec 16) (s : State) : Host.Outcome State Fault Refusal :=
  .next (whenRunning (if key = 0xA5C3 then startWarm 2 else refuseWrite 0x80 4) s)

/-- Every step of the quiesce phase is done (R51). -/
def quiesceDone (s : State) : Bool :=
  s.fab.reads.isEmpty && s.fab.writes.isEmpty && s.pgr.ops.isEmpty && s.tpt.us.isEmpty && (s.tpt.ports.all fun e => e.2.xfer.isNone) &&
    s.hif.queues.all fun e => qType e.1 ≠ 3 || !ringTakes e.2 || (e.2.ready.isEmpty && e.2.pend.isEmpty)

/-- A request writes a completion. -/
def WrReq.isCpl (w : WrReq) : Bool :=
  match w.use with
  | .cpl _ _ => true
  | _ => false

/-- Completions that the quiesce phase could not write (R51): those whose write failed, or has no answer at its end, among them. -/
def unwrittenCpls (s : State) : Nat :=
  ((s.fab.again ++ s.fab.writes).filter WrReq.isCpl).length +
  (s.hif.queues.foldl (fun a e => a + e.2.ready.length + e.2.pend.length) 0) +
  (s.hif.tx.filter fun t => t.stage ≠ .ready).length + s.tpt.us.foldl (fun a u => a + u.bufs.length) 0

/-- Flows whose changed contexts were not written back, in the order of their slots (R53). -/
def lostFlows (s : State) : List Nat :=
  (s.pgr.slots.filter fun e => e.2.st = .dirty || e.2.st = .evicting).map fun e => e.2.flow

/-- What a warm reset keeps, and everything else at its reset value (R49). -/
def warmState (h : Hif) (s : State) : State :=
  { phase := .warmInit, uptime := s.uptime,
    regs := s.regs.filter fun e => e.1 / 65536 = 7 || e.1 = 0xA0004,
    ctrs := s.ctrs.filter fun e => e.1 / 65536 = 7,
    hif := h, pgr := { repair := s.pgr.repair },
    tim := { s.tim with tsqReadAt := none },
    err := { playbook := s.err.playbook, tokens := s.err.tokens, log := s.err.log, logged := s.err.logged,
             lastLog := s.err.lastLog, pbBad := s.err.pbBad, scrubAt := s.uptime },
    freeCtr := s.freeCtr, pending := s.pending }

/-- QUIESCE_END: the reset status and its losses are recorded, and the block initialises. -/
def quiesceEnd (bound : Bool) (s : State) : State :=
  if s.phase ≠ .quiesce || (!bound && !quiesceDone s) then s
  else
    let lost := lostFlows s
    let s1 := lost.foldl (fun s f => repairSet f (Nat.lor (tget s.pgr.repair f 0) 1) s) s
    let s2 := match lost with
      | f :: _ => logWrite 0xA40 3 (wordOf f) (wordOf lost.length) s1
      | [] => s1
    let h : Hif := { cause := s.hif.warmCause, quiesceTimeout := bound, unwritten := sat 0xFFFF (unwrittenCpls s),
                     wbLost := sat 0xFFFF lost.length, warmRx := s.hif.warmRx }
    warmState h s2

def execQuiesceEnd (bound : Bool) (s : State) : Host.Outcome State Fault Refusal := .next (quiesceEnd bound s)

/-! Supply, reference, calibration. -/

/-- BLOCK_SUPPLY_OFF: the block does nothing until a cold reset; its whistle pins are no longer driven (R39). -/
def supplyOff (s : State) : State :=
  ({ s with phase := .off } : State).modTim fun t => { t with whistles := tmap {} (fun w => { w with fallAt := none }) t.whistles }

def execBlockSupplyOff (s : State) : Host.Outcome State Fault Refusal := .next (supplyOff s)

/-- TIME_REF_LOST: the time base runs on (R37, R228). -/
def refLost (s : State) : State :=
  if !timeAlive s then s
  else whenRunning (raise 0x710 0 0) (s.modTim fun t => { t with refLock := false, refLostSeen := true })

def execTimeRefLost (s : State) : Host.Outcome State Fault Refusal := .next (refLost s)

def refBack (s : State) : State :=
  if !timeAlive s then s else whenRunning (raise 0x711 0 0) (s.modTim fun t => { t with refLock := true })

def execTimeRefRestored (s : State) : Host.Outcome State Fault Refusal := .next (refBack s)

/-- CAPTURE_CALIBRATION: no cell stops capturing (R47). -/
def execCaptureCalibration (s : State) : Host.Outcome State Fault Refusal :=
  .next (if timeAlive s then s.modTim fun t => { t with calibrations := t.calibrations + 1 } else s)

end Sys2Proof.Machine
end

