-- ==== Sys2Proof/Machine/Time.lean ====
section
/-! DEFINITION. The time island's commands (R214–R216, R228), the transmit stamp ring's own reads and enable (R221–R224), and
the whistles (R225–R227). -/

namespace Sys2Proof.Machine

/-! The transmit stamp ring. -/

/-- The ring's PI word that is due goes out once every entry that it reports is acknowledged; a point of R68 reached meanwhile
comes next (R24, R68). -/
def tsqIndexOut (s : State) : State :=
  let t := s.tim
  match t.tsqIdx with
  | none => s
  | some v =>
    let mine := fun u : WrUse => match u with
      | .tsq _ _ => true
      | _ => false
    if gap t.tsqPi v < unackedBack s mine (regAddr s 0x70028) 16 128 t.tsqPi then s
    else
      let n := gap t.tsqPi v
      let s := s.modTim fun t =>
        { t with tsqUnrep := n, tsqIdx := if 16 ≤ n || (decide (0 < n) && t.tsqHold.isEmpty) then some t.tsqPi else none }
      fabWrite .tsqIndex (regAddr s 0x70030) 4 [v] s

/-- An enable of the ring: the alignments of R221 hold by the registers' own fields. -/
def tsqStart (index : Answer (Word × Word)) (s : State) : State :=
  if s.tim.tsqEn then s
  else
    let s := areaRead (regAddr s 0x70030) index s
    match areaStart index with
    | none => s.modTim fun t => { t with tsqBad := true }
    | some i => s.modTim fun t => { t with tsqEn := true, tsqBad := false, tsqPi := i, tsqCi := i, tsqUnrep := 0, tsqIdx := none }

def tsqEnable (v : Word) (index : Answer (Word × Word)) (s : State) : State :=
  windowWrite 0x70020 4 v (fun s => if bitOf v 0 then tsqStart index s else s) s

def execTsqEnable (value : Word) (index : Answer (Word × Word)) (s : State) : Host.Outcome State Fault Refusal :=
  .next (tsqEnable value index s)

/-- TSQ_CI_READ. -/
def tsqCiRead (s : State) : State :=
  let t := s.tim
  if ciReadOk s (t.tsqEn && !t.tsqStopped) (decide (gap t.tsqPi t.tsqCi = 128)) .tsqCi t.tsqReadAt then
    addCtr (timCtr 3) 1 (fabRead .tsqCi (regAddr s 0x70030) 8 (s.modTim fun t => { t with tsqReadAt := some s.uptime }))
  else s

def execTsqCiRead (s : State) : Host.Outcome State Fault Refusal := .next (whenRunning tsqCiRead s)

/-- Held stamps are written as space allows. -/
def drainStamps : Nat → State → State
  | 0, s => s
  | n + 1, s =>
    match s.tim.tsqHold with
    | [] => s
    | e :: r =>
      if gap s.tim.tsqPi s.tim.tsqCi < 128 then drainStamps n (writeStamp e (s.modTim fun t => { t with tsqHold := r }))
      else s

/-- Stamps for which a read found no space: the second time, they are lost. -/
def stampsWait (s : State) : State :=
  let tried := s.tim.tsqHold.map fun e => { e with tries := e.tries + 1 }
  let s := s.modTim fun t => { t with tsqHold := tried.filter fun e => e.tries < 2 }
  settleStamps ((tried.filter fun e => 2 ≤ e.tries).foldl (fun s e => loseStamp e s) s)

/-- TSQ_CI_RESPONSE: an invalid CI stops the ring, and every stamp held is lost with those that follow. -/
def tsqCiIn (ci : Word) (s : State) : State :=
  if !reading s .tsqCi then s
  else
    let s := returnReads (fun u => u = .tsqCi) s
    if 128 < gap s.tim.tsqPi ci then
      let held := s.tim.tsqHold
      let s := raise 0x722 s.tim.tsqPi ci (s.modTim fun t => { t with tsqStopped := true, tsqHold := [] })
      settleStamps (held.foldl (fun s e => loseStamp e s) s)
    else stampsWait (drainStamps 16 (s.modTim fun t => { t with tsqCi := ci }))

def execTsqCiResponse (ci : Word) (s : State) : Host.Outcome State Fault Refusal := .next (whenRunning (tsqCiIn ci) s)

/-! `TIM_NOW` (R228). -/

def nowSnap (s : State) : State :=
  s.modTim fun t => { t with now := (wordOf t.frac, wordOf t.ns, wordOf (t.sec % 4294967296), wordOf (t.sec / 4294967296)) }

def execTimNowSnap (s : State) : Host.Outcome State Fault Refusal := .next (windowWrite 0x70004 4 1 nowSnap s)

/-! Whistles. -/

def getWhistle (s : State) (w : Nat) : Whistle := tget s.tim.whistles w {}
def modWhistle (w : Nat) (f : Whistle → Whistle) (s : State) : State :=
  s.modTim fun t => { t with whistles := tset t.whistles {} w (f (tget t.whistles w {})) }

/-- The least time in ns that lies 1 µs or more ahead. -/
def soonest (s : State) : Nat := nowAbs s + 1000 + ofBit (decide (s.tim.frac ≠ 0))

/-- The first pulse of a periodic programme at or after a time. -/
def nextPulse (start period from' : Nat) : Nat :=
  if from' ≤ start then start else start + ceilDiv (from' - start) period * period

/-- WHISTLE_SET at its turn (R225): a pulse that is high completes its own width. -/
def whistleSet (a : Adm) (s : State) : State :=
  let w := (aTarget a.ws).toNat
  let mode := bitsOf (aData a.ws 0) 0 2
  let start := epochNs s + ((aData a.ws 1).toNat + bitsOf (aData a.ws 2) 0 16 * 4294967296) * 1000000000 + (aData a.ws 3).toNat
  let period := (aData a.ws 4).toNat
  if mode = 0 then
    admDone a.q a.idx 0 [] (modWhistle w (fun x => { missed := x.missed, fallAt := x.fallAt }) s)
  else
    let at' := if mode = 1 then start else nextPulse start period (soonest s)
    if at' < soonest s then admRefuse a 4 s
    else
      let sec := at' / 1000000000
      admDone a.q a.idx 0 [wordOf (sec % 4294967296), wordOf (sec / 4294967296 % 65536), wordOf (at' % 1000000000)]
        (modWhistle w (fun x => { x with mode := mode, width := bitsOf (aData a.ws 0) 8 24, period := period, start := start,
                                         nextAt := at' }) s)

def execWhistleSet (q : Fin 64) (idx : Word) (s : State) : Host.Outcome State Fault Refusal :=
  .next (whenRunning (atTurn q idx 0x62 whistleSet) s)

/-- A pulse that was due is missed (R227). -/
def missPulse (w at' : Nat) (s : State) : State :=
  raise 0x730 (wordOf w) (wordOf (at' / 1000000000 % 4294967296))
    (modWhistle w (fun x => { x with missed := sat 0xFFFFFFFF (x.missed + 1) }) s)

/-- The programme goes on after the pulse that was due. -/
def pulsePast (w : Nat) (s : State) : State :=
  modWhistle w (fun x => if x.mode = 1 then { x with mode := 0 } else { x with nextAt := x.nextAt + x.period }) s

/-- WHISTLE_RISE: emitted while the pin is driven, else missed (R226, R227). -/
def whistleRise (w : Nat) (s : State) : State :=
  let x := getWhistle s w
  if !timeAlive s || x.mode = 0 || nowAbs s < x.nextAt then s
  else if running s then
    addCtr (timCtr 2) 1 (pulsePast w (modWhistle w (fun x => { x with fallAt := some (x.nextAt + x.width) }) s))
  else missPulse w x.nextAt (pulsePast w s)

def execWhistleRise (w : Fin 8) (s : State) : Host.Outcome State Fault Refusal := .next (whistleRise w s)

/-- WHISTLE_FALL. -/
def whistleFall (w : Nat) (s : State) : State :=
  match (getWhistle s w).fallAt with
  | some t => if t ≤ nowAbs s then modWhistle w (fun x => { x with fallAt := none }) s else s
  | none => s

def execWhistleFall (w : Fin 8) (s : State) : Host.Outcome State Fault Refusal := .next (whistleFall w s)

/-- A whistle at a step of the time base (R227): `fwd` for a forward one, after which the time base already stands at its
new value. -/
def whistleStep (fwd : Bool) (w : Nat) (s : State) : State :=
  let s := modWhistle w (fun x => { x with fallAt := none }) s
  let x := getWhistle s w
  if x.mode = 0 then s
  else if x.mode = 1 then
    if fwd && decide (x.nextAt ≤ nowAbs s) then missPulse w x.nextAt (pulsePast w s) else s
  else
    let n := if fwd && decide (x.nextAt ≤ nowAbs s) then (nowAbs s - x.nextAt) / x.period + 1 else 0
    let s := eachBelow n (fun i s => missPulse w (x.nextAt + i * x.period) s) s
    let go := nextPulse x.start x.period (soonest s)
    let at' := if fwd && decide (n = 0) then x.nextAt else go
    modWhistle w (fun x => { x with nextAt := at' }) s

/-! TIME_STEP and TIME_RATE. -/

/-- A time held in 1/16 ns moves with the step. -/
def shiftSlot (d : Int) (k : Slot) : Slot :=
  { k with lo := k.lo + d, hi := k.hi + d, base := k.base + d, burst := k.burst.map fun b => (b.1 + d, b.2) }

/-- Every time that the block holds for its own scheduling moves with the step (R215). -/
def shiftTimes (d : Int) (s : State) : State :=
  let s := s.modTpt fun t => { t with ports := tmap {} (fun p =>
    { p with sPulse := p.sPulse.map fun x => x + d, former := p.former.map fun e => (e.1, e.2 + d) }) t.ports }
  let s := s.modRng fun r => { r with trees := tmap {} (fun t =>
    { t with exps := t.exps.map fun e => { e with e := e.e + d, base := e.base + d },
             slots := t.slots.map (shiftSlot d), wins := t.wins.map (shiftSlot d),
             spans := t.spans.map fun e => (e.1 + d, e.2 + d) }) r.trees }
  let s := s.modPwr fun w => { w with doms := tmap {} (fun D =>
    { D with wakeAt := D.wakeAt.map fun x => x + d, known := D.known.map fun x => x + d }) w.doms }
  let pf := fun x : Prefetch => { x with a0 := x.a0 + d, a1 := x.a1 + d, issue := x.issue + d }
  s.modPgr fun p => { p with sched := p.sched.map pf, rank2 := p.rank2.map pf, shields := p.shields.map pf,
                             slots := tmap {} (fun c => { c with prot := c.prot.map fun x => x + d }) p.slots,
                             ops := p.ops.map fun o => { o with a0 := o.a0.map fun x => x + d } }

/-- Descriptors that wait for their launch times are queued at once (R215). -/
def launchAll (s : State) : State :=
  ((s.hif.tx.filter fun t => !t.launched && !t.stage.over && t.stage ≠ .fetching).map fun t => (t.q, t.idx)).foldl
    (fun s e => launchNow e.1 e.2 s) s

/-- The time that a TIME_STEP sets. -/
def stepTime (ws : List Word) (t : Tim) : Tim :=
  { t with sec := (aData ws 0).toNat + bitsOf (aParam ws) 0 16 * 4294967296, ns := bitsOf (aData ws 1) 0 30,
           frac := (aData ws 2).toNat, stepped := true }

/-- TIME_STEP at its turn: the next edge takes the value given in place of its increment (R214). -/
def timeStep (a : Adm) (s : State) : State :=
  if s.tim.stepped then admRefuse a 2 s
  else
    let s := tick s
    let old := now32 s.tim
    let s := s.modTim (stepTime a.ws)
    let d := now32 s.tim - old
    let ns := d / 4294967296
    let s := shiftTimes (d / 268435456) s
    let s := raise 0x712 (wordOfInt ns) (wordOfInt (ns / 4294967296)) s
    let s := eachBelow 8 (whistleStep (decide (0 < d))) (launchAll s)
    admDone a.q a.idx 0 [] (bwEnd true s)

def execTimeStep (q : Fin 64) (idx : Word) (s : State) : Host.Outcome State Fault Refusal :=
  .next (whenRunning (atTurn q idx 0x60 timeStep) s)

/-- TIME_RATE at its turn: the next edge takes the new increment (R216). -/
def timeRate (a : Adm) (s : State) : State :=
  admDone a.q a.idx 0 [] (s.modTim fun t => { t with rate := (aData a.ws 0).toInt })

def execTimeRate (q : Fin 64) (idx : Word) (s : State) : Host.Outcome State Fault Refusal :=
  .next (whenRunning (atTurn q idx 0x61 timeRate) s)

end Sys2Proof.Machine
end

