-- ==== Sys2Proof/Machine/Fabric.lean ====
section
/-! DEFINITION. Responses of the fabric (R24–R26), and the buffers and entries that admin commands read (R98). -/

namespace Sys2Proof.Machine

/-! Acknowledged writes (R24). -/

/-- No entry of a ring waits to be written (R68). -/
def allWritten (Q : Queue) : Bool := Q.ready.isEmpty && Q.pend.isEmpty && Q.hold.isEmpty

/-- A ring's index word that waited for its entries goes out; a point reached meanwhile comes next. -/
def dueIndex (q : Nat) (s : State) : State :=
  if (getQueue s q).idxAt.isNone then s
  else
    let s := withHalves (indexTry q) s
    let Q := getQueue s q
    if Q.idxAt.isNone && (decide (16 ≤ Q.unreported) || allWritten Q) then issueIndex q s else s

/-- A data write of a frame has ended; after the last, the frame is written. -/
def rxWriteEnd (id : Nat) (s : State) : State :=
  if writing s (fun u => u = .rxData id) then s
  else match findUs s id with
    | some u => if u.stage = .writing then usWritten id (decide (u.status = 9)) s else s
    | none => s

/-- What an acknowledged write lets happen; it has left the list of those outstanding. -/
def writeAcked (w : WrReq) (s : State) : State :=
  match w.use with
  | .index _ => s
  | .cpl q _ => dueIndex q (signal q 0 s)
  | .event q lev => dueIndex q (signal q lev s)
  | .rxData id => rxWriteEnd id s
  | .page f =>
    let s := pageWritten f s
    if s.phase = .quiesce then writeBacks s else s
  | .tsq q idx => tsqIndexOut (stampDone q idx s)
  | .tsqIndex => s
  | .trace => traceIndexOut s
  | .traceIndex => s
  | .snapshot => imageAck (match s.mon.image with
      | some m => decide (w.addr = m.base)
      | none => false) s
  | .ftable f => settleMigIns (entryWritten f s)
  | .clearTable => settleEnable s
  | .dead _ => settleEnable s

/-- A write leaves the list of those outstanding. -/
def endWrite (id : Nat) (s : State) : State := s.modFab fun b => { b with writes := b.writes.filter fun w => w.id ≠ id }

/-- FABRIC_WRITE_ACK. -/
def writeAck (id : Nat) (s : State) : State :=
  match s.fab.writes.find? fun w => w.id = id with
  | none => s
  | some w => writeAcked w (endWrite id s)

def execFabricWriteAck (id : Nat) (s : State) : Host.Outcome State Fault Refusal := .next (whenLive (writeAck id) s)

/-! Failures (R25). -/

/-- The use that an event names (R281). -/
def WrUse.code : WrUse → Nat
  | .index _ => 2
  | .cpl _ _ => 4
  | .event _ _ => 4
  | .rxData _ => 0
  | .page _ => 3
  | .tsqIndex => 2
  | .traceIndex => 2
  | _ => 5

/-- A write that has failed goes out once more: the same bytes at the same address. -/
def reissue (w : WrReq) (s : State) : State := sendAgain true w s

/-- A write that has failed twice is never taken as done: its queue or ring stops with it. -/
def stopWith (q : Nat) (w : WrReq) (s : State) : State :=
  stopQueue q (s.modFab fun f => { f with again := f.again ++ [w] })

/-- A page write of a flow that is being created or installed is made once more at once (R192). -/
def pageAgain (s : State) (f : Nat) : Bool :=
  match opOf s f with
  | some o => (match o.why with
    | .create _ _ => true
    | .migrate _ => true
    | _ => false) && !o.retried
  | none => false

/-- A failed write, which has left the list. -/
def writeFailed (w : WrReq) (s : State) : State :=
  let twice := fun (f : State → State) => if w.retried then f s else reissue w s
  match w.use with
  | .index q => twice (stopWith q w)
  | .cpl q _ => twice (stopWith q w)
  | .event q _ => twice (stopWith q w)
  | .rxData id => rxWriteEnd id (modUs id (fun u => { u with status := 9 }) s)
  | .page f => if pageAgain s f then reissue w (pageFail f false s) else settleMigIns (pageFail f false s)
  | .tsq q idx => twice fun s => tsqIndexOut (stampDone q idx (addCtr (timCtr 1) 1 (modTx q idx (fun t => { t with stampLost := true }) s)))
  | .tsqIndex => twice id
  | .trace => twice traceIndexOut
  | .traceIndex => twice id
  | .snapshot => imageFail s
  | .ftable f => twice fun s => settleMigIns (entryLost f s)
  | .clearTable => twice enableFail
  | .dead _ => twice enableFail

/-- The entries of a failed descriptor read are not in the block: the queue stops with F at the first of them. -/
def descFailed (q : Nat) (idxs : List Word) (s : State) : State :=
  match idxs with
  | i :: _ => drainDone q (issueIndex q (stopQueue q (rewind q i s)))
  | [] => drainDone q (stopQueue q s)

/-- A failed read, which has left the list. -/
def readFailed (r : RdReq) (s : State) : State :=
  match r.use with
  | .index q => stopQueue q s
  | .poll q => stopQueue q s
  | .enableIndex q =>
    match enableCmd s q with
    | some a => admDone a.q a.idx 9 [] s
    | none => if (getQueue s q).st = .stopped then s else aq0Fail 4 s
  | .txDesc q l => descFailed q l s
  | .adminDesc q l => descFailed q l s
  | .rxDesc q l => descFailed q l s
  | .segList q idx => txDone q idx 9 255 s
  | .payload q idx => txDone q idx 9 255 s
  | .adminBuf q idx => admDone q idx 9 [] (dropReads (fun v => v = .adminBuf q idx) s)
  | .qtable q idx => admDone q idx 9 [] (dropReads (fun v => v = .qtable q idx) s)
  | .page f => pageFail f false (dropReads (fun v => v = .page f) s)
  | .tsqCi => stampsWait s
  | .traceCi => s
  | .flowEntry f => serveFlow f (modFlow f (fun x => { x with hCheck := true }) s)
  | .queueEntry q => stopQueue q s
  | .migList t => listLost t s
  | .restore again => if again then enableFail s else issueReads (.restore true) [(r.addr, r.len)] s
  | .orphan _ => s

/-- A parity error of a request or its response at the fabric's crossing, which is named by its fabric port (R46), or on an
internal bus (R293). -/
def fabParity (k : Fin 4) (addr : Nat) (s : State) : State :=
  if k = 3 then busParity s else if k = 0 then s else raise 0xA30 (wordOf (2 + k)) (wordOf (addr / 128 % 4)) s

/-- FABRIC_ERROR_RESPONSE. DEDUCED from R46: a poisoned request fails as a poisoned response does. -/
def fabricError (k : FabFail) (id : Nat) (s : State) : State :=
  if k.write then
    match s.fab.writes.find? fun w => w.id = id with
    | none => s
    | some w => writeFailed w (addrEvent 0x111 w.addr w.use.code (fabParity k.parity w.addr (endWrite id s)))
  else
    match s.fab.reads.find? fun r => r.id = id with
    | none => s
    | some r => readFailed r (addrEvent 0x110 r.addr r.use.code (fabParity k.parity r.addr (endRead id s)))

def execFabricErrorResponse (write : FabFail) (id : Nat) (s : State) : Host.Outcome State Fault Refusal :=
  .next (whenLive (fabricError write id) s)

/-- FABRIC_TIMEOUT. -/
def fabricTimeout (write : Bool) (id : Nat) (s : State) : State :=
  if write then
    match s.fab.writes.find? fun w => w.id = id with
    | none => s
    | some w => writeFailed w (addrEvent 0x112 w.addr w.use.code (endWrite id s))
  else
    match s.fab.reads.find? fun r => r.id = id with
    | none => s
    | some r => readFailed r (quarantine id (addrEvent 0x112 r.addr r.use.code (endRead id s)))

def execFabricTimeout (write : Bool) (id : Nat) (s : State) : Host.Outcome State Fault Refusal :=
  .next (whenLive (fabricTimeout write id) s)

/-- A response that no row of its own brings: of a use that had ended already, it is discarded; of an entry read again after an
error (R291), it restores the entry. -/
def RdUse.plain : RdUse → Bool
  | .orphan _ => true
  | .flowEntry _ => true
  | .queueEntry _ => true
  | _ => false

/-- What an entry read again after an error restores (R291): a flow's generation and whether it is live (R190), or the fields of
a queue's copy that QUEUE_MODIFY may change (R64). The words are those of the 64-byte lines read. -/
def reread (r : RdReq) (ws : List Word) (s : State) : State :=
  match r.use with
  | .flowEntry f =>
    let e := bitsOf (wAt ws (ftableAddr s f % 64 / 4)) (ftableAddr s f % 4 * 8) 16
    modFlow f (fun x => { x with gen := e % 16384, live := decide (e / 16384 % 2 = 1) }) s
  | .queueEntry q =>
    if entryOk q ws && sameFixed (cfgOf q ws) (getQueue s q).cfg then modQueue q (fun Q => { Q with cfg := cfgOf q ws }) s else s
  | _ => s

/-- LATE_RESPONSE: the response of a timed-out read, or another that no row of its own brings; its tag is free (R26). -/
def lateResponse (b : ReadBack) (s : State) : State :=
  match s.fab.reads.find? fun r => r.id = b.id && r.use.plain with
  | some r => reread r b.ws (returnRead r s)
  | none => admitReads (s.modFab fun f =>
    let l := dropFirst (fun k => k = b.id) f.quar
    { f with quar := l, quarEp := f.quarEp && !l.isEmpty })

def execLateResponse (r : ReadBack) (s : State) : Host.Outcome State Fault Refusal := .next (whenLive (lateResponse r) s)

/-! PLAYBOOK_LOAD (R283, R284). -/

/-- An entry that a code may hold. -/
def pbOk (code : Nat) (e : Word) : Bool :=
  decide (bitsOf e 16 16 = 0 ∧ bitsOf e 6 1 = 0 ∧ pbReaction e < 8) &&
  (!pbDeliver e || decide (0x220 ≤ code ∧ code ≤ 0x222)) && reactionOk code (pbReaction e)

def playbookLoad (a : Adm) (s : State) : State := admTurnRead a s

def execPlaybookLoad (q : Fin 64) (idx : Word) (s : State) : Host.Outcome State Fault Refusal :=
  .next (whenRunning (atTurn q idx 0x41 playbookLoad) s)

/-- One entry is installed: its bucket is full, and its flag goes (R284, R291). -/
def pbInstall (code : Nat) (e : Word) (s : State) : State :=
  s.modErr fun x => { x with playbook := tset x.playbook (pbDefault code) code e, tokens := tset x.tokens 8 code 8,
                             pbBad := x.pbBad.filter fun c => c ≠ code }

/-- The entries have come: all are checked, and then all take effect. -/
def playbookIn (a : Adm) (ws : List Word) (s : State) : State :=
  let c := (aTarget a.ws).toNat
  if !((List.range ws.length).all fun i => pbOk (c + i) (wAt ws i)) then admRefuse a 4 s
  else admDone a.q a.idx 0 [] (eachBelow ws.length (fun i s => pbInstall (c + i) (wAt ws i) s) s)

/-! ADMIN_BUFFER_READ_DONE (R98). -/

/-- The words that a command's host read brings. -/
def bufWords (a : Adm) : Nat := if aOp a.ws < 0x10 then 16 else aLen a.ws / 4

/-- Step 5 and what follows it, by opcode. -/
def bufferIn (a : Adm) (ws : List Word) (s : State) : State :=
  match aOp a.ws with
  | 0x01 => queueEntryIn a ws s
  | 0x02 => queueEntryIn a ws s
  | 0x10 => flowStateIn a ws s
  | 0x30 => ruleIn a ws s
  | 0x31 => ruleIn a ws s
  | 0x32 => ternaryIn a ws s
  | 0x33 => parseIn a ws s
  | 0x40 => curveIn a ws s
  | 0x41 => playbookIn a ws s
  | _ => s

def adminBufIn (q : Nat) (idx : Word) (data : Option (List Word)) (s : State) : State :=
  match findAdm s q idx with
  | none => s
  | some a =>
    match s.fab.reads.find? fun r => r.use = bufUse a with
    | none => s
    | some r => match data with
      | none => readFailed r (addrEvent 0x110 r.addr r.use.code (endRead r.id s))
      | some ws =>
        if reading s (bufUse a) && ws.length = bufWords a then bufferIn a ws (returnReads (fun u => u = bufUse a) s) else s

def execAdminBufferReadDone (q : Fin 64) (idx : Word) (data : Option (List Word)) (s : State) :
    Host.Outcome State Fault Refusal :=
  .next (whenRunning (adminBufIn (5120 + q) idx data) s)

end Sys2Proof.Machine
end

