-- ==== Sys2Proof/Machine/Errors.lean ====
section
/-! DEFINITION. Errors in the block's stores (R291, R292, R294), as the patrol scrubber meets them. -/

namespace Sys2Proof.Machine

/-! Containment (R291). The number of an item within its store is the model's own. -/

/-- An upstream frame in the packet buffer counts as an FCS error (R104); one that waits to leave by the link leaves no more. -/
def spoilUp (id : Nat) (s : State) : State :=
  match findUs s id with
  | none => s
  | some u =>
    if u.err || u.link.isSome || u.stage = .writing || u.stage = .acked || (u.stage = .link && leaving s id) then s
    else usError u 0x0E 0x222 (if u.stage = .link then s.modLnk fun l => { l with out := l.out.filter fun m => m.us ≠ some id } else s)

/-- A descriptor's frame leaves its priority queue, if it is in one. -/
def unqueue (q : Nat) (idx : Word) (s : State) : State :=
  s.modTpt fun x => { x with dsq := x.dsq.filter fun d => d.src ≠ some (q, idx) }

/-- A descriptor ends where it stands, and the frames behind it go on. -/
def spoilTx (t : Tx) (st fate : Nat) (s : State) : State := txDone t.q t.idx st fate (unqueue t.q t.idx s)

/-- The payload of a descriptor is in the packet buffer, before its first beat. -/
def TxStage.buffered (x : TxStage) : Bool := x = .reading || x = .classify || x = .engine || x = .waitOrder || x = .queued

/-- A downstream frame in the packet buffer: FLUSHED, or truncated in transfer. -/
def spoilDown (t : Tx) (s : State) : State :=
  if t.stage.buffered then spoilTx t 7 13 (stat t.port 13 1 s)
  else
    let p := homeOf s t.tree
    match (getPort s p).xfer with
    | some x => if x.item.src = some (t.q, t.idx) then modPort p (fun P => { P with xfer := some { x with truncated := true } }) s else s
    | none => s

/-- Control frames of the ranging unit in the packet buffer, by number: those in the queues, then the 64 ports' transfers. -/
def ctrlFrame (s : State) (k : Nat) : Option DsItem :=
  let d := match s.tpt.dsq[k]? with
    | some d => some d
    | none => (getPort s (k - s.tpt.dsq.length)).xfer.map fun x => x.item
  if (d.map fun d => d.src.isNone).getD false then d else none

/-- A control frame goes the way of a descriptor's frame, without a completion (R173). -/
def spoilCtrl (k : Nat) (s : State) : State :=
  match ctrlFrame s k with
  | none => s
  | some d =>
    let p := homeOf s d.tree
    if k < s.tpt.dsq.length then
      freeDs p d.cells d.poolCells (stat p 13 1 (s.modTpt fun x => { x with dsq := x.dsq.eraseIdx k }))
    else modPort (k - s.tpt.dsq.length) (fun P => { P with xfer := P.xfer.map fun x => { x with truncated := true } }) s

/-- A context's flow is held for CHECK; a write of it that is on its way is given up. -/
def spoilCtx (i : Nat) (s : State) : State :=
  let c := getSlot s i
  let out := match opOf s c.flow with
    | some o => decide (o.why = .pageOut)
    | none => false
  if c.st = .clean || c.st = .dirty || (c.st = .evicting && out) then
    let s := if c.st = .evicting then endPageWrite c.flow (dropOp c.flow s) else s
    opEnded c.flow (serveFlow c.flow (checkHold c.flow 2 s))
  else s

/-- A flag on an item of the classifier's stores and of the route table. -/
def spoilItem (store item : Nat) (s : State) : State :=
  s.modCls fun c => { c with badItems := if c.badItems.contains (store, item) then c.badItems else c.badItems ++ [(store, item)] }

/-- An entry of a queue's let window goes. -/
def spoilLet (q k : Nat) (s : State) : State := modQueue q (fun Q => { Q with letw := Q.letw.eraseIdx k }) s

/-- A terminal record is flagged (R161, R184). DESIGN CHOICE: a RANGE_ARM in flight completes as stopped, since nothing else would
end it. -/
def spoilRec (h : Nat) (s : State) : State := armDone h [0, 2, 0, 0] (modRec h (fun r => { r with flagged := true }) s)

/-- A message in a receive store is discarded, unless its bytes are already on their way to its buffers. -/
def spoilMsg (c id : Nat) (s : State) : State :=
  if (getCPort s c).store.any fun e => e.id = id then
    match s.tpt.us.find? fun u => u.link = some (c, id) with
    | some u => if u.stage = .writing || u.stage = .acked then s else dropUs u.id (lstat c 9 1 s)
    | none =>
      let s := lstat c 9 1 s
      storeFree c id (s.modLnk fun l => { l with out := l.out.filter fun m => m.store ≠ some (c, id) })
  else s

/-- A grant in a tree's ledger counts as saturated. -/
def spoilLedger (t pos key : Nat) (s : State) : State :=
  modGTree t (fun g => { g with ledger := (List.range g.ledger.length).map fun i =>
    let e := g.ledger.getD i (0, [])
    if i = pos then (e.1, (key, 65535) :: e.2.filter fun x => x.1 ≠ key) else e }) s

/-- The flow table copy: its entry is read again; without it, a live flow is held for CHECK. -/
def spoilFlow (f : Nat) (s : State) : State :=
  if (getFlow s f).live && !asked s (.flowEntry f) then fabRead (.flowEntry f) (ftableAddr s f) 2 s else s

/-- A queue's copy: its indices stand in the other copy, and its entry is read again; without it the queue stops. -/
def spoilQueue (q : Nat) (s : State) : State :=
  if (getQueue s q).st = .notCreated || bootstrap q || asked s (.queueEntry q) then s
  else fabRead (.queueEntry q) (qtableAddr s q) 64 s

/-- The always-on store: log entries, words of the repair map, port shadows. -/
def spoilAlwaysOn (item : Nat) (s : State) : State :=
  if item < 256 then
    s.modErr fun e => { e with log := match tfind e.log item with
      | some x => tput e.log item (some { x with code := 0 })
      | none => e.log }
  else if item < 8448 then
    eachBelow 32 (fun i s => let f := (item - 256) * 32 + i; repairSet f (Nat.lor (tget s.pgr.repair f 0) 1) s) s
  else if item < 8512 then modDom (item - 8448) (fun D => { D with shadowBad := true }) s
  else s

/-- A counter, by the offset of its low word, restarts at 0; a performance counter whose bit 47 was 1 says so (R314). -/
def spoilCtr (off : Nat) (s : State) : State :=
  let half := decide (0xB4000 ≤ off) && (getCtr s off).getLsbD 47
  let s := { s with ctrs := tset s.ctrs 0 off 0 }
  if half then raise 0xB11 (wordOf ((off - 0xB4000) / 8)) 0 s else s

/-- An item with a double-bit error, contained as its store's row gives. -/
def contain (store item : Nat) (s : State) : State :=
  match store with
  | 0x01 =>
    match item % 3 with
    | 0 => spoilUp (item / 3) s
    | 1 => match s.hif.tx[item / 3]? with
      | some t => spoilDown t s
      | none => s
    | _ => spoilCtrl (item / 3) s
  | 0x02 => spoilCtx item s
  | 0x03 => s.modCls fun c => { c with em := c.em.modify item (fun e => { e with bad := true }) }
  | 0x04 => spoilRec item s
  | 0x05 =>
    if item % 3 = 0 then
      match s.hif.tx[item / 3]? with
      | some t => if t.stage = .fetching then s else spoilTx t 9 255 s
      | none => s
    else if item % 3 = 1 then
      match s.hif.adm[item / 3]? with
      | some a => if a.stage = .fetching then s else admDone a.q a.idx 9 [] s
      | none => s
    else spoilLet (item / 3 / 256) (item / 3 % 256) s
  | 0x0A => modCurve item (fun c => { c with flagged := true }) s
  | 0x0B => s.modErr fun e => { e with pbBad := if e.pbBad.contains item then e.pbBad else e.pbBad ++ [item] }
  | 0x0D => spoilMsg (item % 4) (item / 4) s
  | 0x0E =>
    let q := 4096 + item / 32
    if item % 32 < (getQueue s q).cache.length then
      addCtr (hifCtr 5) 1 (modQueue q (fun Q => { Q with cache := Q.cache.eraseIdx (item % 32) }) s)
    else s
  | 0x0F =>
    let g := getGTree s item
    if !g.committed && (g.comp.isSome || g.standby.isSome) then emptyList item (grantLate item 2 s) else s
  | 0x10 => spoilFlow item s
  | 0x11 =>
    if item % 2 = 0 then
      match s.hif.tx[item / 2]? with
      | some t => if t.hasPark then spoilTx t 9 255 s else s
      | none => s
    else spoilQueue (item / 2) s
  | 0x12 => spoilCtr item s
  | 0x13 => spoilAlwaysOn item s
  | 0x14 => spoilLedger (item % 64) (item / 64 % 12) (item / 768) s
  | k => spoilItem k item s

/-! PATROL_SCRUB (R292, R294). Store 0 marks the end of a pass; an item poisoned by a parity error on an internal bus is contained
as its store's row gives (R293). -/

/-- A single-bit error, corrected in the value and in the store. -/
def corrected (store word : Nat) (s : State) : State :=
  let seen := s.err.sbSeen.contains (store, word)
  let s := addCtr (errCtr 6) 1 (s.modErr fun e =>
    { e with sbStore := store, sbWord := word % 4294967296, sbSeen := if seen then e.sbSeen else (store, word) :: e.sbSeen })
  let s := raise 0xA10 (wordOf store) (wordOf word) s
  if seen then raise 0xA12 (wordOf store) (wordOf word) s else s

/-- A double-bit error. -/
def uncorrected (store word item : Nat) (s : State) : State :=
  let s := addCtr (errCtr 7) 1 (s.modErr fun e => { e with dbStore := store, dbWord := word % 4294967296 })
  raise 0xA11 (wordOf store) (wordOf word) (contain store item s)

/-- The domains whose banks may hold a word of a store, of those that can sleep below bench (R299). DESIGN CHOICE: the words of the
exact-match table lie in bank order. -/
def wordDoms (store word : Nat) : List Nat :=
  match store with
  | 0x01 => [144 + (Config.bankOf 1 word).toNat]
  | 0x02 => [176 + (Config.bankOf 2 (word / 16)).toNat % 12]
  | 0x03 => [188 + word / 49152 % 16]
  | _ => []

/-- The scrubber does not reach a word whose domain is in dugout or locker (R294). -/
def unscrubbed (s : State) (store word : Nat) : Bool := (wordDoms store word).any fun d => decide (2 ≤ (getDom s d).depth)

/-- Store 0 is the end of a pass: its length in ms is kept. -/
def scrub (store word item err : Nat) (s : State) : State :=
  if store = 0 then s.modErr fun e => { e with scrubMs := sat 4095 ((s.uptime - e.scrubAt) / 1000000), scrubAt := s.uptime }
  else if unscrubbed s store word then s
  else if err = 1 then corrected store word s
  else
    let s := s.modErr fun e => { e with sbSeen := e.sbSeen.filter fun x => x ≠ (store, word) }
    if err = 2 then uncorrected store word item s else if err = 3 then busParity (contain store item s) else s

def execPatrolScrub (store : Fin 21) (word item : Nat) (err : Fin 4) (s : State) : Host.Outcome State Fault Refusal :=
  .next (whenRunning (scrub store word item err) s)

end Sys2Proof.Machine
end

