-- ==== Sys2Proof/Machine/Power.lean ====
section
/-! DEFINITION. The power manager (R299–R311). -/

namespace Sys2Proof.Machine

/-! The manager's commands. An operand `sub` is where within the time base's present ns the command comes, in 1/16 ns. -/

/-- DOMAIN_IDLE: a depth is chosen for an idle domain; one that sleeps already may be chosen a deeper depth when its next event or
its cap has changed (R303). -/
def domainIdle (d sub : Nat) (s : State) : State :=
  let D := getDom s d
  let now := now16 s + sub
  if sleepOn s && domUsed s d && !D.waking && D.entering.isNone && !spanOpen s d now && !domWork s d then
    let next := nextEvent s d now
    match chooseDepth s d now next with
    | some k =>
      if D.depth < k then
        modDom d (fun D => { D with entering := some k, wakeAt := next.map (wakeTime s k), known := next }) s
      else s
    | none => s
  else s

def execDomainIdle (d : Fin 216) (sub : Fin 16) (s : State) : Host.Outcome State Fault Refusal :=
  .next (whenRunning (domainIdle d sub) s)

/-- DEPTH_ENTERED: a wake that has waited for the entry's end starts (R301). DESIGN CHOICE: a domain that has come to hold something
while it entered locker stops at dugout. -/
def depthEntered (d : Nat) (s : State) : State :=
  let D := getDom s d
  match D.entering with
  | none => s
  | some k =>
    let s := modDom d (fun D => { D with depth := if k = 3 && !lockerOk s d then 2 else k, entering := none, wakeDue := false }) s
    if D.wakeDue then startWake d s else s

def execDepthEntered (d : Fin 216) (s : State) : Host.Outcome State Fault Refusal :=
  .next (whenRunning (depthEntered d) s)

/-- WAKE_START. -/
def execWakeStart (d : Fin 216) (s : State) : Host.Outcome State Fault Refusal := .next (whenRunning (startWake d) s)

/-- A shadow that cannot be restored: the wake becomes a PORT_RESTART (R291, R307). -/
def shadowFault (d : Nat) (s : State) : State :=
  let s := raise 0x911 (wordOf d) 0 (addCtr (pwrCtr 8) 1 (modDom d (fun D => { D with shadowBad := false }) s))
  if d < 64 && (getPort s d).enabled && (getPort s d).reset.isNone then startReset d true none s else s

/-- A domain that was not awake at an event that it knew of when it entered its depth is late (R306). -/
def lateWake (d : Nat) (D : Dom) (at' : Int) (s : State) : State :=
  match D.known with
  | some e =>
    if e < at' then raise 0x910 (wordOf d) (wordOf (sat 0xFFFFFFFF ((at' - e) / 16).toNat)) (addCtr (pwrCtr 6) 1 s) else s
  | none => s

/-- DOMAIN_AWAKE. -/
def domainAwake (d sub : Nat) (shadowErr : Bool) (s : State) : State :=
  let D := getDom s d
  if !D.waking then s
  else
    let s := lateWake d D (now16 s + sub) (wakeDom d s)
    if D.depth = 3 && (shadowErr || D.shadowBad) then shadowFault d s else s

def execDomainAwake (d : Fin 216) (sub : Fin 16) (shadowErr : Bool) (s : State) : Host.Outcome State Fault Refusal :=
  .next (whenRunning (domainAwake d sub shadowErr) s)

/-- Items of a store, by the numbers of `contain`, that a failed domain may have held. -/
def storeItems (s : State) (store : Nat) : List Nat :=
  match store with
  | 0x01 => (s.tpt.us.map fun u => 3 * u.id) ++ ((List.range s.hif.tx.length).map fun k => 3 * k + 1) ++
      (List.range (s.tpt.dsq.length + 64)).reverse.map fun k => 3 * k + 2
  | 0x02 => s.pgr.slots.map fun e => e.1
  | 0x03 => List.range s.cls.em.length
  | 0x04 => List.range 32768
  | 0x05 => ((List.range (s.hif.tx.length + s.hif.adm.length)).reverse.flatMap fun k => [3 * k, 3 * k + 1]) ++
      s.hif.queues.flatMap fun e => (List.range e.2.letw.length).reverse.map fun k => 3 * (e.1 * 256 + k) + 2
  | 0x06 => List.range 16384
  | 0x07 => List.range 8192
  | 0x08 => List.range 1024
  | 0x09 => List.range 32784
  | 0x0A => List.range 1024
  | 0x0B => List.range 4096
  | 0x0C => List.range 16384
  | 0x0D => (List.range 4).flatMap fun c => (getCPort s c).store.map fun e => c + 4 * e.id
  | 0x0E => s.hif.queues.flatMap fun e =>
      if qType e.1 = 1 then (List.range e.2.cache.length).reverse.map fun k => (e.1 - 4096) * 32 + k else []
  | 0x0F => List.range 64
  | 0x10 => s.pgr.flows.map fun e => e.1
  | 0x11 => ((List.range s.hif.tx.length).reverse.map fun k => 2 * k) ++ s.hif.queues.map fun e => 2 * e.1 + 1
  | 0x12 => s.ctrs.map fun e => e.1
  | 0x14 => s.gnt.trees.flatMap fun e => (List.range e.2.ledger.length).flatMap fun i =>
      ((e.2.ledger.getD i (0, [])).2).map fun x => e.1 + i * 64 + x.1 * 768
  | _ => []

/-- The stores of a domain (R299). -/
def domStores (d : Nat) : List Nat :=
  if d < 144 then []
  else if d < 176 then [0x01] else if d < 188 then [0x02] else if d < 204 then [0x03] else if d < 208 then []
  else match d with
  | 208 => [0x05, 0x0E, 0x11]
  | 209 => [0x06, 0x07, 0x08, 0x09]
  | 210 => [0x04, 0x0A, 0x0F, 0x14]
  | 212 => [0x10]
  | 213 => [0x0C, 0x0D]
  | 214 => [0x0B, 0x12]
  | _ => []

/-- The banks that hold the cells of an item of the packet buffer. -/
def itemBanks (s : State) (item : Nat) : List (Nat × Nat) :=
  match item % 3 with
  | 0 => ((findUs s (item / 3)).map Us.banks).getD []
  | 1 => (s.hif.tx[item / 3]?.map Tx.banks).getD []
  | _ => (ctrlFrame s (item / 3)).map DsItem.banks |>.getD []

/-- An item of a store lies in a domain; which bank holds a context is open. -/
def inDomain (s : State) (d store item : Nat) : Bool :=
  match store with
  | 0x01 => decide (cellsIn (itemBanks s item) (d - 144) ≠ 0)
  | 0x02 => decide ((Config.bankOf 2 item).toNat % 12 = d - 176)
  | 0x03 => match s.cls.em[item]? with
    | some e => decide (emBucket e.prof e.key / 1536 = d - 188)
    | none => false
  | _ => true

/-- Everything that a failed domain held is contained (R307). -/
def containAll (d : Nat) (s : State) : State :=
  (domStores d).foldl (fun t k => ((storeItems s k).filter fun i => inDomain s d k i).foldl (fun t i => contain k i t) t) s

/-- The list that waits in a failed port core is lost (R291, R307). -/
def listGone (p : Nat) (s : State) : State :=
  match treeOn s p with
  | some t => if listWaits (getGTree s t) then contain 0x0F t s else s
  | none => s

/-- WAKE_FAILED. -/
def wakeFailed (d : Nat) (s : State) : State :=
  let D := getDom s d
  if !D.waking then s
  else
    let s := modDom d (fun D => { D.woken with failed := true }) s
    let s := raise 0x911 (wordOf d) 1 (addCtr (pwrCtr 8) 1 s)
    let s := lateWake d D (now16 s) s
    if d < 128 then clockGone (domPort d) 0 (if d < 64 then listGone d s else s)
    else if d < 144 then laneReset (d - 128) s
    else containAll d s

def execWakeFailed (d : Fin 216) (s : State) : Host.Outcome State Fault Refusal := .next (whenRunning (wakeFailed d) s)

/-! The registers that change what may sleep (R308, R310). -/

/-- Every domain that a test picks starts to wake. -/
def wakeAll (pick : State → Nat → Bool) (s : State) : State := eachBelow 216 (fun d s => if pick s d then startWake d s else s) s

/-- A write of `PWR_CTRL`: with `ENABLE` cleared, no domain sleeps. -/
def pwrCtrlWrite (width : Nat) (v : Word) (s : State) : State :=
  windowWrite 0x90000 width v (fun s =>
    if sleepOn s then s else wakeAll (fun _ _ => true) s) s

def execPowerEnable (value : Word) (s : State) : Host.Outcome State Fault Refusal := .next (pwrCtrlWrite 4 value s)

/-- A write of a cap: a domain deeper than its cap, or on its way there, starts to wake. -/
def capWrite (off width : Nat) (v : Word) (s : State) : State :=
  windowWrite off width v (wakeAll fun s d => decide (capOf s d < (getDom s d).entering.getD (getDom s d).depth)) s

def isCap (off : Nat) : Bool := decide (off = 0x90010 ∨ (0x90100 ≤ off ∧ off < 0x90200))

def execPowerCapWrite (off : BitVec 20) (value : Word) (s : State) : Host.Outcome State Fault Refusal :=
  .next (if isCap off.toNat then capWrite off.toNat 4 value s else s)

end Sys2Proof.Machine
end

