-- ==== Sys2Proof/Machine/Readout.lean ====
section
/-! DEFINITION. The register window as a whole: what a word reads as (R333–R341), the reads and writes that move an address on,
the counters' latches (R116), and the write of any register (R6, R7, R28, R334–R337). -/

namespace Sys2Proof.Machine

/-! Counters (R116): 48 bits over two words. -/

/-- The counter groups: the offset of the first low word, and how many counters. -/
def ctrGroups : List (Nat × Nat) := [
  (0x00200, 32), (0x20000, 16), (0x30100, 16), (0x44000, 1024), (0x54000, 1024), (0x60100, 32), (0x70100, 8),
  (0x80500, 16), (0x88000, 256), (0x90400, 16), (0xA0400, 16), (0xB4000, 2048), (0xB8000, 4096)]

/-- A word of some counter. -/
def isCtr (off : Nat) : Bool := ctrGroups.any fun g => decide (g.1 ≤ off ∧ off < g.1 + g.2 * 8)

/-- Bits [31:0] and [47:32] of a counter. -/
def ctrLow (c : BitVec 48) : Word := c.setWidth 32
def ctrHigh (c : BitVec 48) : BitVec 16 := (c >>> 32).setWidth 16

/-- A counter's word: bits [31:0], or the latched bits [47:32]. -/
def ctrWord (s : State) (off : Nat) : Word :=
  if off % 8 < 4 then ctrLow (getCtr s (off / 8 * 8)) else (tget s.latches (off / 8 * 8) 0).setWidth 32

/-- STAT_COUNTER_LOW_READ: the read latches the counter's own high bits. -/
def ctrLowRead (off : Nat) (s : State) : State :=
  if isCtr off && decide (off % 8 = 0) then
    ({ s with latches := tset s.latches 0 off (ctrHigh (getCtr s off)) } : State).modHif fun h =>
      { h with readData := ctrLow (getCtr s off) }
  else s

def execStatCounterLowRead (off : BitVec 20) (s : State) : Host.Outcome State Fault Refusal :=
  .next (windowRead (ctrLowRead off.toNat) s)

/-! `LNK_ROUTE_DATA` (R245, R259) and `PGR_REPAIR_DATA` (R209): each access moves its address on. -/

def routeAddr (s : State) : Nat := (reg s 0x80200).toNat % 16384
def routeNext (s : State) : State := setReg 0x80200 (wordOf ((routeAddr s + 1) % 16384)) s

def routeRead (s : State) : State := routeNext (s.modHif fun h => { h with readData := routeOf s (routeAddr s) })

def execRouteDataRead (s : State) : Host.Outcome State Fault Refusal := .next (windowRead routeRead s)

/-- A route entry less its reserved bits (R245). -/
def routeKeep (v : Word) : Word := v &&& 0x8000007F

/-- A written entry; its flag goes (R291). -/
def routeWrite (width : Nat) (v : Word) (s : State) : State :=
  windowWrite 0x80204 width v (fun s =>
    routeNext (((setReg 0x80204 0 s).modLnk fun l => { l with routes := tset l.routes 0 (routeAddr s) (routeKeep v) }).modCls fun c =>
      unflag 12 (routeAddr s) 1 c)) s

def execRouteDataWrite (value : Word) (s : State) : Host.Outcome State Fault Refusal := .next (routeWrite 4 value s)

/-- Word `w` of the flow repair map: two bits a flow (R209). -/
def repairWord (s : State) (w : Nat) : Word :=
  wordOf ((List.range 16).foldl (fun a j => a + tget s.pgr.repair (16 * w + j) 0 % 4 * 4 ^ j) 0)

def repairAddr (s : State) : Nat := (reg s 0x60030).toNat % 16384

def repairRead (s : State) : State :=
  setReg 0x60030 (wordOf ((repairAddr s + 1) % 16384)) (s.modHif fun h => { h with readData := repairWord s (repairAddr s) })

def execRepairDataRead (s : State) : Host.Outcome State Fault Refusal := .next (windowRead repairRead s)

/-! Status words, unit by unit. -/

/-- Host interface (R48, R62, R84, R94, R337, R338). -/
def readHif (s : State) (off : Nat) : Word :=
  let h := s.hif
  if off = 0x40 then wordOf (h.refused.offset + h.refused.cause * 1048576 + ofBit h.refused.sticky * 2147483648)
  else if off = 0x44 then wordOf h.refused.count
  else if off = 0x84 then wordOf (h.cause + ofBit h.quiesceTimeout * 4)
  else if off = 0x88 then wordOf (h.unwritten + h.wbLost * 65536)
  else if off = 0x8C then wordOf h.warmRx
  else if off = 0x90 then wordOf (h.tx.length + h.adm.length * 1048576)
  else if off = 0x94 then wordOf s.fab.quar.length
  else if 0xC0 ≤ off ∧ off < 0x100 then wordOf (getQueue s (7168 + (off - 0xC0) / 4)).lost
  else if off = 0x130 then
    reg s off ||| wordOf (ofBit (decide ((getQueue s 5120).st ≠ .notCreated) ||
      asked s (.enableIndex 5120) || asked s (.enableIndex 6144)) + 2 * ofBit h.aq0Bad)
  else if 0x1000 ≤ off ∧ off < 0x1800 then
    wordOf ((List.range 16).foldl (fun a j => a + (getQueue s (16 * ((off - 0x1000) / 4) + j)).st.code * 4 ^ j) 0)
  else reg s off

/-- A tree port's block (R43, R105, R276, R340). -/
def readTpt (s : State) (n r off : Nat) : Word :=
  let P := getPort s n
  if r = 0x004 then
    wordOf (portState P + (treeOn s n).getD 0 * 256 + ofBit (treeOn s n).isSome * 16384)
  else if r = 0x018 then wordOf (P.usCells + P.dsCells * 65536)
  else if r = 0x040 then
    wordOf ((if P.present then P.freqMhz else 0) + ofBit P.present * 65536 + ofBit P.good * 131072 + ofBit P.lostSeen * 262144)
  else if r = 0x050 then wordOf (P.consts.elim 0 FramerConst.dsLat)
  else if r = 0x054 then wordOf (P.consts.elim 0 FramerConst.usLat)
  else if r = 0x084 then wordOf (homeOf s n + ofBit (getProt s n).side * 64 + (getProt s n).phase * 128)
  else reg s off

/-- Buckets of the exact-match table that hold eight entries (R139). -/
def fullBuckets (s : State) : Nat :=
  ((s.cls.em.map fun e => emBucket e.prof e.key).dedup.filter fun b => decide (8 ≤ emUsed s b)).length

/-- Classifier (R139). -/
def readCls (s : State) (off : Nat) : Word :=
  let c := s.cls
  if off = 0x30004 then
    wordOf (ofBit c.ternPage + ofBit c.parsePage * 2 + ofBit c.hold.isSome * 4 + ofBit c.copy.isSome * 8 + c.commits * 65536)
  else if off = 0x30008 then wordOf c.em.length
  else if off = 0x3000C then wordOf (fullBuckets s)
  else if off = 0x30A04 then tget c.ind (indAddr s) 0
  else reg s off

/-- The constants of a port, in four words (R162); they stay with the port (R262). -/
def constWord (c : FramerConst) (k : Nat) : Word :=
  wordOf (match k with
    | 0 => c.cap
    | 1 => c.guardBytes + c.preamble * 2048 + c.delim * 8388608
    | 2 => c.encap + c.report * 64 + c.profile * 65536
    | _ => c.byteTime)

/-- Grant engine and ranging unit (R162, R186). -/
def readGnt (s : State) (off : Nat) : Word :=
  if 0x41000 ≤ off ∧ off < 0x41400 then
    (getPort s ((off - 0x41000) / 16)).consts.elim 0 fun c => constWord c (off / 4 % 4)
  else if 0x42000 ≤ off ∧ off < 0x42100 then
    let g := getGTree s ((off - 0x42000) / 4)
    wordOf (g.cycle % 65536 + g.rot % 512 * 65536 + ofBit g.lastEmpty * 33554432)
  else if 0x50014 ≤ off ∧ off < 0x50020 then wAt s.rng.recData ((off - 0x50014) / 4)
  else if 0x51800 ≤ off ∧ off < 0x51900 then
    let r := getRTree s ((off - 0x51800) / 4)
    wordOf (r.be + r.lastAns * 16 + r.lastCol * 4096 + ofBit r.cfgBad * 1048576)
  else reg s off

/-- Slots of the context cache in a state that a test picks (R209). -/
def slotsIn (s : State) (p : SlotSt → Bool) : Nat := (s.pgr.slots.filter fun e => p e.2.st).length

/-- Caddie and time island (R209, R228). DEDUCED: `FREE` resets to 0, so it counts slots only while the caddie is enabled. -/
def readPgr (s : State) (off : Nat) : Word :=
  let p := s.pgr
  let t := s.tim
  if off = 0x60000 then reg s off ||| wordOf (ofBit p.enabled + ofBit p.ready * 4 + ofBit p.bad * 8)
  else if off = 0x60020 then
    wordOf (slotsIn s (fun x => x = .clean || x = .dirty || x = .evicting) + slotsIn s (fun x => x = .dirty) * 65536)
  else if off = 0x60024 then wordOf (pinnedFlows s + (if p.enabled then freeSlots s else 0) * 65536)
  else if off = 0x60028 then wordOf (repairCount s 1)
  else if off = 0x6002C then wordOf (repairCount s 2)
  else if off = 0x60034 then repairWord s (repairAddr s)
  else if off = 0x70000 then wordOf (ofBit t.refLock + ofBit t.stepped * 2 + ofBit t.refLostSeen * 4)
  else if off = 0x70008 then t.now.1
  else if off = 0x7000C then t.now.2.1
  else if off = 0x70010 then t.now.2.2.1
  else if off = 0x70014 then t.now.2.2.2
  else if off = 0x70018 then wordOfInt t.rate
  else if off = 0x70020 then wordOf (ofBit t.tsqEn + ofBit t.tsqBad * 2 + ofBit t.tsqStopped * 4)
  else if 0x70040 ≤ off ∧ off < 0x70060 then wordOf (getWhistle s ((off - 0x70040) / 4)).missed
  else reg s off

/-- The results of a port's time exchange: `VALID` and `SEQ_ID`, then t1 to t4 (R251, R259). -/
def timeResWord (C : CPort) (k : Nat) : Word :=
  if k = 0 then wordOf (ofBit C.resValid + C.resSeq * 65536)
  else
    let f := C.res.getD ((k - 1) / 3) {}
    match (k - 1) % 3 with
    | 0 => wordOf (f.sec / 4294967296)
    | 1 => wordOf (f.sec % 4294967296)
    | _ => wordOf (f.ns * 4 + f.qns)

/-- Ebivios link (R230, R259). -/
def readLnk (s : State) (off : Nat) : Word :=
  if 0x80020 ≤ off ∧ off < 0x80030 then
    let C := getCPort s ((off - 0x80020) / 4)
    wordOf (ofBit C.up + C.farId * 4 + C.farPort * 65536 +
      (List.range 8).foldl (fun a c => a + ofBit (tfind C.paused c).isSome * 2 ^ (18 + c)) 0 + ofBit C.asleep * 67108864)
  else if 0x80040 ≤ off ∧ off < 0x80080 then
    let L := getLane s ((off - 0x80040) / 4)
    wordOf (L.st + L.pre * 16 + L.main * 256 + L.post * 16384 + L.ctle * 524288)
  else if off = 0x80204 then routeOf s (routeAddr s)
  else if 0x80400 ≤ off ∧ off < 0x80500 then
    if (off - 0x80400) % 0x40 < 0x34 then timeResWord (getCPort s ((off - 0x80400) / 0x40)) ((off - 0x80400) % 0x40 / 4) else 0
  else reg s off

/-- The four words of an entry of the always-on log (R295). -/
def logWords (e : LogEnt) : List Word :=
  [wordOf (e.number + e.code * 65536 + e.level * 268435456), e.seconds, e.arg0, e.arg1]

/-- Power manager and error unit (R297, R310). -/
def readErr (s : State) (off : Nat) : Word :=
  let e := s.err
  let held := fun lo => wordOf ((List.range 32).foldl (fun a j => a + ofBit (getPort s (lo + j)).held * 2 ^ j) 0)
  if off = 0x90004 then wordOf (blockDepth s + sat 255 (domsAwake s) * 256)
  else if 0x90200 ≤ off ∧ off < 0x90238 then
    wordOf ((List.range 16).foldl (fun a j =>
      let d := 16 * ((off - 0x90200) / 4) + j
      a + (if d < 216 then (getDom s d).depth else 0) * 4 ^ j) 0)
  else if off = 0xA0000 then wordOf (e.logged % 256 + sat 0xFFFFFF e.logged * 256)
  else if 0xA0008 ≤ off ∧ off < 0xA0018 then
    (tfind e.log (bitsOf (reg s 0xA0004) 0 8)).elim 0 fun x => wAt (logWords x) ((off - 0xA0008) / 4)
  else if off = 0xA0024 then pbEntry s (bitsOf (reg s 0xA0020) 0 12)
  else if off = 0xA0028 then held 0
  else if off = 0xA002C then held 32
  else if off = 0xA0030 then wordOf (e.sbStore + e.dbStore * 65536)
  else if off = 0xA0034 then wordOf e.sbWord
  else if off = 0xA0038 then wordOf e.dbWord
  else if off = 0xA003C then wordOf e.scrubMs
  else if off = 0xA0040 then wordOf e.noRing
  else if off = 0xA0048 then e.fired.setWidth 32
  else if off = 0xA004C then (e.fired >>> 32).setWidth 32
  else reg s off

/-- Monitor (R315, R327). -/
def readMon (s : State) (off : Nat) : Word :=
  let m := s.mon
  if off = 0xB0010 then reg s off ||| wordOf (ofBit m.trEn + ofBit m.trBad * 2 + ofBit m.trStopped * 4)
  else if off = 0xB0034 then wordOf (m.bwSeq + ofBit m.bwShort * 65536)
  else if off = 0xB004C then
    wordOf (m.snapLast + m.snapSlot * 65536 + ofBit m.image.isSome * 1048576 + m.freezes.length * 16777216)
  else if 0xB1000 ≤ off ∧ off < 0xB1400 then
    let n := (off - 0xB1000) / 16
    if off % 16 = 0 then wAt (bwWords s n) 0 else wAt (tget m.bwLatch n []) (off % 16 / 4)
  else reg s off

/-- Identity (R341). -/
def readId (off : Nat) : Word :=
  match off with
  | 0xC0000 => 0x504C4E48
  | 0xC0004 => 0x000000C1
  | 0xC0008 => wordOf (Config.slot.toNat + Config.dual.toNat * 2)
  | _ => 0

/-- What the word at an offset reads as: 0 while the block is in reset, and where no register sits (R6, R27, R28). -/
def readWord (s : State) (off : Nat) : Word :=
  let o := off / 4 * 4
  if !running s then 0
  else if isCtr o then ctrWord s o
  else match o / 65536 with
    | 0 => readHif s o
    | 1 => readTpt s ((o - 0x10000) / 0x400) (o % 0x400) o
    | 2 => reg s o
    | 3 => readCls s o
    | 4 => readGnt s o
    | 5 => readGnt s o
    | 6 => readPgr s o
    | 7 => readPgr s o
    | 8 => readLnk s o
    | 9 => readErr s o
    | 10 => readErr s o
    | 11 => readMon s o
    | 12 => readId o
    | _ => 0

/-! Writes (R334). -/

/-- Writing 1 to `STICKY` clears it and the count (R337). -/
def refusedClear (s : State) : State :=
  s.modHif fun h => { h with refused := { h.refused with sticky := false, count := 0 } }

def execRefusedWriteClear (s : State) : Host.Outcome State Fault Refusal :=
  .next (windowWrite 0x40 4 0x80000000 refusedClear s)

/-- A bit of a written word starts an action. -/
def onBit (v : Word) (i : Nat) (f : State → State) (s : State) : State := if bitOf v i then f s else s

/-- What an applied write does beside setting its fields: the W1C, W1S and WO fields, and a flagged entry written anew (R291). -/
def writeEffect (off : Nat) (v : Word) (s : State) : State :=
  match off / 65536 with
  | 0 =>
    if off = 0x40 then onBit v 31 refusedClear s
    else if off = 0x130 then onBit v 0 aq0Start s else s
  | 1 =>
    let p := (off - 0x10000) / 0x400
    if off % 0x400 = 0x40 then onBit v 18 (modPort p fun P => { P with lostSeen := false }) s
    else if off % 0x400 = 0x88 then onBit v 0 (cancelIn p) s else s
  | 3 =>
    if 0x38000 ≤ off then s.modCls (unflag 8 ((off - 0x38000) / 16) 1)
    else if 0x30600 ≤ off ∧ off < 0x30A00 then s.modCls (unflag 9 ((off - 0x30600) / 0x40) 1) else s
  | 7 =>
    if off = 0x70000 then onBit v 2 (State.modTim fun t => { t with refLostSeen := false }) s
    else if off = 0x70004 then onBit v 0 nowSnap s else s
  | 8 =>
    if 0x80400 ≤ off ∧ off < 0x80500 ∧ off % 0x40 = 0 then onBit v 0 (modCPort ((off - 0x80400) / 0x40) fun C => { C with resValid := false }) s
    else s
  | 10 =>
    if off = 0xA0048 then s.modErr fun e => { e with fired := e.fired &&& ~~~(v.setWidth 64) }
    else if off = 0xA004C then s.modErr fun e => { e with fired := e.fired &&& ~~~(v.setWidth 64 <<< 32) }
    else s
  | _ => s

/-- A write of the window at an offset. An enable whose index area is read at once has a row of its own (R221, R325): a plain
write of its bit to a ring that does not run changes nothing here. -/
def registerWrite (off width : Nat) (v : Word) (s : State) : State :=
  if width ≠ 4 ∨ off % 4 ≠ 0 then windowWrite off width v id s
  else if off = 0x80 then
    whenRunning (onBit v 0 (if bitsOf v 16 16 = 0xA5C3 then startWarm 2 else refuseWrite 0x80 4)) s
  else if off = 0x60000 then caddieEnable v s
  else if off = 0x30A04 then indWrite v s
  else if off = 0x50010 then recSelect v s
  else if off = 0x80204 then routeWrite width v s
  else if off = 0xB0004 then seedWrite width v s
  else if off = 0x80004 then laneCtrlWrite width v s
  else if off = 0x90000 then pwrCtrlWrite width v s
  else if isCap off then capWrite off width v s
  else if off = 0xB0030 then bwCtrlWrite width v s
  else if bitOf v 0 && (decide (off = 0x70020) && !s.tim.tsqEn || decide (off = 0xB0010) && !s.mon.trEn) then s
  else windowWrite off width v (writeEffect off v) s

/-- REGISTER_WRITE: its handshake may be dropped on its way to the core (R46). -/
def execRegisterWrite (off : RegAddr) (width : Nat) (value : Word) (s : State) : Host.Outcome State Fault Refusal :=
  .next (if off.lost then whenRunning (raise 0xA30 7 0) s else registerWrite off.off.toNat width value s)

end Sys2Proof.Machine
end

