-- ==== Sys2Proof/Machine/Dispatch.lean ====
section
/-! DEFINITION. The one match from a command to its meaning, an arm a constructor. -/

namespace Sys2Proof.Machine

def exec (i : Instr) (s : State) : Host.Outcome State Fault Refusal :=
  match i with
  | .coldReset short => Sys2Proof.Machine.execColdReset short s
  | .coldResetRelease => Sys2Proof.Machine.execColdResetRelease s
  | .resetInitialisationDone => Sys2Proof.Machine.execResetInitialisationDone s
  | .warmResetByPin => Sys2Proof.Machine.execWarmResetByPin s
  | .warmReset key => Sys2Proof.Machine.execWarmReset key s
  | .quiesceEnd bound => Sys2Proof.Machine.execQuiesceEnd bound s
  | .portFlushAck p => Sys2Proof.Machine.execPortFlushAck p s
  | .portResetTruncate p => Sys2Proof.Machine.execPortResetTruncate p s
  | .portResetDone p fc => Sys2Proof.Machine.execPortResetDone p fc s
  | .laneResetDone l => Sys2Proof.Machine.execLaneResetDone l s
  | .portClockLost p => Sys2Proof.Machine.execPortClockLost p s
  | .portClockMeasure p khz => Sys2Proof.Machine.execPortClockMeasure p khz s
  | .timeRefLost => Sys2Proof.Machine.execTimeRefLost s
  | .timeRefRestored => Sys2Proof.Machine.execTimeRefRestored s
  | .captureCalibration => Sys2Proof.Machine.execCaptureCalibration s
  | .registerWrite off width value => Sys2Proof.Machine.execRegisterWrite off width value s
  | .aq0Enable value => Sys2Proof.Machine.execAq0Enable value s
  | .caddieEnable value => Sys2Proof.Machine.execCaddieEnable value s
  | .caddieEnableDone ok entries => Sys2Proof.Machine.execCaddieEnableDone ok entries s
  | .tsqEnable value index => Sys2Proof.Machine.execTsqEnable value index s
  | .traceRingEnable value index => Sys2Proof.Machine.execTraceRingEnable value index s
  | .timNowSnap => Sys2Proof.Machine.execTimNowSnap s
  | .refusedWriteClear => Sys2Proof.Machine.execRefusedWriteClear s
  | .cancelIn p => Sys2Proof.Machine.execCancelIn p s
  | .statCounterLowRead off => Sys2Proof.Machine.execStatCounterLowRead off s
  | .bwLatchRead n => Sys2Proof.Machine.execBwLatchRead n s
  | .indDataRead => Sys2Proof.Machine.execIndDataRead s
  | .indDataWrite value => Sys2Proof.Machine.execIndDataWrite value s
  | .recSelWrite value => Sys2Proof.Machine.execRecSelWrite value s
  | .routeDataRead => Sys2Proof.Machine.execRouteDataRead s
  | .routeDataWrite value => Sys2Proof.Machine.execRouteDataWrite value s
  | .repairDataRead => Sys2Proof.Machine.execRepairDataRead s
  | .markSeedWrite value => Sys2Proof.Machine.execMarkSeedWrite value s
  | .laneEnable l => Sys2Proof.Machine.execLaneEnable l s
  | .laneDisable l => Sys2Proof.Machine.execLaneDisable l s
  | .powerEnable value => Sys2Proof.Machine.execPowerEnable value s
  | .powerCapWrite off value => Sys2Proof.Machine.execPowerCapWrite off value s
  | .bwWindowChange value => Sys2Proof.Machine.execBwWindowChange value s
  | .doorbell b => Sys2Proof.Machine.execDoorbell b s
  | .doorbellService q => Sys2Proof.Machine.execDoorbellService q s
  | .poll q late => Sys2Proof.Machine.execPoll q late s
  | .pollResponse q tag ci => Sys2Proof.Machine.execPollResponse q tag ci s
  | .pollOverrunEpisodeEnd => Sys2Proof.Machine.execPollOverrunEpisodeEnd s
  | .indexReadResponse q pi ci => Sys2Proof.Machine.execIndexReadResponse q pi ci s
  | .indexWriteTimer q => Sys2Proof.Machine.execIndexWriteTimer q s
  | .seqTagRetry q ws => Sys2Proof.Machine.execSeqTagRetry q ws s
  | .txFetch => Sys2Proof.Machine.execTxFetch s
  | .adminFetch => Sys2Proof.Machine.execAdminFetch s
  | .txDescriptorArrive q idx ws => Sys2Proof.Machine.execTxDescriptorArrive q idx ws s
  | .adminDescriptorArrive q idx ws => Sys2Proof.Machine.execAdminDescriptorArrive q idx ws s
  | .segmentListArrive q idx ws => Sys2Proof.Machine.execSegmentListArrive q idx ws s
  | .cellReserve => Sys2Proof.Machine.execCellReserve s
  | .launchReadStart q idx => Sys2Proof.Machine.execLaunchReadStart q idx s
  | .launchTimeReached q idx => Sys2Proof.Machine.execLaunchTimeReached q idx s
  | .payloadReadDone q idx bytes => Sys2Proof.Machine.execPayloadReadDone q idx bytes s
  | .frameDispatch p up => Sys2Proof.Machine.execFrameDispatch p up s
  | .classifyDone p up => Sys2Proof.Machine.execClassifyDone p up s
  | .frameHandoff p sub poison => Sys2Proof.Machine.execFrameHandoff p sub poison s
  | .dsFrameEnd p => Sys2Proof.Machine.execDsFrameEnd p s
  | .completionWrite r => Sys2Proof.Machine.execCompletionWrite r s
  | .cqRecoveryRead q => Sys2Proof.Machine.execCqRecoveryRead q s
  | .rateTokenRefill code => Sys2Proof.Machine.execRateTokenRefill code s
  | .fabricWriteAck id => Sys2Proof.Machine.execFabricWriteAck id s
  | .vectorTimer v => Sys2Proof.Machine.execVectorTimer v s
  | .interruptAck v => Sys2Proof.Machine.execInterruptAck v s
  | .fabricErrorResponse write id => Sys2Proof.Machine.execFabricErrorResponse write id s
  | .fabricTimeout write id => Sys2Proof.Machine.execFabricTimeout write id s
  | .lateResponse r => Sys2Proof.Machine.execLateResponse r s
  | .cipherTimeout flow => Sys2Proof.Machine.execCipherTimeout flow s
  | .cipherLateResult => Sys2Proof.Machine.execCipherLateResult s
  | .rxBufferFetch r => Sys2Proof.Machine.execRxBufferFetch r s
  | .rxBufferArrive r ws => Sys2Proof.Machine.execRxBufferArrive r ws s
  | .usFrameArrival p f => Sys2Proof.Machine.execUsFrameArrival p f s
  | .rxBuffersTake id => Sys2Proof.Machine.execRxBuffersTake id s
  | .rxNoBufferTimeout id => Sys2Proof.Machine.execRxNoBufferTimeout id s
  | .cycleStart p sub => Sys2Proof.Machine.execCycleStart p sub s
  | .cycleLost p => Sys2Proof.Machine.execCycleLost p s
  | .garbled p sub => Sys2Proof.Machine.execGarbled p sub s
  | .sdDegradedRise p => Sys2Proof.Machine.execSdDegradedRise p s
  | .sdDegradedFall p => Sys2Proof.Machine.execSdDegradedFall p s
  | .grantReadPoint t => Sys2Proof.Machine.execGrantReadPoint t s
  | .planPublish t => Sys2Proof.Machine.execPlanPublish t s
  | .grantComputeDeadline t => Sys2Proof.Machine.execGrantComputeDeadline t s
  | .glCommit t poison => Sys2Proof.Machine.execGlCommit t poison s
  | .grantListDeadline t => Sys2Proof.Machine.execGrantListDeadline t s
  | .burstMissed t => Sys2Proof.Machine.execBurstMissed t s
  | .rangingSlotJudge t => Sys2Proof.Machine.execRangingSlotJudge t s
  | .jbWindowJudge t => Sys2Proof.Machine.execJbWindowJudge t s
  | .protSwitch p side => Sys2Proof.Machine.execProtSwitch p side s
  | .rehomeRebind t => Sys2Proof.Machine.execRehomeRebind t s
  | .rehomeResume t => Sys2Proof.Machine.execRehomeResume t s
  | .prefetchIssue flow => Sys2Proof.Machine.execPrefetchIssue flow s
  | .pageInIssue => Sys2Proof.Machine.execPageInIssue s
  | .pageInReadDone flow ws => Sys2Proof.Machine.execPageInReadDone flow ws s
  | .pageInDone flow status ws => Sys2Proof.Machine.execPageInDone flow status ws s
  | .pageOutEncrypted flow status ws => Sys2Proof.Machine.execPageOutEncrypted flow status ws s
  | .pageOutDone flow => Sys2Proof.Machine.execPageOutDone flow s
  | .cleaningPageOut => Sys2Proof.Machine.execCleaningPageOut s
  | .pageRetry flow => Sys2Proof.Machine.execPageRetry flow s
  | .faultHoldEnd flow => Sys2Proof.Machine.execFaultHoldEnd flow s
  | .victimBarEnd slot => Sys2Proof.Machine.execVictimBarEnd slot s
  | .protectionEnd flow => Sys2Proof.Machine.execProtectionEnd flow s
  | .cachePressureEpisodeEnd => Sys2Proof.Machine.execCachePressureEpisodeEnd s
  | .prefetchLateEpisodeEnd => Sys2Proof.Machine.execPrefetchLateEpisodeEnd s
  | .whistleRise w => Sys2Proof.Machine.execWhistleRise w s
  | .whistleFall w => Sys2Proof.Machine.execWhistleFall w s
  | .tsqCiRead => Sys2Proof.Machine.execTsqCiRead s
  | .tsqCiResponse ci => Sys2Proof.Machine.execTsqCiResponse ci s
  | .traceCiRead => Sys2Proof.Machine.execTraceCiRead s
  | .laneProbe l found refClk => Sys2Proof.Machine.execLaneProbe l found refClk s
  | .laneTimeLimit l => Sys2Proof.Machine.execLaneTimeLimit l s
  | .characterAlignment l => Sys2Proof.Machine.execCharacterAlignment l s
  | .symbolLockLost l => Sys2Proof.Machine.execSymbolLockLost l s
  | .tsReceived l ps tail => Sys2Proof.Machine.execTsReceived l ps tail s
  | .lkReceived l ps tail clean => Sys2Proof.Machine.execLkReceived l ps tail clean s
  | .capSetReceived l ps tail => Sys2Proof.Machine.execCapSetReceived l ps tail s
  | .markReceived l ps tail => Sys2Proof.Machine.execMarkReceived l ps tail s
  | .rateSwitch l => Sys2Proof.Machine.execRateSwitch l s
  | .blockLock l => Sys2Proof.Machine.execBlockLock l s
  | .blockLockLost l => Sys2Proof.Machine.execBlockLockLost l s
  | .alignmentLost l => Sys2Proof.Machine.execAlignmentLost l s
  | .invalidBlock l rx => Sys2Proof.Machine.execInvalidBlock l rx s
  | .sleepReceived c => Sys2Proof.Machine.execSleepReceived c s
  | .wakeReceived c => Sys2Proof.Machine.execWakeReceived c s
  | .lpiEnter c => Sys2Proof.Machine.execLpiEnter c s
  | .lpiWake c => Sys2Proof.Machine.execLpiWake c s
  | .lpiWakeTimeout l => Sys2Proof.Machine.execLpiWakeTimeout l s
  | .linkTransmit c => Sys2Proof.Machine.execLinkTransmit c s
  | .dataReceived c h d => Sys2Proof.Machine.execDataReceived c h d s
  | .ackReceived c next gap => Sys2Proof.Machine.execAckReceived c next gap s
  | .pauseReceived c enable quanta => Sys2Proof.Machine.execPauseReceived c enable quanta s
  | .capReceived c h ps => Sys2Proof.Machine.execCapReceived c h ps s
  | .snapReceived c h number sec ns => Sys2Proof.Machine.execSnapReceived c h number sec ns s
  | .syncReceived c seqId sub => Sys2Proof.Machine.execSyncReceived c seqId sub s
  | .followUpReceived c seqId t => Sys2Proof.Machine.execFollowUpReceived c seqId t s
  | .delayReqReceived c seqId sub => Sys2Proof.Machine.execDelayReqReceived c seqId sub s
  | .delayRespReceived c seqId t => Sys2Proof.Machine.execDelayRespReceived c seqId t s
  | .timeExchangeStart c => Sys2Proof.Machine.execTimeExchangeStart c s
  | .timeExchangeTimeout c => Sys2Proof.Machine.execTimeExchangeTimeout c s
  | .migBeginReceived c h m => Sys2Proof.Machine.execMigBeginReceived c h m s
  | .migTerminalReceived c h mid term ws => Sys2Proof.Machine.execMigTerminalReceived c h mid term ws s
  | .migFlowReceived c h mid flow ws => Sys2Proof.Machine.execMigFlowReceived c h mid flow ws s
  | .migEndReceived c h mid terms flows => Sys2Proof.Machine.execMigEndReceived c h mid terms flows s
  | .migDoneReceived c h mid status => Sys2Proof.Machine.execMigDoneReceived c h mid status s
  | .migrationDrainEnd t list => Sys2Proof.Machine.execMigrationDrainEnd t list s
  | .migDoneTimeout t => Sys2Proof.Machine.execMigDoneTimeout t s
  | .migEndTimeout p => Sys2Proof.Machine.execMigEndTimeout p s
  | .transitTimeout c => Sys2Proof.Machine.execTransitTimeout c s
  | .retransmitTimeout c => Sys2Proof.Machine.execRetransmitTimeout c s
  | .retxEpisodeEnd c => Sys2Proof.Machine.execRetxEpisodeEnd c s
  | .ackTimer c => Sys2Proof.Machine.execAckTimer c s
  | .pauseExpiry c cls => Sys2Proof.Machine.execPauseExpiry c cls s
  | .pauseRefresh c cls => Sys2Proof.Machine.execPauseRefresh c cls s
  | .bwWindowEnd => Sys2Proof.Machine.execBwWindowEnd s
  | .snapshotFreeze => Sys2Proof.Machine.execSnapshotFreeze s
  | .snapshotImageDone => Sys2Proof.Machine.execSnapshotImageDone s
  | .patrolScrub store word item err => Sys2Proof.Machine.execPatrolScrub store word item err s
  | .domainIdle d sub => Sys2Proof.Machine.execDomainIdle d sub s
  | .depthEntered d => Sys2Proof.Machine.execDepthEntered d s
  | .wakeStart d => Sys2Proof.Machine.execWakeStart d s
  | .domainAwake d sub shadowErr => Sys2Proof.Machine.execDomainAwake d sub shadowErr s
  | .wakeFailed d => Sys2Proof.Machine.execWakeFailed d s
  | .commitFlip => Sys2Proof.Machine.execCommitFlip s
  | .commitCopyDone => Sys2Proof.Machine.execCommitCopyDone s
  | .curveLoadApply curve => Sys2Proof.Machine.execCurveLoadApply curve s
  | .queueCreate q idx => Sys2Proof.Machine.execQueueCreate q idx s
  | .queueModify q idx => Sys2Proof.Machine.execQueueModify q idx s
  | .queueDrain q idx => Sys2Proof.Machine.execQueueDrain q idx s
  | .queueDestroy q idx => Sys2Proof.Machine.execQueueDestroy q idx s
  | .flowCreate q idx => Sys2Proof.Machine.execFlowCreate q idx s
  | .flowDestroy q idx => Sys2Proof.Machine.execFlowDestroy q idx s
  | .flowPin q idx => Sys2Proof.Machine.execFlowPin q idx s
  | .flowUnpin q idx => Sys2Proof.Machine.execFlowUnpin q idx s
  | .rekeyFlow q idx => Sys2Proof.Machine.execRekeyFlow q idx s
  | .terminalSetState q idx => Sys2Proof.Machine.execTerminalSetState q idx s
  | .rangeArm q idx => Sys2Proof.Machine.execRangeArm q idx s
  | .equaliseSet q idx => Sys2Proof.Machine.execEqualiseSet q idx s
  | .ruleInsert q idx => Sys2Proof.Machine.execRuleInsert q idx s
  | .ruleDelete q idx => Sys2Proof.Machine.execRuleDelete q idx s
  | .ternaryStage q idx => Sys2Proof.Machine.execTernaryStage q idx s
  | .parseStage q idx => Sys2Proof.Machine.execParseStage q idx s
  | .classCommit q idx => Sys2Proof.Machine.execClassCommit q idx s
  | .curveLoad q idx => Sys2Proof.Machine.execCurveLoad q idx s
  | .playbookLoad q idx => Sys2Proof.Machine.execPlaybookLoad q idx s
  | .snapshot q idx => Sys2Proof.Machine.execSnapshot q idx s
  | .timeStep q idx => Sys2Proof.Machine.execTimeStep q idx s
  | .timeRate q idx => Sys2Proof.Machine.execTimeRate q idx s
  | .whistleSet q idx => Sys2Proof.Machine.execWhistleSet q idx s
  | .linkRetrain q idx => Sys2Proof.Machine.execLinkRetrain q idx s
  | .migrateOut q idx => Sys2Proof.Machine.execMigrateOut q idx s
  | .migrateIn q idx fc => Sys2Proof.Machine.execMigrateIn q idx fc s
  | .portEnable q idx fc => Sys2Proof.Machine.execPortEnable q idx fc s
  | .portDisable q idx => Sys2Proof.Machine.execPortDisable q idx s
  | .portRestart q idx => Sys2Proof.Machine.execPortRestart q idx s
  | .traceCiResponse ci => Sys2Proof.Machine.execTraceCiResponse ci s
  | .adminBufferReadDone q idx data => Sys2Proof.Machine.execAdminBufferReadDone q idx data s
  | .listTime t => Sys2Proof.Machine.execListTime t s
  | .laneRecoveredClockLost l => Sys2Proof.Machine.execLaneRecoveredClockLost l s
  | .blockSupplyOff => Sys2Proof.Machine.execBlockSupplyOff s
  | .receiverTrained l => Sys2Proof.Machine.execReceiverTrained l s
  | .laneAligned l => Sys2Proof.Machine.execLaneAligned l s
  | .invalidMessageReceived c bytes => Sys2Proof.Machine.execInvalidMessageReceived c bytes s

end Sys2Proof.Machine
end

