-- ==== Sys2Proof/Machine/Pins.lean ====
section
/-! DEFINITION. The states of the block's pins (R39, R40), which follow from the rest of the state: the whistles, and the lanes'
transmitters and receivers. -/

namespace Sys2Proof.Machine

/-- What the block does to a whistle's pin (R39). -/
inductive PinLevel where
  | highZ | low | high
  deriving DecidableEq, Repr

/-- A lane's transmitter (R39): driving, electrical idle with its termination present, or with it high impedance. -/
inductive LaneTx where
  | driving | idle | off
  deriving DecidableEq, Repr

/-- A lane's two pairs: its transmitter, and whether its receiver presents a termination (R39). -/
structure LanePins where
  tx : LaneTx
  rxTerm : Bool
  deriving DecidableEq, Repr

/-- `WHS[w]`: high impedance in every reset and without supply, else low with the programmed pulses high. -/
def whistlePin (s : State) (w : Nat) : PinLevel :=
  if s.phase ≠ .running then .highZ
  else if (getWhistle s w).fallAt.isSome then .high
  else .low

/-- The pins of a lane. In DETECT, of which R39 has no row, the transmitter idles with its termination present: DEDUCED from
R230, which names the high impedance for Disabled only. -/
def lanePins (s : State) (l : Nat) : LanePins :=
  let L := getLane s l
  if s.phase ≠ .running || L.resetting || L.st = 0 then { tx := .off, rxTerm := false }
  else if L.st = 1 || (getCPort s (lanePort l)).asleep then { tx := .idle, rxTerm := true }
  else { tx := .driving, rxTerm := true }

end Sys2Proof.Machine
end

