-- ==== Sys2Proof/Safety.lean ====
section
/-! DEFINITION. What counts as a safe step, and the vocabulary of the statements: the invariant of the machine, and an admin
command at its turn. The manual names no condition in which the block stops (R22). -/

namespace Sys2Proof

/-- An outcome in which the block goes on. -/
def goesOn (o : Host.Outcome Machine.State Machine.Fault Machine.Refusal) : Prop := ∃ s, o = .next s

/-- A state from which the next step goes on. -/
def Safe (s : Machine.State) : Prop := goesOn (Machine.step s)

/-- A time base that R212 and R216 allow: 48-bit seconds, nanoseconds below 10^9, a 32-bit fraction, and a rate that TIME_RATE
takes. -/
abbrev LegalTime (t : Machine.Tim) : Prop :=
  t.sec < 281474976710656 ∧ t.ns < 1000000000 ∧ t.frac < 4294967296 ∧ -4294967 ≤ t.rate ∧ t.rate ≤ 4294967

/-- Software's registers in canonical form: offsets strictly rising, each of a register of the map, none at its reset value. -/
abbrev RegsOk (regs : Table Word) : Prop :=
  regs.Pairwise (fun a b => a.1 < b.1) ∧ ∀ e ∈ regs, e.2 ≠ Machine.regReset e.1 ∧ (Machine.rowOf e.1).isSome = true

/-- The machine's invariant: a legal time base, a reset record and a `SESSION` that fit their fields (R48, R53, R235), and
software's registers in canonical form. -/
structure Inv (s : Machine.State) : Prop where
  time : LegalTime s.tim
  regs : RegsOk s.regs
  cause : s.hif.cause ≤ 2
  unwritten : s.hif.unwritten ≤ 0xFFFF
  wbLost : s.hif.wbLost ≤ 0xFFFF
  session : s.lnk.session < 65536

/-- An admin command of an opcode has come to its turn (R99): it is in the block, waiting, no command before it names its
object, and nothing else holds it. -/
abbrev AtTurn (s : Machine.State) (q : Fin 64) (idx : Word) (op : Nat) (a : Machine.Adm) : Prop :=
  Machine.findAdm s (5120 + q) idx = some a ∧ Machine.aOp a.ws = op ∧ Machine.turnOk s a = true

/-- An offset whose write has no row of its own and no more to it than its fields and their actions. -/
abbrev PlainOffset (off : Nat) : Prop :=
  off % 4 = 0 ∧ ¬off ∈ [0x80, 0x60000, 0x30A04, 0x50010, 0x80204, 0xB0004, 0x80004, 0x90000, 0xB0030, 0x70020, 0xB0010] ∧
  Machine.isCap off = false

/-- A numbered message of `len` bytes of body, of a class that its port accepts, arrives on an up port, has room in its receive
store, and is the one expected there (R242, R248, R254, R256), with no ACK due yet; `u` is the state with it counted and
accepted. -/
abbrev Accepted (c : Fin 4) (h : MsgHdr) (len : Nat) (s u : Machine.State) : Prop :=
  (Machine.getCPort s c).up = true ∧ Machine.bitOf (Machine.portCfg s c) h.cls = true ∧
  Machine.storeUsed (Machine.getCPort (Machine.countRx c len (Machine.access 213 s)) c) + Machine.cellsOf (20 + len) ≤ 8192 ∧
  Machine.seqGap h.seq.toNat (Machine.getCPort (Machine.countRx c len (Machine.access 213 s)) c).expect = 0 ∧
  (Machine.getCPort (Machine.countRx c len (Machine.access 213 s)) c).accepted + 1 < 16 ∧
  u = Machine.modCPort c (fun C => { C with expect := (C.expect + 1) % 4294967296, accepted := C.accepted + 1 })
    (Machine.countRx c len (Machine.access 213 s))

/-- The words that a command's host read brings have come: the command `a` of an opcode, with its read in flight, and `u` the
state with that read's tag returned (R98). -/
abbrev BufferHere (s : Machine.State) (q : Fin 64) (idx : Word) (op : Nat) (a : Machine.Adm) (ws : List Word)
    (u : Machine.State) : Prop :=
  Machine.findAdm s (5120 + q) idx = some a ∧ Machine.aOp a.ws = op ∧
  Machine.reading s (Machine.bufUse a) = true ∧ ws.length = Machine.bufWords a ∧
  u = Machine.returnReads (fun x => x = Machine.bufUse a) s

/-- The number of the object that a command's `TARGET` gives. -/
def target (a : Machine.Adm) : Nat := (Machine.aTarget a.ws).toNat

end Sys2Proof
end

