-- ==== Sys2Proof/Certificates/Slice0/Obligations.lean ====
section
/-! DEFINITION. The statements about the model, one proposition each. Unless a statement says otherwise a completion
statement gives the whole next state, in the vocabulary of the shared operations, and so its frame too: what the
operations named do not touch stands as it was. -/

section Statements

open Sys2Proof Sys2Proof.Machine

/-! The whole machine. -/

/-- Commands are taken first in, first out: a step with a command at the front of the queue runs it on the state with the
queue's rest (the block's form of a step; assumption log 1). -/
def Obligations.StepRunsFrontCommand : Prop :=
  ∀ (c : Instr) (rest : List Instr) (s : State),
    step { s with pending := c :: rest } = exec c { s with pending := rest }

/-- With no command waiting, a step is one edge of the time-island clock (the model's choice, assumption log 1): by R212
the time base moves by 1 ns and `RATE` units of 2^-32 ns, modulo the whole span of its 48-bit seconds; in a cold reset or
without supply nothing moves (R213, R39). -/
def Obligations.IdleStepIsOneClockEdge : Prop :=
  (∀ s : State, s.pending = [] → timeAlive s = true → LegalTime s.tim → ∃ t, step s = .next t ∧
    now32 t.tim = (now32 s.tim + 4294967296 + s.tim.rate) % (281474976710656 * 1000000000 * 4294967296) ∧
    t.tim.rate = s.tim.rate ∧ LegalTime t.tim ∧ t.uptime = s.uptime + 1 ∧ t.phase = s.phase ∧ t.regs = s.regs ∧
    t.pending = []) ∧
  (∀ s : State, s.pending = [] → timeAlive s = false → step s = .next s)

/-- No command stops the block, which the manual gives no condition to stop in (R22), and none touches the queue of waiting
commands (the model's, assumption log 1). -/
def Obligations.EveryCommandGoesOn : Prop :=
  ∀ (c : Instr) (s : State), ∃ t, exec c s = .next t ∧ t.pending = s.pending

/-- The block moves between running, its resets and no supply by these commands only, and each as the reset chapter says
(R39, R48–R53, R213). -/
def Obligations.PhaseMovesOnlyByResets : Prop :=
  ∀ (c : Instr) (s t : State), exec c s = .next t →
    t.phase = s.phase ∨
    ((∃ short, c = .coldReset short) ∧ t.phase = .coldHeld) ∨
    (c = .coldResetRelease ∧ s.phase = .coldHeld ∧ t.phase = .coldInit) ∨
    (c = .resetInitialisationDone ∧ (s.phase = .coldInit ∨ s.phase = .warmInit) ∧ t.phase = .running) ∨
    ((c = .warmResetByPin ∨ c = .warmReset 0xA5C3 ∨
        ∃ v : Word, c = .registerWrite ⟨0x80, false⟩ 4 v ∧ bitOf v 0 = true ∧ bitsOf v 16 16 = 0xA5C3) ∧
      s.phase = .running ∧ t.phase = .quiesce) ∨
    ((∃ bound, c = .quiesceEnd bound) ∧ s.phase = .quiesce ∧ t.phase = .warmInit) ∨
    (c = .blockSupplyOff ∧ t.phase = .off)

/-- No command but a cold reset, TIME_STEP and TIME_RATE changes the time base or its rate: no other reset and no loss of
a clock stops, steps or slews it (R59, R214). -/
def Obligations.TimeBaseMovesOnlyByItsCommands : Prop :=
  ∀ (c : Instr) (s t : State), exec c s = .next t → (∀ short, c ≠ .coldReset short) → (∀ q idx, c ≠ .timeStep q idx) →
    (∀ q idx, c ≠ .timeRate q idx) →
    t.tim.sec = s.tim.sec ∧ t.tim.ns = s.tim.ns ∧ t.tim.frac = s.tim.frac ∧ t.tim.rate = s.tim.rate

/-- The reset record is written by cold and warm resets alone (R48, R51, R53), and `SESSION` is drawn where a reset ends
(R235). -/
def Obligations.ResetRecordMovesOnlyByResets : Prop :=
  ∀ (c : Instr) (s t : State), exec c s = .next t →
    ((∀ short, c ≠ .coldReset short) → (∀ bound, c ≠ .quiesceEnd bound) →
      t.hif.cause = s.hif.cause ∧ t.hif.quiesceTimeout = s.hif.quiesceTimeout ∧ t.hif.unwritten = s.hif.unwritten ∧
      t.hif.wbLost = s.hif.wbLost) ∧
    ((∀ short, c ≠ .coldReset short) → (∀ bound, c ≠ .quiesceEnd bound) → c ≠ .resetInitialisationDone →
      t.lnk.session = s.lnk.session)

/-- A property that every step keeps, from any state that has it and not only from reset: the time base is one that R212
and R216 allow, the reset record and `SESSION` fit their fields (R48, R53, R235), and the table of software's registers is in
canonical form, with no entry where no register sits. -/
def Obligations.StepKeepsInv : Prop :=
   ∀ s t : State, Inv s → step s = .next t → Inv t

/-- The state after reset has the invariant. -/
def Obligations.ResetHasInv : Prop :=
   Inv State.reset

/-- Right after reset: registers read as R342 and their own rules give, the identity as R341, the time base is 0 (R213), no
queue exists (R61), no port is enabled (R340), no terminal has left IDLE (R182), no flow is live and the caddie is off
(R191), no event is waiting. -/
def Obligations.ResetState : Prop :=
  (∀ off, reg State.reset off = regReset off) ∧ readWord State.reset 0xC0000 = 0x504C4E48 ∧
  readWord State.reset 0xC0004 = 0xC1 ∧ readWord State.reset 0x84 = 0 ∧ readWord State.reset 0x30000 = 3 ∧
  readWord State.reset 0x80000 = 0x06100000 ∧ readWord State.reset 0xB0004 = 0x1F2E3D4C ∧
  (∀ p : Fin 64, reg State.reset (0x10010 + p * 0x400) = 1518) ∧ now32 State.reset.tim = 0 ∧
  (∀ q, (getQueue State.reset q).st = .notCreated) ∧ (∀ p, portState (getPort State.reset p) = 0) ∧
  (∀ h, (getRec State.reset h).state = 0) ∧ (∀ f, flowLive State.reset f = false) ∧ State.reset.pgr.enabled = false ∧
  (∀ c, pbEntry State.reset c = pbDefault c) ∧ (∀ k, getCtr State.reset k = 0) ∧ State.reset.pending = []

/-! Resets, supply and clocks. -/

/-- A cold reset (COLD_RESET) holds everything at its reset value, from any state; its end (COLD_RESET_RELEASE) starts
initialisation; when that is done (RESET_INITIALISATION_DONE) the block runs, its capture cells calibrated (R47) and its `SESSION`
drawn, with nothing left of what it held but the draws' counter and the waiting commands (the model's own). A pulse shorter than
1 µs is a full cold reset or nothing, which one being free (R48–R50, R213, R235, R342). -/
def Obligations.ColdReset : Prop :=
  let held := fun (n : Nat) (s : State) => ({ phase := .coldHeld, freeCtr := n, pending := s.pending } : State)
  (∀ s : State, exec (.coldReset false) s = .next (held s.freeCtr s)) ∧
  (∀ s : State, exec (.coldReset true) s = .next
    (if Config.shortPulseTaken s.freeCtr = true then held (s.freeCtr + 1) s else { s with freeCtr := s.freeCtr + 1 })) ∧
  (∀ s : State, s.phase = .coldHeld → exec .coldResetRelease s = .next { s with phase := .coldInit }) ∧
  (∀ s : State, s.phase = .coldInit → exec .resetInitialisationDone s =
    .next { s with phase := .running, tim := { s.tim with calibrations := s.tim.calibrations + 1 },
                   lnk := { s.lnk with session := (Config.session s.freeCtr).toNat }, freeCtr := s.freeCtr + 1 }) ∧
  (∀ s : State, s.phase = .warmInit → exec .resetInitialisationDone s =
    .next { s with phase := .running, lnk := { s.lnk with session := (Config.session s.freeCtr).toNat },
                   freeCtr := s.freeCtr + 1 }) ∧
  (∀ n, (Config.session n).toNat < 65536) ∧
  (∀ s a b c : State, a = held s.freeCtr s → b = { a with phase := .coldInit } →
    c = { State.reset with lnk := { session := (Config.session s.freeCtr).toNat }, freeCtr := s.freeCtr + 1,
                           pending := s.pending } →
    exec (.coldReset false) s = .next a ∧ exec .coldResetRelease a = .next b ∧ exec .resetInitialisationDone b = .next c)

/-- The warm reset and the loss of the supply, each with the whole state that it leaves.
WARM_RESET_BY_PIN and WARM_RESET with the key, in a running block, start the quiesce phase (R51, R52): reads in flight are given
up, descriptors end, upstream frames not yet being written go, ready completions go to their rings, and the caddie writes its
changed contexts back; the registers and the time base stay. A wrong key changes nothing but the refused-write record (R337).
Outside the running phase neither does anything. QUIESCE_END, at the phase's bound or with every step done, records cause,
time-out and losses, marks the flows whose contexts were lost, and enters initialisation: the playbook, the error log, the time
island and its registers stay, and the rest is at its reset value (R49, R51, R53); with a step still to do, and before the bound,
it changes nothing. BLOCK_SUPPLY_OFF leaves a block that does nothing, its whistle pins not driven (R39). -/
def Obligations.WarmResetAndSupply : Prop :=
  let started := fun (cause : Nat) (s : State) =>
    quiesceCaddie (drainRings (flushUpstream (flushDescriptors (dropReads (fun _ => true)
      { s with phase := .quiesce, hif := { s.hif with warmCause := cause },
               tim := { s.tim with whistles := tmap {} (fun w => { w with fallAt := none }) s.tim.whistles },
               mon := { s.mon with freezes := [], image := none } }))))
  (∀ s : State, s.phase = .running → exec .warmResetByPin s = .next (started 1 s)) ∧
  (∀ s : State, s.phase = .running → exec (.warmReset 0xA5C3) s = .next (started 2 s)) ∧
  (∀ (s : State) (cause : Nat), (started cause s).phase = .quiesce ∧ (started cause s).hif.warmCause = cause ∧
    (started cause s).regs = s.regs ∧ now32 (started cause s).tim = now32 s.tim) ∧
  (∀ (s : State) (key : BitVec 16), s.phase = .running → key ≠ 0xA5C3 → exec (.warmReset key) s =
    .next { s with hif := { s.hif with refused :=
      { offset := 0x80, cause := 4, sticky := true, count := sat 0xFFFF (s.hif.refused.count + 1) } } }) ∧
  (∀ (s : State) (key : BitVec 16), s.phase ≠ .running →
    exec .warmResetByPin s = .next s ∧ exec (.warmReset key) s = .next s) ∧
  (∀ (s t : State) (bound : Bool), s.phase = .quiesce → bound = true ∨ quiesceDone s = true →
    (let marked := (lostFlows s).foldl (fun s f => repairSet f (Nat.lor (tget s.pgr.repair f 0) 1) s) s
     t = warmState
          { cause := s.hif.warmCause, quiesceTimeout := bound, unwritten := sat 0xFFFF (unwrittenCpls s),
            wbLost := sat 0xFFFF (lostFlows s).length, warmRx := s.hif.warmRx }
           (match lostFlows s with
            | f :: _ => logWrite 0xA40 3 (wordOf f) (wordOf (lostFlows s).length) marked
            | [] => marked)) →
    exec (.quiesceEnd bound) s = .next t ∧ t.phase = .warmInit ∧
    now32 t.tim = now32 s.tim ∧ t.tim.rate = s.tim.rate ∧ t.tim.whistles = s.tim.whistles ∧
    t.err.playbook = s.err.playbook ∧ t.err.pbBad = s.err.pbBad ∧
    (∀ off, off / 65536 = 7 ∨ off = 0xA0004 → reg t off = reg s off) ∧
    (∀ off, off / 65536 ≠ 7 → off ≠ 0xA0004 → reg t off = regReset off) ∧
    (∀ k, k / 65536 = 7 → getCtr t k = getCtr s k) ∧ (∀ k, k / 65536 ≠ 7 → getCtr t k = 0) ∧
    t.tpt = {} ∧ t.cls = {} ∧ t.gnt = {} ∧ t.rng = {} ∧ t.lnk = {} ∧ t.pwr = {} ∧ t.mon = {} ∧ t.fab = {} ∧
    t.hif.queues = [] ∧ t.hif.tx = [] ∧ t.hif.adm = [] ∧ t.pgr.flows = [] ∧ t.pgr.slots = [] ∧ t.pgr.enabled = false) ∧
  (∀ (s : State) (bound : Bool), s.phase ≠ .quiesce ∨ (bound = false ∧ quiesceDone s = false) →
    exec (.quiesceEnd bound) s = .next s) ∧
  (∀ s t : State,
      t = { s with phase := .off,
                   tim := { s.tim with whistles := tmap {} (fun w => { w with fallAt := none }) s.tim.whistles } } →
    exec .blockSupplyOff s = .next t ∧ (∀ w, (tget t.tim.whistles w {}).fallAt = none) ∧ (t.pending = [] → step t = .next t))

/-- A port's clock (R43, R57). A lost clock shows in `TPT_PORT_CLK` whatever the port's state; a disabled port loses
nothing else. An enabled port ends a frame in transfer, raises EV_PORT_CLOCK_LOST, and the frames of the tree homed on it end
with FLUSHED; a re-homing in its last steps there fails with cause 5, and one whose partner the port is, and which has not been
rebound, with cause 0 (R269). A measurement outside 248–324 MHz counts as lost; inside, it shows in the register, and brings a
clock-lost port EV_PORT_CLOCK_RESTORED; one of no edges is a lost clock. A
degraded-signal indication is reported at its rise and at its fall, once each (R35); one dropped on its way is reported (R46). -/
def Obligations.PortClock : Prop :=
  let gone := fun P : Port => { P with freqMhz := 0, present := false, good := false, lostSeen := P.lostSeen || P.good }
  let partner := fun (p : Nat) (u : State) => (rebindTree u p = none → partnerGone p u = u) ∧
    (∀ t, rebindTree u p = some t → partnerGone p u = rehomeFail t 0 u)
  (∀ (p : Nat) (u : State), partner p u) ∧
  (∀ (s : State) (p : Fin 64), s.phase = .running → (getPort s p).enabled = false →
    exec (.portClockLost p) s = .next (partnerGone p (modPort p gone s))) ∧
  (∀ (s v u : State) (p : Fin 64), s.phase = .running → (getPort s p).enabled = true → (getPort s p).clockLost = false →
    v = modPort p (fun P => { P with clockLost := true, burst := none }) (modPort p gone s) →
    u = raise 0x216 (wordOf p) 0 (if (getPort s p).xfer.isSome then downLost p (stat p 13 1 v) else v) →
    (treeOn u p = none → exec (.portClockLost p) s = .next (partnerGone p u)) ∧
    (∀ t, treeOn u p = some t → (getProt (flushQueues t 7 u) t).phase ≠ 2 →
      exec (.portClockLost p) s = .next (partnerGone p (flushQueues t 7 u))) ∧
    (∀ t, treeOn u p = some t → (getProt (flushQueues t 7 u) t).phase = 2 →
      exec (.portClockLost p) s = .next (partnerGone p (rehomeFail t 5 (flushQueues t 7 u))))) ∧
  (∀ (s : State) (p : Fin 64), s.phase = .running → exec (.portClockMeasure p 0) s = exec (.portClockLost p) s) ∧
  (∀ (s : State) (p : Fin 64) (khz : Nat), s.phase = .running → 248000 ≤ khz → khz ≤ 324000 →
    (getPort s p).clockLost = false ∨ (getPort s p).good = true → exec (.portClockMeasure p khz) s =
      .next (modPort p (fun P => { P with freqMhz := khz / 1000, present := true, good := true }) s)) ∧
  (∀ (s : State) (p : Fin 64) (khz : Nat), s.phase = .running → 248000 ≤ khz → khz ≤ 324000 →
    (getPort s p).clockLost = true → (getPort s p).good = false → exec (.portClockMeasure p khz) s =
      .next (raise 0x217 (wordOf p) (wordOf (khz / 1000))
        (modPort p (fun P => { P with freqMhz := khz / 1000, present := true, good := true }) s))) ∧
  (∀ (s : State) (p : Fin 64) (khz : Nat), s.phase = .running → 0 < khz → khz < 248000 ∨ 324000 < khz →
    (getPort s p).enabled = false → exec (.portClockMeasure p khz) s =
      .next (partnerGone p (modPort p (fun P =>
        { P with freqMhz := sat 1023 (khz / 1000), present := true, good := false, lostSeen := P.lostSeen || P.good }) s))) ∧
  (∀ (s : State) (p : Fin 64), s.phase = .running → reads (getPort s p) = true → (getPort s p).degraded = false →
    exec (.sdDegradedRise ⟨p, false⟩) s =
      .next (raise 0x213 (wordOf p) 0 (modPort p (fun P => { P with degraded := true }) s))) ∧
  (∀ (s : State) (p : Fin 64), s.phase = .running → reads (getPort s p) = true → (getPort s p).degraded = true →
    exec (.sdDegradedFall ⟨p, false⟩) s =
      .next (raise 0x214 (wordOf p) 0 (modPort p (fun P => { P with degraded := false }) s))) ∧
  (∀ (s : State) (p : Fin 64), s.phase = .running → reads (getPort s p) = true →
    exec (.sdDegradedRise ⟨p, true⟩) s = .next (raise 0xA30 8 (wordOf p) s) ∧
    exec (.sdDegradedFall ⟨p, true⟩) s = .next (raise 0xA30 8 (wordOf p) s))

/-- A per-port reset (R54–R56). Its flush is acknowledged once no frame is in transfer and the port's domains are awake (R308);
a request dropped on the way is reported, and issued again (R46); at its 20 µs a frame in transfer is cut after the bytes that
had crossed; once flushed, it leaves the port disabled, or, for a restart, returns it to service with the framer's constants,
and without constants in range leaves it disabled with BAD_FIELD for the command (R17, R275). -/
def Obligations.PortResetSteps : Prop :=
  (∀ (s : State) (p : Fin 64) (r : PortReset), s.phase = .running → (getPort s p).reset = some r →
    (getPort s p).xfer = none → portAwake s p = true →
    exec (.portFlushAck ⟨p, false⟩) s = .next (modPort p (fun P => { P with reset := some { r with flushed := true } }) s)) ∧
  (∀ (s : State) (p : Fin 64), s.phase = .running → (getPort s p).reset.isSome = true →
    exec (.portFlushAck ⟨p, true⟩) s = .next (raise 0xA30 9 (wordOf p) s)) ∧
  (∀ (s : State) (p : Fin 64) (r : PortReset) (sent : Nat), s.phase = .running → (getPort s p).reset = some r →
    exec (.portResetTruncate ⟨p, sent⟩) s = .next (downEnd p true sent s)) ∧
  (∀ (s : State) (p : Fin 64) (c : FramerConst) (r : PortReset), s.phase = .running → (getPort s p).reset = some r →
    r.flushed = true → exec (.portResetDone p c) s = .next
      (if r.restart = true then
        if constsOk s p c = true then resetCmd r 0 (portService p c s) else resetCmd r 4 (resetOff p s)
       else resetCmd r 0 (resetOff p s)))

/-! The register window. -/

/-- An offset that no register occupies reads 0; a write to it changes nothing but the refused-write record, which keeps its
address and sets the sticky flag (R27). The premise on the registers is part of the invariant. -/
def Obligations.EmptyOffset : Prop :=
  ∀ (s : State) (off : BitVec 20) (v : Word), RegsOk s.regs → off.toNat % 4 = 0 → rowOf off.toNat = none →
    readWord s off.toNat = 0 ∧
    (s.phase = .running → ∃ r, exec (.registerWrite ⟨off, false⟩ 4 v) s = .next { s with hif := { s.hif with refused := r } } ∧
      r.offset = off.toNat ∧ r.sticky = true)

/-- A write of `MAX_FRAME` outside 1,518–16,128 bytes changes nothing but the refused-write record, which keeps its address
and sets the sticky flag; and while a port carries traffic no command but a cold reset changes its `MAX_FRAME` (R101). -/
def Obligations.MaxFrame : Prop :=
  (∀ (s : State) (p : Fin 64) (v : Word), s.phase = .running → bitsOf v 0 14 < 1518 ∨ 16128 < bitsOf v 0 14 →
    ∃ r, exec (.registerWrite ⟨BitVec.ofNat 20 (0x10010 + p * 0x400), false⟩ 4 v) s =
        .next { s with hif := { s.hif with refused := r } } ∧
      r.offset = 0x10010 + p * 0x400 ∧ r.sticky = true) ∧
  (∀ (c : Instr) (s t : State) (p : Fin 64), s.phase = .running → portUp (getPort s p) = true → exec c s = .next t →
    (∀ short, c ≠ .coldReset short) → bitsOf (reg t (0x10010 + p * 0x400)) 0 14 = bitsOf (reg s (0x10010 + p * 0x400)) 0 14)

/-- REGISTER_WRITE, at every offset, and REFUSED_WRITE_CLEAR. A write that R337 refuses goes into the record with its cause; one
that it does not refuse sets the stored fields of its register and no other register, and its fields read back (R6, R7, R28,
R335, R337). A write of another width or off a word is refused with cause 1; one whose handshake met two parity errors is
dropped and reported (R46). Offsets whose write has more to it have rows of their own, and the write is what the row's command
is; `PlainOffset` leaves them out. A write of the reset key is a warm reset (R50); an enable that reads an index area is its own
row's (R221, R325: the model's, assumption log 109). In reset a write changes nothing
and a read gives 0 (R28). -/
def Obligations.RegisterWrite : Prop :=
  (∀ (s : State) (off : BitVec 20) (v : Word) (cause : Nat), s.phase = .running → PlainOffset off.toNat →
    refusal s off.toNat 4 v = some cause →
    exec (.registerWrite ⟨off, false⟩ 4 v) s = .next (refuseWrite off.toNat cause s)) ∧
  (∀ (s : State) (off : BitVec 20) (v : Word) (r : RRow), s.phase = .running → PlainOffset off.toNat →
    rowOf off.toNat = some r → refusal s off.toNat 4 v = none →
    exec (.registerWrite ⟨off, false⟩ 4 v) s =
      .next (writeEffect off.toNat v (setReg off.toNat (wordOf (r.keep v)) s)) ∧
    reg (setReg off.toNat (wordOf (r.keep v)) s) off.toNat = wordOf (r.keep v) ∧
    (∀ o, o ≠ off.toNat → reg (setReg off.toNat (wordOf (r.keep v)) s) o = reg s o)) ∧
  (∀ (s : State) (off : BitVec 20) (width : Nat) (v : Word), s.phase = .running → width ≠ 4 ∨ off.toNat % 4 ≠ 0 →
    exec (.registerWrite ⟨off, false⟩ width v) s = .next (refuseWrite off.toNat 1 s)) ∧
  (∀ (s : State) (off : BitVec 20) (width : Nat) (v : Word), s.phase = .running →
    exec (.registerWrite ⟨off, true⟩ width v) s = .next (raise 0xA30 7 0 s)) ∧
  (∀ (s : State) (v : Word), s.phase = .running →
    (bitOf v 0 = false → exec (.registerWrite ⟨0x80, false⟩ 4 v) s = .next s) ∧
    (bitOf v 0 = true → bitsOf v 16 16 = 0xA5C3 → exec (.registerWrite ⟨0x80, false⟩ 4 v) s = exec (.warmReset 0xA5C3) s) ∧
    (bitOf v 0 = true → bitsOf v 16 16 ≠ 0xA5C3 →
      exec (.registerWrite ⟨0x80, false⟩ 4 v) s = .next (refuseWrite 0x80 4 s))) ∧
  (∀ (s : State) (v : Word),
    exec (.registerWrite ⟨0x60000, false⟩ 4 v) s = exec (.caddieEnable v) s ∧
    exec (.registerWrite ⟨0x30A04, false⟩ 4 v) s = exec (.indDataWrite v) s ∧
    exec (.registerWrite ⟨0x50010, false⟩ 4 v) s = exec (.recSelWrite v) s ∧
    exec (.registerWrite ⟨0x80204, false⟩ 4 v) s = exec (.routeDataWrite v) s ∧
    exec (.registerWrite ⟨0xB0004, false⟩ 4 v) s = exec (.markSeedWrite v) s ∧
    exec (.registerWrite ⟨0x90000, false⟩ 4 v) s = exec (.powerEnable v) s ∧
    exec (.registerWrite ⟨0xB0030, false⟩ 4 v) s = exec (.bwWindowChange v) s ∧
    (∀ off : BitVec 20, isCap off.toNat = true → off.toNat % 4 = 0 →
      exec (.registerWrite ⟨off, false⟩ 4 v) s = exec (.powerCapWrite off v) s)) ∧
  (∀ (s : State) (v : Word), s.phase = .running → refusal s 0x80004 4 v = none →
    exec (.registerWrite ⟨0x80004, false⟩ 4 v) s =
      .next (eachBelow 16 (fun l u => laneSwitched l (bitOf (reg s 0x80004) l) u) (storeFields 0x80004 v s))) ∧
  (∀ (s : State) (v : Word) (off : BitVec 20) (runs : Bool), s.phase = .running →
    (off = 0x70020 ∧ runs = s.tim.tsqEn) ∨ (off = 0xB0010 ∧ runs = s.mon.trEn) →
    (bitOf v 0 = true → runs = false → exec (.registerWrite ⟨off, false⟩ 4 v) s = .next s) ∧
    (bitOf v 0 = false ∨ runs = true → refusal s off.toNat 4 v = none →
      exec (.registerWrite ⟨off, false⟩ 4 v) s = .next (writeEffect off.toNat v (storeFields off.toNat v s))) ∧
    (∀ k, bitOf v 0 = false ∨ runs = true → refusal s off.toNat 4 v = some k →
      exec (.registerWrite ⟨off, false⟩ 4 v) s = .next (refuseWrite off.toNat k s))) ∧
  (∀ s t : State, s.phase = .running →
    t = { setReg 0x40 0 s with hif := { s.hif with refused := { s.hif.refused with sticky := false, count := 0 } } } →
    exec .refusedWriteClear s = .next t ∧ t.hif.refused.offset = s.hif.refused.offset ∧
    t.hif.refused.cause = s.hif.refused.cause ∧ (∀ off, off ≠ 0x40 → reg t off = reg s off)) ∧
  (∀ (s : State) (off : BitVec 20) (width : Nat) (v : Word), s.phase ≠ .running →
    exec (.registerWrite ⟨off, false⟩ width v) s = .next s ∧ exec (.registerWrite ⟨off, true⟩ width v) s = .next s) ∧
  (∀ (s : State) (off : Nat), s.phase ≠ .running → readWord s off = 0)

/-- STAT_COUNTER_LOW_READ: a read of a counter's low word gives bits [31:0] and latches bits [47:32], which the high word then
reads as however the counter counts on (R116). A read that is of no counter's low word latches nothing; in reset it gives 0. -/
def Obligations.CounterRead : Prop :=
  (∀ (s t : State) (off : BitVec 20), s.phase = .running → isCtr off.toNat = true → off.toNat % 8 = 0 →
    t = { s with latches := tset s.latches 0 off.toNat (ctrHigh (getCtr s off.toNat)),
                 hif := { s.hif with readData := ctrLow (getCtr s off.toNat) } } →
    exec (.statCounterLowRead off) s = .next t ∧ readWord s off.toNat = t.hif.readData ∧
    ∀ n, readWord (addCtr off.toNat n t) (off.toNat + 4) = (ctrHigh (getCtr s off.toNat)).setWidth 32) ∧
  (∀ (s : State) (off : BitVec 20), s.phase = .running → isCtr off.toNat = false ∨ off.toNat % 8 ≠ 0 →
    exec (.statCounterLowRead off) s = .next s) ∧
  (∀ (s : State) (off : BitVec 20), s.phase ≠ .running →
    exec (.statCounterLowRead off) s = .next { s with hif := { s.hif with readData := 0 } })

/-- The windows whose every access moves the address on, with the whole state that each leaves: IND_DATA_READ and IND_DATA_WRITE
of hash indirection entries (R135, R139), ROUTE_DATA_READ and ROUTE_DATA_WRITE (R245, R259), REPAIR_DATA_READ of the flow repair
map (R209); and REC_SEL_WRITE, the snapshot of a terminal record's ranging words (R186). A route whose default port is not in
its mask is refused (R245, R337). In reset a read gives 0 and a write does nothing (R28). -/
def Obligations.AddressedWindows : Prop :=
  (∀ s t : State, s.phase = .running →
    t = setReg 0x30A00 (wordOf ((indAddr s + 1) % 32768))
      { s with hif := { s.hif with readData := tget s.cls.ind (indAddr s) 0 } } →
    exec .indDataRead s = .next t ∧ indAddr t = (indAddr s + 1) % 32768 ∧ t.cls = s.cls ∧
    t.hif.readData = tget s.cls.ind (indAddr s) 0 ∧ (∀ off, off ≠ 0x30A00 → reg t off = reg s off)) ∧
  (∀ (s u t : State) (v : Word), s.phase = .running → u = setReg 0x30A04 0 (storeFields 0x30A04 v s) →
    t = setReg 0x30A00 (wordOf ((indAddr s + 1) % 32768)) (u.modCls fun c => unflag 9 (16 + indAddr s) 1
      { c with ind := tset c.ind 0 (indAddr s) (wordOf (bitsOf v 0 10 + ofBit (bitOf v 31) * 2147483648)) }) →
    exec (.indDataWrite v) s = .next t ∧
    tget t.cls.ind (indAddr s) 0 = wordOf (bitsOf v 0 10 + ofBit (bitOf v 31) * 2147483648) ∧
    (∀ i, i ≠ indAddr s → tget t.cls.ind i 0 = tget s.cls.ind i 0) ∧ indAddr t = (indAddr s + 1) % 32768 ∧
    t.cls.em = s.cls.em ∧ (∀ off, off ≠ 0x30A00 → off ≠ 0x30A04 → reg t off = reg s off)) ∧
  (∀ (s t : State) (v : Word), s.phase = .running →
    t = { setReg 0x50010 (wordOf (bitsOf v 0 15)) s with
          rng := { s.rng with recData := rangeWords (getRec s (bitsOf v 0 15)) } } →
    exec (.recSelWrite v) s = .next t ∧ reg t 0x50010 = wordOf (bitsOf v 0 15) ∧
    (∀ off, off ≠ 0x50010 → reg t off = reg s off)) ∧
  (∀ s t : State, s.phase = .running →
    t = setReg 0x80200 (wordOf ((routeAddr s + 1) % 16384))
      { s with hif := { s.hif with readData := routeOf s (routeAddr s) } } →
    exec .routeDataRead s = .next t ∧ routeAddr t = (routeAddr s + 1) % 16384 ∧ t.lnk = s.lnk ∧
    t.hif.readData = routeOf s (routeAddr s) ∧ (∀ off, off ≠ 0x80200 → reg t off = reg s off)) ∧
  (∀ (s u t : State) (v : Word), s.phase = .running → bitOf v (bitsOf v 4 2) = true →
    u = setReg 0x80204 0 (storeFields 0x80204 v s) →
    t = setReg 0x80200 (wordOf ((routeAddr s + 1) % 16384))
      { u with lnk := { s.lnk with routes := tset s.lnk.routes 0 (routeAddr s) (routeKeep v) },
               cls := unflag 12 (routeAddr s) 1 s.cls } →
    exec (.routeDataWrite v) s = .next t ∧ routeOf t (routeAddr s) = routeKeep v ∧
    (∀ d, d ≠ routeAddr s → routeOf t d = routeOf s d) ∧ routeAddr t = (routeAddr s + 1) % 16384 ∧
    (∀ off, off ≠ 0x80200 → off ≠ 0x80204 → reg t off = reg s off)) ∧
  (∀ (s : State) (v : Word), s.phase = .running → bitOf v (bitsOf v 4 2) = false →
    exec (.routeDataWrite v) s = .next (refuseWrite 0x80204 3 s)) ∧
  (∀ s t : State, s.phase = .running →
    t = setReg 0x60030 (wordOf ((repairAddr s + 1) % 16384))
      { s with hif := { s.hif with readData := repairWord s (repairAddr s) } } →
    exec .repairDataRead s = .next t ∧ repairAddr t = (repairAddr s + 1) % 16384 ∧ t.pgr = s.pgr ∧
    t.hif.readData = repairWord s (repairAddr s) ∧ (∀ off, off ≠ 0x60030 → reg t off = reg s off)) ∧
  (∀ (s z : State) (v : Word), s.phase ≠ .running → z = { s with hif := { s.hif with readData := 0 } } →
    exec .indDataRead s = .next z ∧ exec .routeDataRead s = .next z ∧ exec .repairDataRead s = .next z ∧
    exec (.indDataWrite v) s = .next s ∧ exec (.recSelWrite v) s = .next s ∧ exec (.routeDataWrite v) s = .next s)

/-! Rings, doorbells and polls. -/

/-- DOORBELL and DOORBELL_SERVICE. A write of any width at any byte of a queue's 8 bytes sets its pending bit, and one for an
unassigned or not created queue is counted and reported; a read gives 0; a set bit of an active queue is cleared and then its
index area is read, also while an earlier index read is outstanding (R29, R69). -/
def Obligations.Doorbells : Prop :=
  (∀ (s : State) (b : BellWrite), s.phase = .running → qType (b.off.toNat / 8) ≠ 7 →
    (getQueue s (b.off.toNat / 8)).st ≠ .notCreated →
    exec (.doorbell b) s = .next (modQueue (b.off.toNat / 8) (fun Q => { Q with bell := true }) s)) ∧
  (∀ (s : State) (b : BellWrite), s.phase = .running →
    qType (b.off.toNat / 8) = 7 ∨ (getQueue s (b.off.toNat / 8)).st = .notCreated →
    exec (.doorbell b) s = .next (raise 0x120 (wordOf (b.off.toNat / 8)) 0 (addCtr (hifCtr 0) 1 s))) ∧
  (∀ (s : State) (b : BellWrite), s.phase ≠ .running → exec (.doorbell b) s = .next s) ∧
  (∀ off, bellRead off = 0) ∧
  (∀ (s : State) (q : Fin 8192), s.phase = .running → (getQueue s q).bell = true → (getQueue s q).st = .active →
    exec (.doorbellService q) s = .next (fabRead (.index q) (getQueue s q).cfg.indexAddr 8
      (perf 0 1 (modQueue q (fun Q => { Q with bell := false }) s)))) ∧
  (∀ (s : State) (q : Fin 8192), s.phase = .running → (getQueue s q).bell = false ∨ (getQueue s q).st ≠ .active →
    exec (.doorbellService q) s = .next s)

/-- Polls (R71, R72): one of an active queue with an interval that is neither fetching nor being polled reads the entry at
F, or for a ring its index area; a late one is counted, and reported once an episode. A found tag marks the queue as one
with an entry at F; a ring's CI is taken. No other queue is polled. -/
def Obligations.Polling : Prop :=
  (∀ (s : State) (q : Fin 8192), s.phase = .running → (getQueue s q).st = .active → (getQueue s q).cfg.pollIvl ≠ 0 →
    fetching s q = false → asked s (.poll q) = false → exec (.poll q false) s =
      .next (fabRead (.poll q)
        (if qType q < 3 then slotAddr (getQueue s q).cfg (entryBytes q) (getQueue s q).f / 64 * 64
         else (getQueue s q).cfg.indexAddr) 8 (perf 1 1 s))) ∧
  (∀ (s : State) (q : Fin 8192) (late : Bool), s.phase = .running →
    (getQueue s q).st ≠ .active ∨ (getQueue s q).cfg.pollIvl = 0 ∨ fetching s q = true ∨ asked s (.poll q) = true →
    exec (.poll q late) s = .next s) ∧
  (∀ (s u : State) (q : Fin 8192) (tag : BitVec 16) (ci : Word), s.phase = .running → reading s (.poll q) = true →
    u = returnReads (fun x => x = .poll q) s →
    (qType q < 3 → (getQueue u q).st = .active → tag.toNat = tagOf (getQueue u q).cfg.log2 (getQueue u q).f →
      gap (getQueue u q).f (getQueue u q).ci < ringSize (getQueue u q).cfg →
      exec (.pollResponse q tag ci) s = .next (modQueue q (fun Q => { Q with pollFound := true }) u)) ∧
    (3 ≤ qType q → exec (.pollResponse q tag ci) s = .next (takeCi q ci u))) ∧
  (∀ s : State, exec .pollOverrunEpisodeEnd s = .next { s with hif := { s.hif with pollEp := false } })

/-- Index reads (R66, R69, R92, R93): the oldest one of a queue returns, whatever newer one is outstanding; a producer index in
range is taken, where what polling has read ahead and not yet found valid does not count as fetched (R71); one out of range
stops the queue with EV_INDEX_INVALID; a ring's consumer index frees its space. The block's own index word goes out at once for
entries that the block consumes, and for a ring once every entry that it reports is acknowledged (R24, R65, R68). -/
def Obligations.Indices : Prop :=
  (∀ (s u : State) (q : Fin 8192) (pi ci : Word), s.phase = .running → (s.fab.reads.any fun r => r.use = .index q) = true →
    u = returnFirst (.index q) s → (getQueue u q).st = .active →
    (qType q < 3 → gap pi (getQueue u q).ci ≤ ringSize (getQueue u q).cfg →
      gap (firmF u q) (getQueue u q).ci ≤ gap pi (getQueue u q).ci →
      exec (.indexReadResponse q pi ci) s = .next (modQueue q (fun Q => { Q with pi := pi }) u)) ∧
    (qType q < 3 → ringSize (getQueue u q).cfg < gap pi (getQueue u q).ci ∨
        gap pi (getQueue u q).ci < gap (firmF u q) (getQueue u q).ci →
      exec (.indexReadResponse q pi ci) s = .next (raise 0x130 (wordOf q) pi (stopQueue q u))) ∧
    (3 ≤ qType q → ringSize (getQueue u q).cfg < gap (getQueue u q).pi ci →
      exec (.indexReadResponse q pi ci) s = .next (raise 0x130 (wordOf q) ci (stopQueue q u))) ∧
    (qType q = 3 → gap (getQueue u q).pi ci ≤ ringSize (getQueue u q).cfg →
      exec (.indexReadResponse q pi ci) s =
        .next (endEpisode q (drainPend (getQueue u q).pend.length q (modQueue q (fun Q => { Q with ci := ci }) u)))) ∧
    (3 < qType q → gap (getQueue u q).pi ci ≤ ringSize (getQueue u q).cfg →
      exec (.indexReadResponse q pi ci) s =
        .next (withHalves (drainEvents 66 q) (modQueue q (fun Q => { Q with ci := ci }) u)))) ∧
  (∀ (s : State) (q : Fin 8192), s.phase = .running → exec (.indexWriteTimer q) s = .next (withHalves (indexOut q) s)) ∧
  (∀ (s : State) (q : Fin 8192), (getQueue s q).unreported ≠ 0 →
    (qType q < 3 → indexOut q s = modQueue q (fun Q => { Q with unreported := 0 }) (indexWrite q (getQueue s q).ci s)) ∧
    (3 ≤ qType q → (getQueue s q).idxAt = none → ringBack s q = 0 →
      ∃ u, indexOut q s = modQueue q (fun Q => { Q with idxAt := none, unreported := 0 }) (indexWrite q (getQueue s q).pi u) ∧
        u = modQueue q (fun Q => { Q with idxAt := some (getQueue s q).pi }) s) ∧
    (3 ≤ qType q → (getQueue s q).idxAt = none → ringBack s q ≠ 0 →
      indexOut q s = modQueue q (fun Q => { Q with idxAt := some (getQueue s q).pi }) s))

/-- The tag of a fetched entry (R67, R73): the right one is taken; a wrong one of an entry that the producer index covers waits
1 µs for a second reading, a fabric read of its own, and if that is wrong too the queue stops with F at it and EV_SEQ_TAG_MISMATCH; one
found by polling alone is given back. TX_DESCRIPTOR_ARRIVE, ADMIN_DESCRIPTOR_ARRIVE and SEQ_TAG_RETRY. -/
def Obligations.SequenceTags : Prop :=
  (∀ (s u : State) (q : Fin 4096) (idx : Word) (ws : List Word), s.phase = .running → nextEntry s q = some idx →
    u = takeEntry q idx s →
    (dTag ws = tagOf (getQueue s q).cfg.log2 idx → exec (.txDescriptorArrive q idx ws) s = .next (txArrive q idx ws u)) ∧
    (dTag ws ≠ tagOf (getQueue s q).cfg.log2 idx → beforePi (getQueue s q) idx = true →
      exec (.txDescriptorArrive q idx ws) s = .next (modQueue q (fun Q => { Q with tagRetry := some idx }) u)) ∧
    (dTag ws ≠ tagOf (getQueue s q).cfg.log2 idx → beforePi (getQueue s q) idx = false →
      exec (.txDescriptorArrive q idx ws) s = .next (drainDone q (issueIndex q (rewind q idx u))))) ∧
  (∀ (s u : State) (q : Fin 64) (idx : Word) (ws : List Word), s.phase = .running →
    nextEntry s (5120 + q) = some idx → u = takeEntry (5120 + q) idx s →
    (dTag ws = tagOf (getQueue s (5120 + q)).cfg.log2 idx →
      exec (.adminDescriptorArrive q idx ws) s = .next (admArrive (5120 + q) idx ws u)) ∧
    (dTag ws ≠ tagOf (getQueue s (5120 + q)).cfg.log2 idx → beforePi (getQueue s (5120 + q)) idx = true →
      exec (.adminDescriptorArrive q idx ws) s = .next (modQueue (5120 + q) (fun Q => { Q with tagRetry := some idx }) u)) ∧
    (dTag ws ≠ tagOf (getQueue s (5120 + q)).cfg.log2 idx → beforePi (getQueue s (5120 + q)) idx = false →
      exec (.adminDescriptorArrive q idx ws) s =
        .next (drainDone (5120 + q) (issueIndex (5120 + q) (rewind (5120 + q) idx u))))) ∧
  (∀ (s : State) (q : Fin 8192) (idx : Word), s.phase = .running → (getQueue s q).tagRetry = some idx →
    (readsOf s fun u => u = entryUse q [idx]) = [] →
    exec (.seqTagRetry q none) s = .next (readEntries q (entryUse q) [idx] s)) ∧
  (∀ (s u : State) (q : Fin 8192) (idx : Word) (ws : List Word), s.phase = .running →
    (getQueue s q).tagRetry = some idx → reading s (entryUse q [idx]) = true →
    u = modQueue q (fun Q => { Q with tagRetry := none }) (takeEntry q idx s) →
    (dTag ws = tagOf (getQueue u q).cfg.log2 idx → exec (.seqTagRetry q (some ws)) s =
      .next (if q.val < 4096 then txArrive q idx ws u else if q.val < 5120 then bufArrive q idx ws u
        else admArrive q idx ws u)) ∧
    (dTag ws ≠ tagOf (getQueue u q).cfg.log2 idx → exec (.seqTagRetry q (some ws)) s =
      .next (drainDone q (raise 0x131 (wordOf (q + dTag ws * 65536)) idx (stopQueue q (rewind q idx u))))))

/-- The round robins (R74–R76): no transmit visit while an admin queue can be served; else the next queue with work at or
after the pointer is visited, which passes it. A visit takes entries one after another from F, no more than `BURST`. -/
def Obligations.RoundRobins : Prop :=
  (∀ s : State, s.phase = .running → adminFirst s = true → exec .txFetch s = .next s) ∧
  (∀ (s : State) (q : Nat), s.phase = .running → adminFirst s = false → nextQueue s 0 4096 s.hif.txPtr = some q →
    exec .txFetch s = .next (visit q { s with hif := { s.hif with txPtr := q + 1 } })) ∧
  (∀ (s : State) (q : Nat), s.phase = .running → nextQueue s 5120 5184 s.hif.admPtr = some q →
    exec .adminFetch s = .next (visit q { s with hif := { s.hif with admPtr := q + 1 } })) ∧
  (∀ (s : State) (q n : Nat), ∃ k ≤ n,
    (visitLoop n q [] s).2.1 = (List.range k).map (fun i => (getQueue s q).f + BitVec.ofNat 32 i) ∧
    (getQueue (visitLoop n q [] s).1 q).f = (getQueue s q).f + BitVec.ofNat 32 k ∧
    (∀ p, p ≠ q → getQueue (visitLoop n q [] s).1 p = getQueue s p) ∧
    (visitLoop n q [] s).1.fab = s.fab)

/-! The transmit path. -/

/-- The transmit path up to classification: SEGMENT_LIST_ARRIVE, CELL_RESERVE, LAUNCH_READ_START, LAUNCH_TIME_REACHED and
PAYLOAD_READ_DONE. A segment list in order gives its descriptor its segments and its length, and its
turn; one out of order ends it with BAD_FIELD (R78). The first waiting descriptor whose port can take its cells takes them all
and its payload read goes out; one that waits for its launch time joins the wait for cells at its read's start; at its launch
time its frame may enter its queue, and a park slot that it held is free for the next (R80, R82, R106). A whole payload with a wrong check value ends the descriptor with
CHECK_MISMATCH, counted and reported; else it goes to classification behind the port's earlier ones, and is padded below 60
bytes, which is counted (R79, R114). -/
def Obligations.TransmitPath : Prop :=
  (∀ (s : State) (q : Fin 4096) (idx : Word) (ws : List Word) (t : Tx), s.phase = .running →
    reading s (.segList q idx) = true → findTx s q idx = some t →
    let u := returnReads (fun x => x = .segList q idx) s
    let ent := (List.range (txNseg t.ws)).map fun i =>
      ((wAt ws (4 * i)).toNat + bitsOf (wAt ws (4 * i + 1)) 0 20 * 4294967296, bitsOf (wAt ws (4 * i + 2)) 0 16)
    let len := ent.foldl (fun a e => a + e.2) 0
    ((∀ i < txNseg t.ws, bitsOf (wAt ws (4 * i + 2)) 0 16 ≠ 0 ∧ bitsOf (wAt ws (4 * i + 1)) 20 12 = 0) →
      exec (.segmentListArrive q idx ws) s =
        .next (settleTx (modTx q idx (fun t => { t with segs := ent, len := len, stage := .cached }) u))) ∧
    ((∃ i < txNseg t.ws, bitsOf (wAt ws (4 * i + 2)) 0 16 = 0 ∨ bitsOf (wAt ws (4 * i + 1)) 20 12 ≠ 0) →
      exec (.segmentListArrive q idx ws) s = .next (txDone q idx 4 255 (modTx q idx (fun t => { t with len := len }) u)))) ∧
  ((∀ (s : State) (q : Nat) (idx : Word), s.phase = .running → cellTaker s = some (q, idx) →
    exec .cellReserve s = .next (settleTx (tryReserve q idx s))) ∧
  (∀ (s : State), s.phase = .running → cellTaker s = none → exec .cellReserve s = .next s) ∧
  (∀ (s : State) (q : Fin 4096) (idx : Word) (t : Tx), s.phase = .running → findTx s q idx = some t → t.stage = .launch →
    exec (.launchReadStart q idx) s = .next (settleTx (tryReserve q idx
      ((modTx q idx (fun t => { t with stage := .cells }) s).modHif fun h =>
        { h with cellWait := h.cellWait ++ [(q.val, idx)] })))) ∧
  (∀ (s u : State) (q : Fin 4096) (idx : Word) (t : Tx), s.phase = .running → findTx s q idx = some t →
    t.launched = false → t.stage.over = false → t.stage ≠ .fetching →
    u = modTx q idx (fun t => { t with launched := true, hasPark := if t.stage = .parked then t.hasPark else false }) s →
    exec (.launchTimeReached q idx) s = .next (settleTx (if t.stage = .launch then launchRead q idx u else u))) ∧
  (∀ (s : State) (q p : Nat) (idx : Word) (t : Tx) (pool : Nat), cellTaker s = some (q, idx) → findTx s q idx = some t →
    dsTake s t.port (cellsOf (txFrameLen t)) = some pool →
    (getPort (tryReserve q idx s) t.port).dsCells = (getPort s t.port).dsCells + cellsOf (txFrameLen t) ∧
    (getPort s t.port).dsCells + cellsOf (txFrameLen t) ≤ 8192 ∧
    (p ≠ t.port → getPort (tryReserve q idx s) p = getPort s p)) ∧
  (∀ (s : State) (q : Nat) (idx : Word), cellTaker s ≠ some (q, idx) → tryReserve q idx s = s)) ∧
  (∀ (s u : State) (q : Fin 4096) (idx : Word) (bytes : List Byte) (t : Tx), s.phase = .running →
    findTx s q idx = some t → t.stage = .reading → bytes.length = t.len →
    u = modTx q idx (fun t' => { t' with check := checkValue (txPoly t.ws) bytes })
      (returnReads (fun x => x = .payload q idx) s) →
    (txPoly t.ws ≠ 0 → checkValue (txPoly t.ws) bytes ≠ txExpect t.ws → exec (.payloadReadDone q idx bytes) s =
      .next (txDone q idx 8 15 (raise 0x151 (wordOf q) (dReqId t.ws) (stat t.port 15 1 u)))) ∧
    (txPoly t.ws = 0 ∨ checkValue (txPoly t.ws) bytes = txExpect t.ws → exec (.payloadReadDone q idx bytes) s =
      .next (modPort t.port (fun P => { P with dsDisp := P.dsDisp ++ [(q.val, idx)] })
        (modTx q idx (fun t => { t with payload := bytes, stage := .classify, padded := decide (bytes.length < 60) })
          (if bytes.length < 60 then stat t.port 4 1 u else u)))))

/-! Classification, hand-off and completions. -/

/-- FRAME_DISPATCH and CLASSIFY_DONE (R121, R122, R136): nothing enters an engine during a commit's hold or while every engine is
taken; upstream frames go first, each direction's ports in turn; a frame that enters takes its start results and parse depth
with it, and wakes the classifier (R304). A frame in an engine, first of its port's direction, leaves it with the parse's results
(R127–R129). -/
def Obligations.DispatchAndClassify : Prop :=
  (∀ (s : State) (p : Fin 64) (up : Bool), s.phase = .running → s.cls.hold.isSome = true ∨ 1280 ≤ engineUse s →
    exec (.frameDispatch p up) s = .next s) ∧
  (∀ (s : State) (p : Fin 64) (u : Us), s.phase = .running → s.cls.hold = none → engineUse s < 1280 →
    rrNext s.cls.rrUs (usWaiting s) = some p.val →
    s.tpt.us.find? (fun u => u.port = p.val && u.stage = .dispatch) = some u →
    exec (.frameDispatch p true) s =
      .next (modUs u.id (usLatch s) ((access 209 s).modCls fun c => { c with rrUs := (p.val + 1) % 64 }))) ∧
  (∀ (s : State) (p : Fin 64) (t : Tx), s.phase = .running → s.cls.hold = none → engineUse s < 1280 →
    (∀ n < 64, usWaiting s n = false) → rrNext s.cls.rrDs (fun n => (dsWaitHead s n).isSome) = some p.val →
    dsWaitHead s p = some t → exec (.frameDispatch p false) s =
      .next (modTx t.q t.idx (dsLatch s) ((access 209 s).modCls fun c => { c with rrDs := (p.val + 1) % 64 }))) ∧
  (∀ (s : State) (p : Fin 64), rrNext s.cls.rrUs (usWaiting s) ≠ some p.val →
    exec (.frameDispatch p true) s = .next s) ∧
  (∀ (s : State) (p : Fin 64), rrNext s.cls.rrDs (fun n => (dsWaitHead s n).isSome) ≠ some p.val →
    exec (.frameDispatch p false) s = .next s) ∧
  (∀ (s : State) (p : Fin 64) (u : Us), s.phase = .running →
    s.tpt.us.find? (fun u => u.port = p.val && (u.stage = .dispatch || u.stage = .engine)) = some u →
    (u.stage = .engine → exec (.classifyDone p true) s = .next (usClassified u s)) ∧
    (u.stage ≠ .engine → exec (.classifyDone p true) s = .next s)) ∧
  (∀ (s : State) (p : Fin 64) (q : Nat) (idx : Word) (t : Tx), s.phase = .running →
    (getPort s p).dsDisp.head? = some (q, idx) → findTx s q idx = some t →
    (t.stage = .engine → exec (.classifyDone p false) s = .next (dsClassified p t s)) ∧
    (t.stage ≠ .engine → exec (.classifyDone p false) s = .next s))

/-- FRAME_HANDOFF (R31, R107, R188, R205): the port's tree gives its first frame of the highest priority, whose first beat is
counted; the side-band values are its context's counter and key index, or 0 for a clear flow or a control frame; the counter
then advances by one. A frame whose context was lost meanwhile ends with CHECK (R204); a parity error at the crossing marks it
and is reported (R46), one on an internal bus ends it (R293); with no frame to give, nothing happens. -/
def Obligations.Handoff : Prop :=
  let left := fun (d : DsItem) (s : State) =>
    ({ s with tpt := { s.tpt with dsq := dropFirst (fun e => e = d) s.tpt.dsq } } : State)
  let counted := fun (p : Nat) (d : DsItem) (s : State) =>
    stat p (5 + sizeBucket d.bytes.length) 1 (perf (257 + 4 * p) 1 (perf (256 + 4 * p) (min beatBytes d.bytes.length)
      (left d s)))
  let stamp := fun (p : Nat) (sub : Fin 16) (s : State) =>
    shortStamp (captured s sub (reg s (0x10060 + p * 0x400)).toInt)
  (∀ (s : State) (p : Fin 64) (sub : Fin 16) (poison : Fin 3) (t : Nat) (d : DsItem), s.phase = .running →
    treeOn s p = some t → handable s p t = true → nextDown s t = some d → d.src = none →
    (poison ≠ 2 → exec (.frameHandoff p sub poison) s = .next (parityError poison 0 p (modPort p (fun P => { P with
        xfer := some { item := d, nonce := 0, keyIdx := 0, clear := true, stamp := stamp p sub (left d s),
                       poisoned := decide (poison = 1) } }) (counted p d s)))) ∧
    (poison = 2 → exec (.frameHandoff p sub poison) s =
      .next (freeDs p d.cells d.poolCells (stat p 13 1 (busParity (left d s)))))) ∧
  (∀ (s u : State) (p : Fin 64) (sub : Fin 16) (poison : Fin 3) (t q : Nat) (idx : Word) (d : DsItem) (x y : Tx) (i : Nat),
    s.phase = .running → treeOn s p = some t → handable s p t = true → nextDown s t = some d → d.src = some (q, idx) →
    findTx s q idx = some x → slotOfFlow s (txFlow x.ws) = some i → poison ≠ 2 →
    u = modPort p (fun P => { P with
      xfer := some {
        item := d, nonce := if (getSlot s i).ctx.clear then 0 else (getSlot s i).ctx.nonce,
        keyIdx := if (getSlot s i).ctx.clear then 0 else (getSlot s i).ctx.keyIndex,
        clear := (getSlot s i).ctx.clear, stamp := stamp p sub (left d s), poisoned := decide (poison = 1) } })
      (counted p d s) →
    findTx u q idx = some y →
    exec (.frameHandoff p sub poison) s =
      .next (parityError poison 0 p (takeNonce y d.bytes.length (stampTx y p sub u)))) ∧
  (∀ (s : State) (p : Fin 64) (sub : Fin 16) (t q : Nat) (idx : Word) (d : DsItem) (x : Tx) (i : Nat),
    s.phase = .running → treeOn s p = some t → handable s p t = true → nextDown s t = some d → d.src = some (q, idx) →
    findTx s q idx = some x → slotOfFlow s (txFlow x.ws) = some i →
    exec (.frameHandoff p sub 2) s = .next (txDone q idx 7 13 (stat p 13 1 (busParity (left d s))))) ∧
  (∀ (s : State) (p : Fin 64) (sub : Fin 16) (poison : Fin 3) (t q : Nat) (idx : Word) (d : DsItem) (x : Tx),
    s.phase = .running → treeOn s p = some t → handable s p t = true → nextDown s t = some d → d.src = some (q, idx) →
    findTx s q idx = some x → slotOfFlow s (txFlow x.ws) = none →
    exec (.frameHandoff p sub poison) s = .next (txDone q idx 0x0A 255 (left d s))) ∧
  (∀ (s : State) (p : Fin 64) (sub : Fin 16) (poison : Fin 3),
    (∀ t, treeOn s p = some t → handable s p t = false ∨ nextDown s t = none) →
    exec (.frameHandoff p sub poison) s = .next s) ∧
  (∀ (s : State) (x : Tx) (len i : Nat), (getFlow s (txFlow x.ws)).slot = some i → (getSlot s i).ctx.clear = false →
    (getSlot s i).ctx.nonce + 1 < nonceEnd - 1048575 →
    (getSlot (takeNonce x len s) i).ctx.nonce = (getSlot s i).ctx.nonce + 1 ∧
    (getSlot (takeNonce x len s) i).ctx.keyIndex = (getSlot s i).ctx.keyIndex)

/-- DS_FRAME_END, the end of a downstream frame (R24, R54, R107, R117): a whole frame counts in its port's statistics, a
truncated one as such, and leaves with its sent bytes and the inverse of their FCS; a control frame's cell returns; a descriptor
ends OK, or TRUNCATED, at once, or once its stamp entry is acknowledged; a port with no frame in transfer is left as it is. -/
def Obligations.DownstreamFrameEnd : Prop :=
  let cut := fun x : Xfer => x.poisoned || x.truncated
  let counted := fun (p sent : Nat) (x : Xfer) (s : State) =>
    let out := if cut x then cutBytes x.item.bytes sent else x.item.bytes
    let s := perf (256 + 4 * p) (out.length - min beatBytes x.item.bytes.length)
      (modPort p (fun P => { P with xfer := none, lastOut := out }) s)
    if cut x then stat p 12 1 s
    else
      let s := stat p 1 x.item.bytes.length (stat p 0 1 s)
      if isBroadcast x.item.bytes then stat p 3 1 s else if isMulticast x.item.bytes then stat p 2 1 s else s
  (∀ (s : State) (p : Fin 64) (sent : Nat) (x : Xfer), s.phase = .running ∨ s.phase = .quiesce →
    (getPort s p).xfer = some x → x.item.src = none → exec (.dsFrameEnd ⟨p, sent⟩) s =
      .next (if cut x = true then freeDs p x.item.cells x.item.poolCells (counted p sent x s)
        else addCtr (rngCtr x.item.tree 10) 1 (freeDs p x.item.cells x.item.poolCells (counted p sent x s)))) ∧
  (∀ (s : State) (p : Fin 64) (sent : Nat) (x : Xfer) (q : Nat) (idx : Word) (t : Tx),
    s.phase = .running ∨ s.phase = .quiesce → (getPort s p).xfer = some x → x.item.src = some (q, idx) →
    findTx (counted p sent x s) q idx = some t →
    (t.tsWait = false → exec (.dsFrameEnd ⟨p, sent⟩) s =
      .next (txDone q idx (if cut x = true then 0x0F else 0) (if cut x = true then 12 else 0) (counted p sent x s))) ∧
    (t.tsWait = true → exec (.dsFrameEnd ⟨p, sent⟩) s =
      .next (modTx q idx (fun t => { t with
          stage := .stampWait, status := if cut x = true then 0x0F else 0, cells := 0, poolCells := 0 })
        (freeDs t.port t.cells t.poolCells (counted p sent x s))))) ∧
  (∀ (s : State) (p : Fin 64) (sent : Nat), (getPort s p).xfer = none → exec (.dsFrameEnd ⟨p, sent⟩) s = .next s) ∧
  (∀ (bs : List Byte) (sent : Nat), 68 ≤ bs.length → 64 ≤ sent → sent ≤ bs.length - 4 →
    cutBytes bs sent = bs.take sent ++ wordBytes (~~~ wordOf (crc32 (bs.take sent))))

/-- Completions (R85, R89, R90): a ready completion goes into its active ring while that has space and none is pending; else it
becomes pending, and the 32nd pending one starts the ring's episode. A ring with pending or held entries has its index area
read (R91). -/
def Obligations.CompletionRings : Prop :=
  (∀ (s : State) (r : Fin 1024) (c : Cpl) (rest : List Cpl), s.phase = .running ∨ s.phase = .quiesce →
    (getQueue s (6144 + r)).st = .active → hasSpace (getQueue s (6144 + r)) = true → (getQueue s (6144 + r)).pend = [] →
    (getQueue s (6144 + r)).ready = c :: rest → exec (.completionWrite r) s =
      .next (writeCpl (6144 + r) c (modQueue (6144 + r) (fun Q => { Q with ready := rest }) s))) ∧
  (∀ (s : State) (r : Fin 1024) (c : Cpl) (rest : List Cpl), s.phase = .running ∨ s.phase = .quiesce →
    (getQueue s (6144 + r)).st ≠ .active ∨ hasSpace (getQueue s (6144 + r)) = false →
    (getQueue s (6144 + r)).ready = c :: rest →
    let u := modQueue (6144 + r) (fun Q => { Q with pend := Q.pend ++ [c] })
      (modQueue (6144 + r) (fun Q => { Q with ready := rest }) s)
    exec (.completionWrite r) s = .next (if (getQueue s (6144 + r)).pend.length < 31 then u else startEpisode (6144 + r) u)) ∧
  (∀ (s : State) (q : Fin 8192), s.phase = .running → (getQueue s q).st = .active →
    (getQueue s q).pend ≠ [] ∨ (getQueue s q).hold ≠ [] → asked s (.index q) = false →
    exec (.cqRecoveryRead q) s = .next (fabRead (.index q) (getQueue s q).cfg.indexAddr 8 s))

/-- Interrupts: while a vector's message is unacknowledged no second one is sent; sources that fire then are merged into the
next, which goes out at the acknowledgement, so that none is lost (R30). A running timer with entries counted sends one, and a sent
message clears the count (parts of R290). -/
def Obligations.InterruptMessages : Prop :=
  (∀ (s : State) (v : Nat), (getVec s v).unacked = true →
    sendVector v s = modVec v (fun V => { V with due := true }) s ∧ (getVec (sendVector v s) v).due = true ∧
    getCtr (sendVector v s) (errCtr 9) = getCtr s (errCtr 9) ∧ (sendVector v s).err.fired = s.err.fired) ∧
  (∀ (s : State) (v : Fin 64), (getVec s v).unacked = true → (getVec s v).due = true → ∃ t,
    exec (.interruptAck v) s = .next t ∧ (getVec t v).unacked = true ∧ (getVec t v).due = false ∧
    getCtr t (errCtr 9) = getCtr s (errCtr 9) + 1 ∧ t.err.fired.getLsbD v = true ∧
    (∀ w, w ≠ v.val → getVec t w = getVec s w)) ∧
  (∀ (s : State) (v : Fin 64), (getVec s v).unacked = true → (getVec s v).due = false →
    exec (.interruptAck v) s = .next (modVec v (fun V => { V with unacked := false, due := false }) s)) ∧
  (∀ (s : State) (v : Fin 64), (getVec s v).timer = true → 0 < (getVec s v).count →
    exec (.vectorTimer v) s = .next (sendVector v s)) ∧
  (∀ (s : State) (v : Fin 64), (getVec s v).timer = false → exec (.vectorTimer v) s = .next s) ∧
  (∀ (s : State) (v : Nat), (getVec s v).unacked = false → (getVec (sendVector v s) v) = { unacked := true } ∧
    getCtr (sendVector v s) (errCtr 9) = getCtr s (errCtr 9) + 1)

/-- Reports (R279, R284). A code's bucket gains a token, up to 8; a code without a rate has none. A report of an event touches
nothing but the error unit, its counters, the event rings and the fabric: no time base, port, classifier, grant, ranging,
caddie, link or power state, no register, and no descriptor or command in flight. -/
def Obligations.ReportsTouchOnlyTheirPath : Prop :=
  (∀ (s : State) (c : Fin 4096), pbRate (pbEntry s c) ≠ 0 → exec (.rateTokenRefill c) s = .next
    { s with err := { s.err with tokens := tset s.err.tokens 8 c (min 8 (tget s.err.tokens c 8 + 1)) } }) ∧
  (∀ (s : State) (c : Fin 4096), pbRate (pbEntry s c) = 0 → exec (.rateTokenRefill c) s = .next s) ∧
  (∀ (s t : State) (c : Nat), takeToken c s = some t → pbRate (pbEntry s c) ≠ 0 →
    0 < tget s.err.tokens c 8 ∧ tget t.err.tokens c 8 = tget s.err.tokens c 8 - 1) ∧
  (∀ (code : Nat) (a0 a1 : Word) (s : State), let t := emit code a0 a1 s
    t.tim = s.tim ∧ t.tpt = s.tpt ∧ t.cls = s.cls ∧ t.gnt = s.gnt ∧ t.rng = s.rng ∧ t.pgr = s.pgr ∧ t.lnk = s.lnk ∧
    t.pwr = s.pwr ∧ t.mon = s.mon ∧ t.regs = s.regs ∧ t.phase = s.phase ∧ t.hif.tx = s.hif.tx ∧ t.hif.adm = s.hif.adm ∧
    t.fab.reads = s.fab.reads ∧ t.err.playbook = s.err.playbook ∧ t.err.vecs = s.err.vecs ∧
    (∀ q, qType q ≠ 4 → getQueue t q = getQueue s q))

/-! The fabric and the cipher engine. -/

/-- FABRIC_WRITE_ACK (R24, R68): an acknowledged write is no longer outstanding, and what waited for it goes on by its use; then a
completion or an event entry signals its vector and lets a due index word go; an acknowledgement of no write does nothing. -/
def Obligations.WriteAcknowledge : Prop :=
  (∀ (s : State) (id : Nat) (w : WrReq), s.phase = .running ∨ s.phase = .quiesce →
    (s.fab.writes.find? fun w => w.id = id) = some w →
    let u : State := { s with fab := { s.fab with writes := s.fab.writes.filter fun w => w.id ≠ id } }
    exec (.fabricWriteAck id) s = .next (writeAcked w u) ∧
    (∀ q, w.use = .index q → exec (.fabricWriteAck id) s = .next u) ∧
    (∀ q c, w.use = .cpl q c → exec (.fabricWriteAck id) s = .next (dueIndex q (signal q 0 u))) ∧
    (∀ q lev, w.use = .event q lev → exec (.fabricWriteAck id) s = .next (dueIndex q (signal q lev u))) ∧
    (∀ k, w.use = .rxData k → exec (.fabricWriteAck id) s = .next (rxWriteEnd k u)) ∧
    (∀ f, w.use = .ftable f → exec (.fabricWriteAck id) s = .next (settleMigIns (entryWritten f u)))) ∧
  (∀ (s : State) (id : Nat), (s.fab.writes.find? fun w => w.id = id) = none → exec (.fabricWriteAck id) s = .next s)

/-- FABRIC_ERROR_RESPONSE, FABRIC_TIMEOUT and LATE_RESPONSE (R25, R26): an error response or a time-out is reported with the
address and the use, and its use fails by its kind; a payload or segment list read ends its descriptor with FABRIC_ERROR; a
failed completion or event write goes out once more, and the second time its ring stops and the write is kept (log entry 182); a
read that timed out leaves its tag quarantined until its late response. A parity error at the fabric's crossing is reported with
the failure (R46), one on an internal bus too (R293). A cipher request that is held and
times out is reported, its tag is lost until the late result, and its page operation fails as for an error; one that is not
held cannot time out (R36); a late result frees the tag lost longest (the model's choice, assumption log 105). -/
def Obligations.FabricFailures : Prop :=
  let live := fun s : State => s.phase = .running ∨ s.phase = .quiesce
  (∀ (s : State) (id : Nat) (k : Fin 4) (r : RdReq), live s → (s.fab.reads.find? fun r => r.id = id) = some r →
    exec (.fabricErrorResponse ⟨false, k⟩ id) s =
      .next (readFailed r (addrEvent 0x110 r.addr r.use.code (fabParity k r.addr (endRead id s)))) ∧
    exec (.fabricTimeout false id) s =
      .next (readFailed r (quarantine id (addrEvent 0x112 r.addr r.use.code (endRead id s))))) ∧
  (∀ (s : State) (id : Nat) (k : Fin 4) (w : WrReq), live s → (s.fab.writes.find? fun w => w.id = id) = some w →
    exec (.fabricErrorResponse ⟨true, k⟩ id) s =
      .next (writeFailed w (addrEvent 0x111 w.addr w.use.code (fabParity k w.addr (endWrite id s)))) ∧
    exec (.fabricTimeout true id) s = .next (writeFailed w (addrEvent 0x112 w.addr w.use.code (endWrite id s)))) ∧
  (∀ (s : State) (a : Nat), fabParity 0 a s = s ∧ fabParity 3 a s = busParity s ∧
    fabParity 1 a s = raise 0xA30 3 (wordOf (a / 128 % 4)) s ∧ fabParity 2 a s = raise 0xA30 4 (wordOf (a / 128 % 4)) s) ∧
  (∀ (s : State) (id : Nat) (r : RdReq) (q : Nat) (idx : Word), live s →
    (s.fab.reads.find? fun r => r.id = id) = some r → r.use = .payload q idx ∨ r.use = .segList q idx →
    exec (.fabricErrorResponse ⟨false, 0⟩ id) s =
      .next (txDone q idx 9 255 (addrEvent 0x110 r.addr r.use.code (endRead id s))) ∧
    exec (.fabricTimeout false id) s =
      .next (txDone q idx 9 255 (quarantine id (addrEvent 0x112 r.addr r.use.code (endRead id s))))) ∧
  (∀ (s : State) (id q : Nat) (w : WrReq) (c : Cpl), live s →
    (s.fab.writes.find? fun w => w.id = id) = some w → w.use = .cpl q c →
    (w.retried = false → exec (.fabricErrorResponse ⟨true, 0⟩ id) s =
      .next (reissue w (addrEvent 0x111 w.addr 4 (endWrite id s)))) ∧
    (w.retried = true → exec (.fabricErrorResponse ⟨true, 0⟩ id) s =
      .next (stopWith q w (addrEvent 0x111 w.addr 4 (endWrite id s)))) ∧
    (w.retried = true → exec (.fabricTimeout true id) s =
      .next (stopWith q w (addrEvent 0x112 w.addr 4 (endWrite id s))))) ∧
  (∀ (s : State) (b : ReadBack), live s → (s.fab.reads.find? fun r => r.id = b.id && r.use.plain) = none →
    exec (.lateResponse b) s = .next (admitReads { s with fab := { s.fab with
      quar := dropFirst (fun k => k = b.id) s.fab.quar,
      quarEp := s.fab.quarEp && !(dropFirst (fun k => k = b.id) s.fab.quar).isEmpty } })) ∧
  (∀ (s : State) (b : ReadBack) (r : RdReq), live s → (s.fab.reads.find? fun r => r.id = b.id && r.use.plain) = some r →
    exec (.lateResponse b) s = .next (reread r b.ws (returnRead r s))) ∧
  (∀ (s : State) (f : Fin 262144) (o : PageOp), s.phase = .running ∨ s.phase = .quiesce → cipherOp s f = some o →
    exec (.cipherTimeout f) s = .next (settleMigIns (cipherErr f 0x10000 (endReq f
      { s with pgr := { s.pgr with quarTags := s.pgr.quarTags ++ o.tags } })))) ∧
  (∀ (s : State) (f : Fin 262144), s.phase = .running ∨ s.phase = .quiesce → cipherOp s f = none →
    exec (.cipherTimeout f) s = .next (settleMigIns s)) ∧
  (∀ s : State, exec .cipherLateResult s =
    .next (cipherReq { s with pgr := { s.pgr with quarTags := s.pgr.quarTags.drop 1 } }))

/-! The caddie. -/

/-- The caddie's enable and its timers (R191, R196, R198, R199, R202–R204). CADDIE_ENABLE: a refused write is recorded; `HANDLES` 0 is
refused with the error bit; else the caddie starts, and reads the flow table (`RESTORE` 1) or writes 0 to all of it; a write
without the enable bit, or to a caddie that is enabled, sets its stored field alone. CADDIE_ENABLE_DONE makes it ready, with no
flow live, or with the flows that the table brings, once the entries of flows that the repair map marks DEAD are written; a
failed end leaves it disabled with the error bit. PREFETCH_ISSUE queues for rank 2; PROTECTION_END, FAULT_HOLD_END,
VICTIM_BAR_END, CACHE_PRESSURE_EPISODE_END and PREFETCH_LATE_EPISODE_END end what they name. -/
def Obligations.CaddieEnableAndTimers : Prop :=
  ((∀ (s : State) (v : Word) (c : Nat), s.phase = .running → refusal s 0x60000 4 v = some c →
    exec (.caddieEnable v) s = .next (refuseWrite 0x60000 c s)) ∧
  (∀ (s : State) (v : Word), s.phase = .running → refusal s 0x60000 4 v = none →
    bitOf v 0 = false ∨ s.pgr.enabled = true → exec (.caddieEnable v) s = .next (storeFields 0x60000 v s)) ∧
  (∀ (s u : State) (v : Word), s.phase = .running → refusal s 0x60000 4 v = none → bitOf v 0 = true →
    s.pgr.enabled = false → u = storeFields 0x60000 v s →
    (bitsOf (reg u 0x6000C) 0 12 = 0 → exec (.caddieEnable v) s = .next { u with pgr := { s.pgr with bad := true } }) ∧
    (bitsOf (reg u 0x6000C) 0 12 ≠ 0 → exec (.caddieEnable v) s =
      .next (enableTable { u with pgr := { s.pgr with bad := false, enabled := true, starting := true, flows := [] } }))) ∧
  (∀ s : State, enableTable s = if bitOf (reg s 0x60000) 1 = true then fabRead (.restore false) (ftableAddr s 0) 524288 s
    else fabWrite .clearTable (ftableAddr s 0) 524288 [] s) ∧
  (∀ (s : State) (es : List (Nat × BitVec 16)), s.phase = .running → s.pgr.starting = true →
    readsOf s RdUse.enables = [] → exec (.caddieEnableDone true es) s = .next { s with
      fab := { s.fab with writes := s.fab.writes.filter fun w => !w.use.enables },
      pgr := { s.pgr with starting := false, ready := true, repair := [] } }) ∧
  (∀ (s u : State) (es : List (Nat × BitVec 16)), s.phase = .running → s.pgr.starting = true →
    readsOf s RdUse.enables ≠ [] → u = enableRestore es (tableRead s) → u.pgr.starting = true →
    (writing u WrUse.enables = false → exec (.caddieEnableDone true es) s =
      .next { u with pgr := { u.pgr with starting := false, ready := true, repair := [] } }) ∧
    (writing u WrUse.enables = true → exec (.caddieEnableDone true es) s = .next u)) ∧
  (∀ (s : State) (es : List (Nat × BitVec 16)) (r : RdReq) (l : List RdReq), s.phase = .running → s.pgr.starting = true →
    readsOf s RdUse.enables = r :: l →
    exec (.caddieEnableDone false es) s = .next (enableFail (addrEvent 0x110 r.addr 5 s))) ∧
  (∀ (s : State) (es : List (Nat × BitVec 16)) (w : WrReq), s.phase = .running → s.pgr.starting = true →
    readsOf s RdUse.enables = [] → (s.fab.writes.find? fun w => w.use.enables) = some w →
    exec (.caddieEnableDone false es) s = .next (enableFail (addrEvent 0x111 w.addr 5 s))) ∧
  (∀ (s : State), (enableFail s).pgr.bad = true ∧ (enableFail s).pgr.enabled = false ∧ (enableFail s).pgr.flows = [] ∧
    (enableFail s).pgr.repair = s.pgr.repair) ∧
  (∀ (s : State) (ok : Bool) (es : List (Nat × BitVec 16)), s.pgr.starting = false →
    exec (.caddieEnableDone ok es) s = .next s)) ∧
  ((∀ (s : State) (f : Fin 262144) (x : Prefetch), s.phase = .running → s.pgr.sched.find? (fun x => x.flow = f.val) = some x →
    flowLive s f = true → heldBoth s f = false → (getFlow s f).slot = none →
    exec (.prefetchIssue f) s = .next { s with pgr := if s.pgr.rank1.any fun e => e.1 = f.val
      then { s.pgr with sched := dropFirst (fun y => y.flow = f.val) s.pgr.sched, shields := s.pgr.shields ++ [x] }
      else { s.pgr with sched := dropFirst (fun y => y.flow = f.val) s.pgr.sched, rank2 := s.pgr.rank2 ++ [x] } }) ∧
  (∀ (s u : State) (f : Fin 262144) (x : Prefetch), s.phase = .running →
    s.pgr.sched.find? (fun x => x.flow = f.val) = some x →
    u = { s with pgr := { s.pgr with sched := dropFirst (fun y => y.flow = f.val) s.pgr.sched } } →
    (flowLive s f = false ∨ heldBoth s f = true → exec (.prefetchIssue f) s = .next (addCtr (pgrCtr 5) 1 u)) ∧
    (flowLive s f = true → heldBoth s f = false → (getFlow s f).slot ≠ none →
      exec (.prefetchIssue f) s = .next (prefetchMeets x u))) ∧
  (∀ (s : State) (f : Fin 262144) (i : Nat), (getFlow s f).slot = some i →
    exec (.protectionEnd f) s = .next (modSlot i (fun c => { c with prot := none }) s)) ∧
  (∀ (s : State) (f : Fin 262144), (getFlow s f).slot = none → exec (.protectionEnd f) s = .next s) ∧
  (∀ (s : State) (f : Fin 262144), s.phase = .running → (getFlow s f).hFault = true → (getFlow s f).pinned = false →
    exec (.faultHoldEnd f) s = .next (modFlow f (fun x => { x with hFault := false }) s)) ∧
  (∀ (s u : State) (f : Fin 262144), s.phase = .running → (getFlow s f).hFault = true →
    u = modFlow f (fun x => { x with hFault := false }) s → (getFlow u f).pinned = true → heldBoth u f = false →
    (getFlow u f).slot = none → exec (.faultHoldEnd f) s = .next (needPage f 3 (.send f) 0 u)) ∧
  (∀ (s : State) (i : Fin 49152), exec (.victimBarEnd i) s = .next (modSlot i (fun c => { c with barred := false }) s)) ∧
  (∀ s : State, freeTarget s ≤ freeSlots s + cleanVictims s →
    exec .cachePressureEpisodeEnd s = .next { s with pgr := { s.pgr with pressEp := false } }) ∧
  (∀ s : State, freeSlots s + cleanVictims s < freeTarget s → exec .cachePressureEpisodeEnd s = .next s) ∧
  (∀ s : State, exec .prefetchLateEpisodeEnd s = .next { s with pgr := { s.pgr with lateEp := false } }))

/-- PAGE_IN_ISSUE, PAGE_IN_READ_DONE, PAGE_IN_DONE and PAGE_RETRY (R189, R195, R198–R202). The next page-in by rank takes a
free slot, or a victim's, under the protection of the flow's prefetches, and reads its page; with no slot it waits, which is
counted and reported once; one whose flow is held, or has a slot, reads nothing. The read's return sends the page to the cipher
engine; a page that passes its check makes the slot CLEAN and serves the flow's needs (its `ref` is set: log entry 98); a failed
check holds the flow; a failure is retried once, 10 µs later. -/
def Obligations.PageIns : Prop :=
  let turn := fun s : State => if (s.pgr.rank1.isEmpty && !rank3Turn s.pgr) = true then dropExpired s else s
  let took := fun (rank f i : Nat) (pre : Option Prefetch) (p : Pgr) (prot : Option Int) (w : State) =>
    addOp { flow := f, slot := i, why := .pageIn rank, ph := .read, a0 := pre.toList.map fun x => x.a0 }
      (modFlow f (fun x => { x with slot := some i }) (modSlot i (fun _ => { st := .filling, flow := f, prot := prot })
        (w.modPgr fun x => { x with rank1 := p.rank1, rank2 := p.rank2, rank3 := p.rank3, since3 := p.since3,
                                    shields := x.shields.filter (fun y => y.flow ≠ f),
                                    waitVictim := x.waitVictim.filter fun y => y ≠ f })))
  (∀ s : State, s.phase = .running → nextPageIn (turn s).pgr = none → exec .pageInIssue s = .next (turn s)) ∧
  (∀ (s w u : State) (rank f i : Nat) (pre : Option Prefetch) (p : Pgr), s.phase = .running →
    nextPageIn (turn s).pgr = some (rank, f, pre, p) → pageable (turn s) f rank = true → (getFlow (turn s) f).slot = none →
    findSlot (turn s) = (w, some i) →
    u = perf (23 + rank) 1 (took rank f i pre p (protFor (turn s) f) w) →
    (rank ≠ 2 → exec .pageInIssue s = .next (fabRead (.page f) (pageAddr u f) 128 u)) ∧
    (rank = 2 → exec .pageInIssue s =
      .next (fabRead (.page f) (pageAddr (addCtr (pgrCtr 2) 1 u) f) 128 (addCtr (pgrCtr 2) 1 u)))) ∧
  (∀ (s w : State) (rank f : Nat) (pre : Option Prefetch) (p : Pgr), s.phase = .running →
    nextPageIn (turn s).pgr = some (rank, f, pre, p) → pageable (turn s) f rank = true → (getFlow (turn s) f).slot = none →
    findSlot (turn s) = (w, none) → exec .pageInIssue s = .next (noVictim f w)) ∧
  (∀ (w : State) (rank f i : Nat) (pre : Option Prefetch) (p : Pgr) (prot : Option Int),
    let u := took rank f i pre p prot w
    u.pgr.rank1 = p.rank1 ∧ getSlot u i = { st := .filling, flow := f, prot := prot } ∧ (getFlow u f).slot = some i ∧
    u.pgr.ops = w.pgr.ops ++ [{ flow := f, slot := i, why := .pageIn rank, ph := .read,
                                a0 := pre.toList.map fun x => x.a0 }] ∧
    (∀ k, k ≠ i → getSlot u k = getSlot w k) ∧ (∀ k, k ≠ f → getFlow u k = getFlow w k) ∧
    u.regs = w.regs ∧ u.hif = w.hif ∧ u.tpt = w.tpt ∧ u.fab = w.fab) ∧
  (∀ (s : State) (f : Fin 262144) (ws : List Word) (o : PageOp), s.phase = .running → ws.length = 32 →
    opOf s f = some o → o.ph = .read → reading s (.page f) = true → exec (.pageInReadDone f ws) s =
      .next (cipherReq (modOp f (fun o => { o with ph := .decrypt, unit := ws }) (returnReads (fun u => u = .page f) s)))) ∧
  (∀ (s : State) (f : Fin 262144) (st : BitVec 16) (ws : List Word) (o : PageOp), s.phase = .running →
    cipherOp s f = some o → o.ph = .decrypt →
    (st = 0 → pageCheck f ws = 0 → exec (.pageInDone f st ws) s =
      .next (cipherReq (opEnded f (serveFlow f (lateCheck f o.a0 (addCtr (pgrCtr 0) 1
        (modSlot o.slot (fun c => { c with st := .clean, ctx := ctxOf ws, ref := true }) (dropOp f (endReq f s))))))))) ∧
    (st = 0 → pageCheck f ws ≠ 0 → exec (.pageInDone f st ws) s =
      .next (cipherReq (opEnded f (serveFlow f (checkHold f (pageCheck f ws - 1) (dropOp f (endReq f s))))))) ∧
    (st ≠ 0 → exec (.pageInDone f st ws) s = .next (cipherErr f (wordOf st.toNat) (endReq f s)))) ∧
  (∀ (s : State) (f : Fin 262144) (o : PageOp) (rank : Nat), s.phase = .running ∨ s.phase = .quiesce →
    opOf s f = some o → o.ph = .retryWait → o.why = .pageIn rank → exec (.pageRetry f) s =
      .next (fabRead (.page f) (pageAddr s f) 128 (modOp f (fun o => { o with ph := .read }) s))) ∧
  (∀ (s : State) (f : Fin 262144) (o : PageOp), s.phase = .running ∨ s.phase = .quiesce →
    opOf s f = some o → o.ph = .retryWait → (∀ rank, o.why ≠ .pageIn rank) → exec (.pageRetry f) s =
      .next (cipherReq (modOp f (fun o => { o with ph := .encrypt, ctx := (getSlot s o.slot).ctx }) s)))

/-- CLEANING_PAGE_OUT, PAGE_OUT_ENCRYPTED and PAGE_OUT_DONE (R196, R200, R203): a cleaning page-out starts on a DIRTY slot while
fewer slots are free than the target; the encrypted page is written to the flow's place in the backing store; with its
acknowledgement an unchanged slot is CLEAN, a victim's free, and a changed one DIRTY again; a page that a create or a migration
writes is followed by its flow table entry, a destroyed flow's by its own (R192, R193). -/
def Obligations.PageOuts : Prop :=
  let done := fun u : State => if u.phase = .quiesce then writeBacks u else u
  (∀ (s : State) (i : Nat), s.phase = .running → freeSlots s + cleanVictims s < freeTarget s → cleanable s = some i →
    exec .cleaningPageOut s = .next (pageOut i false true (addCtr (pgrCtr 10) 1 s))) ∧
  (∀ s : State, freeTarget s ≤ freeSlots s + cleanVictims s ∨ cleanable s = none → exec .cleaningPageOut s = .next s) ∧
  (∀ (s : State) (f : Fin 262144) (ws : List Word) (o : PageOp), s.phase = .running ∨ s.phase = .quiesce →
    cipherOp s f = some o → o.ph = .encrypt → o.why = .pageOut → exec (.pageOutEncrypted f 0 ws) s =
      .next (settleMigIns (cipherReq (fabWrite (.page f) (pageAddr s f) 128 ws
        (modOp f (fun x => { x with ph := .write, retried := o.retried }) (endReq f s)))))) ∧
  (∀ (s : State) (f : Fin 262144) (st : BitVec 16) (ws : List Word) (o : PageOp), s.phase = .running ∨ s.phase = .quiesce →
    cipherOp s f = some o → o.ph = .encrypt → st ≠ 0 → exec (.pageOutEncrypted f st ws) s =
      .next (settleMigIns (cipherErr f (wordOf st.toNat) (endReq f s)))) ∧
  (∀ (s u t : State) (f : Fin 262144) (o : PageOp), s.phase = .running ∨ s.phase = .quiesce →
    writing s (fun u => u = .page f) = true → opOf s f = some o → o.ph = .write → o.why = .pageOut →
    u = addCtr (pgrCtr 1) 1 (dropOp f (endPageWrite f s)) →
    t = opEnded f (serveFlow f (if (getSlot s o.slot).changed = true
      then modSlot o.slot (fun c => { c with st := .dirty, victim := false, changed := false }) u
      else if (getSlot s o.slot).victim = true then freeSlot o.slot (addCtr (pgrCtr 9) 1 u)
      else modSlot o.slot (fun c => { c with st := .clean }) u)) →
    exec (.pageOutDone f) s = .next (done t)) ∧
  (∀ (s : State) (f : Fin 262144) (o : PageOp), s.phase = .running ∨ s.phase = .quiesce →
    writing s (fun u => u = .page f) = true → opOf s f = some o → o.ph = .write →
    (∀ q idx r0, o.why = .destroy q idx r0 → exec (.pageOutDone f) s =
      .next (done (destroyEntry f q idx r0 (addCtr (pgrCtr 1) 1 (endPageWrite f s))))) ∧
    ((∃ q idx, o.why = .create q idx) ∨ (∃ p, o.why = .migrate p) → exec (.pageOutDone f) s =
      .next (done (writeEntry f true (modOp f (fun o => { o with ph := .entry, retried := false }) (endPageWrite f s)))))) ∧
  (∀ (s : State) (f : Fin 262144), writing s (fun u => u = .page f) = false → exec (.pageOutDone f) s = .next s)

/-! The receive path. -/

/-- RX_BUFFER_FETCH and RX_BUFFER_ARRIVE (R83): an active ring with an entry at F and room in its cache fetches up to 16; what
arrives is taken in ring order, each with its tag checked; a descriptor with a reserved bit is counted and reported, else it
joins the cache, or goes back unused while the ring drains (R100). -/
def Obligations.ReceiveBuffers : Prop :=
  (∀ (s : State) (r : Fin 1024) (Q : Queue), s.phase = .running → Q = getQueue s (4096 + r) → Q.st = .active →
    Q.cache.length + (bufsComing s (4096 + r)).length ≤ 16 → Q.tagRetry = none → tagsUsed s < 1024 → entryThere Q = true →
    let n := min 16 (if Q.pollFound then ringSize Q.cfg - gap Q.f Q.ci else knownWork Q)
    exec (.rxBufferFetch r) s = .next (readEntries (4096 + r) (entryUse (4096 + r))
      ((List.range n).map fun i => Q.f + BitVec.ofNat 32 i)
      (perf 4 n (modQueue (4096 + r) (fun Q => { Q with f := Q.f + BitVec.ofNat 32 n }) s)))) ∧
  (∀ (s : State) (r : Fin 1024) (Q : Queue), Q = getQueue s (4096 + r) →
    Q.st ≠ .active ∨ 16 < Q.cache.length + (bufsComing s (4096 + r)).length ∨ Q.tagRetry ≠ none ∨ 1024 ≤ tagsUsed s ∨
      entryThere Q = false → exec (.rxBufferFetch r) s = .next s) ∧
  (∀ (s : State) (r : Fin 1024) (ws : List Word) (idx : Word), s.phase = .running →
    nextEntry s (4096 + r) = some idx → dTag ws = tagOf (getQueue s (4096 + r)).cfg.log2 idx →
    exec (.rxBufferArrive r [ws]) s = .next (bufArrive (4096 + r) idx ws (takeEntry (4096 + r) idx s))) ∧
  (∀ (s : State) (r : Fin 1024) (ws : List Word) (l : List (List Word)) (idx : Word), s.phase = .running →
    nextEntry s (4096 + r) = some idx → exec (.rxBufferArrive r (ws :: l)) s =
      .next (bufsIn (4096 + r) l (tagChecked (4096 + r) idx ws (bufArrive (4096 + r) idx ws) s))) ∧
  (∀ (s : State) (q : Nat) (idx : Word) (ws : List Word) (u : State), u = copied q idx s →
    (rxBufOk ws = false → bufArrive q idx ws s =
      drainDone q (countDrained q 1 (raise 0x132 (wordOf q) idx (addCtr (hifCtr 5) 1 u)))) ∧
    (rxBufOk ws = true → (getQueue u q).st = .draining →
      bufArrive q idx ws s = drainDone q (flushBuf q (rxBufOf ws) u)) ∧
    (rxBufOk ws = true → (getQueue u q).st ≠ .draining →
      bufArrive q idx ws s = modQueue q (fun Q => { Q with cache := Q.cache ++ [rxBufOf ws] }) u))

/-- US_FRAME_ARRIVAL (R33, R46, R52, R55, R60, R104, R108, R109, R118, R262, R287, R322): `v` is the state with the frame's bytes and
its line errors counted and its draw taken, `w` with a parity error at its crossing reported. A port in per-port reset or without
its clock counts the frame and discards it, as does a port that is disabled or has no tree; a held port, and one asleep, too, but
the burst's first frame goes to the ranging unit. On a port that carries traffic the frame takes its cells and goes on to the
FCS check, or is counted as without cells; on the partner of a tree about to be rebound it waits there. In the quiesce phase it
is discarded and counted. -/
def Obligations.UpstreamArrival : Prop :=
  let counted := fun (p : Nat) (f : UsPresented) (s : State) =>
    stat p 42 f.fecUncorr.toNat (stat p 41 f.fecCorr.toNat
      (perf (259 + 4 * p) 1 (perf (258 + 4 * p) f.bytes.length s)))
  let drawn' := fun (p : Nat) (f : UsPresented) (s : State) =>
    draw true (markPort (counted p f s) p) (shortStamp (captured (counted p f s) f.sub 0)) (counted p f s)
  let waits := fun (p : Nat) (v : State) => if (usTree v p).isNone then rebindTree v p else none
  let maxFrame := fun (p : Nat) (s : State) => bitsOf (reg s (0x10010 + p * 0x400)) 0 14
  let record := fun (p : Nat) (f : UsPresented) (mx : Nat) (v : State) (m : Option Mark) => ({
    id := v.tpt.usNext, port := p, tree := ((usTree v p).or (waits p v)).getD p, stage := .ready,
    kept := f.bytes.take (min (f.bytes.length - 4) (mx - 4)), len := f.bytes.length, term := f.term, alloc := f.alloc,
    stamp := shortStamp (captured v f.sub (reg v (0x10064 + p * 0x400)).toInt), mark := m } : Us)
  (∀ (s v w : State) (p : Fin 64) (f : UsPresented) (u : Us) (m : Option Mark), s.phase = .running →
    (v, m) = drawn' p f s → u = record p f (maxFrame p s) v m →
    w = (if (getDom v p).depth < 2 then parityError f.poison 1 p v else v) →
    (portState (getPort s p) = 2 ∨ portState (getPort s p) = 3 →
      exec (.usFrameArrival p f) s = .next (traceUs u 38 (stat p 38 1 v))) ∧
    (portState (getPort s p) = 0 ∨ portState (getPort s p) = 5 →
      exec (.usFrameArrival p f) s = .next (traceUs u 39 (stat p 39 1 w))) ∧
    (portState (getPort s p) = 1 ∨ portState (getPort s p) = 4 → usTree v p = none → rebindTree v p = none →
      exec (.usFrameArrival p f) s = .next (traceUs u 39 (stat p 39 1 w))) ∧
    (portState (getPort s p) = 4 → usTree v p ≠ none ∨ rebindTree v p ≠ none → exec (.usFrameArrival p f) s =
      .next (traceUs u 39 (stat p 39 1 (usBurst p (usTree v p) f w)))) ∧
    (portState (getPort s p) = 1 → usTree v p ≠ none → 2 ≤ (getDom v p).depth → exec (.usFrameArrival p f) s =
      .next (traceUs u 39 (stat p 39 1 (raise 0x219 (wordOf p) (wordOf f.term) (usBurst p (usTree v p) f w))))) ∧
    (portState (getPort s p) = 1 → (usTree v p ≠ none ∧ (getDom v p).depth < 2) ∨ (usTree v p = none ∧ rebindTree v p ≠ none) →
      exec (.usFrameArrival p f) s = .next (usStore { u with cycle := (getPort (usBurst p (usTree v p) f w) p).burst } f
        (cellsOf (min f.bytes.length (maxFrame p s))) (usTree v p).isNone (usBurst p (usTree v p) f w)))) ∧
  (∀ (s : State) (u : Us) (f : UsPresented) (n : Nat) (wait : Bool), usTake s u.port n = none →
    usStore u f n wait s = traceUs u 34 (stat u.port 34 1 s)) ∧
  (∀ (s : State) (u x : Us) (f : UsPresented) (n pool : Nat) (wait : Bool), usTake s u.port n = some pool →
    x = { u with cells := n, poolCells := pool, banks := placeCells s n } →
    usStore u f n wait s = usStage2 x f wait (State.modTpt (fun t => { t with us := t.us ++ [x], usNext := t.usNext + 1 })
      (modPort u.port (fun P => { P with usCells := P.usCells + n, usPool := P.usPool + pool })
        (wakeBanks (placeCells s n) s)))) ∧
  (∀ (s : State) (p : Fin 64) (f : UsPresented), s.phase = .quiesce → exec (.usFrameArrival p f) s = .next
    (if portUp (getPort s p) = true then { s with hif := { s.hif with warmRx := sat 0xFFFFFFFF (s.hif.warmRx + 1) } } else s))

/-- RX_BUFFERS_TAKE and RX_NO_BUFFER_TIMEOUT (R24, R112, R244): a frame takes its buffers in order, all at once, and its data
writes go out; after 20 µs without buffers, or without its DATA message begun, it is reported and discarded, and a frame already
on its way is left. -/
def Obligations.ReceiveDelivery : Prop :=
  let cleared := fun (id : Nat) (s : State) =>
    ({ s with lnk := { s.lnk with out := s.lnk.out.filter fun m => m.us ≠ some id } } : State)
  (∀ (s : State) (id n : Nat) (u : Us) (Q : Queue), s.phase = .running → findUs s id = some u → u.stage = .buffers →
    aheadAt6 s u = false → Q = getQueue s (4096 + u.ring) → Q.st ≠ .notCreated →
    (getQueue s Q.cfg.cq).episode = false → n = bufsNeeded s u.ring u.kept.length → n ≤ Q.cache.length →
    exec (.rxBuffersTake id) s = .next (writeBufs id (bufBytes Q.cfg) (Q.cache.take n) u.kept
      (modUs id (fun u => { u with stage := .writing, bufs := Q.cache.take n,
                                   mark := u.mark.map fun m => (m.at 4 (stampNow s)).at 5 (stampNow s) })
        (modQueue (4096 + u.ring) (fun Q => { Q with cache := Q.cache.drop n }) s)))) ∧
  (∀ (s : State) (id : Nat) (u : Us) (Q : Queue), s.phase = .running → findUs s id = some u → Q = getQueue s (4096 + u.ring) →
    u.stage ≠ .buffers ∨ aheadAt6 s u = true ∨ Q.st = .notCreated ∨ (getQueue s Q.cfg.cq).episode = true ∨
      Q.cache.length < bufsNeeded s u.ring u.kept.length → exec (.rxBuffersTake id) s = .next s) ∧
  (∀ (s : State) (id : Nat) (u : Us), s.phase = .running → findUs s id = some u →
    u.stage = .buffers ∨ (u.stage = .link ∧ leaving s id = false) →
    (u.link = none → u.err = false → exec (.rxNoBufferTimeout id) s =
      .next (endUs id 35 (raise 0x150 (wordOf (4096 + u.ring)) (wordOf u.port) (cleared id s)))) ∧
    (u.link = none → u.err = true → exec (.rxNoBufferTimeout id) s =
      .next (dropUs id (traceUs u (errCounter u.status)
        (raise 0x150 (wordOf (4096 + u.ring)) (wordOf u.port) (cleared id s))))) ∧
    (∀ c k, u.link = some (c, k) → exec (.rxNoBufferTimeout id) s =
      .next (dropUs id (raise 0x150 (wordOf (4096 + u.ring)) (wordOf c) (lstat c 7 1 (cleared id s)))))) ∧
  (∀ (s : State) (id : Nat) (u : Us), s.phase = .running → findUs s id = some u → u.stage ≠ .buffers →
    u.stage ≠ .link ∨ leaving s id = true → exec (.rxNoBufferTimeout id) s = .next s)

/-! Cycles, grants and ranging. -/

/-- CYCLE_START, CYCLE_LOST and GARBLED (R34, R35, R46, R140, R164, R175): the first pulse starts the tree's numbers at 0 and a later
one advances them by one; a pulse more than 2 µs from its place is a slip, reported, and the next cycle is empty; the first after
a loss has no place to be at; a lost pulse is reported once; an indication whose handshake met two parity errors is dropped and
reported. -/
def Obligations.CyclePulses : Prop :=
  (∀ (s : State) (p : Fin 64) (sub : Fin 16) (t : Nat), s.phase = .running → hears (getPort s p) = true →
    (getPort s p).sPulse = none ∨ (getPort s p).cycLost = true → treeOn s p = some t → exec (.cycleStart ⟨p, false⟩ sub) s =
      .next (nextCycle t (now16 s + sub) false
        (modPort p (fun P => { P with sPulse := some (now16 s + sub), cycLost := false }) s))) ∧
  (∀ (s u : State) (p : Fin 64) (sub : Fin 16) (t : Nat) (x : Int), s.phase = .running → hears (getPort s p) = true →
    (getPort s p).sPulse = some x → (getPort s p).cycLost = false →
    u = modPort p (fun P => { P with sPulse := some (now16 s + sub), cycLost := false }) s →
    ((now16 s + sub - (x + cycle16)).natAbs ≤ 32000 → treeOn u p = some t →
      exec (.cycleStart ⟨p, false⟩ sub) s = .next (nextCycle t (now16 s + sub) false u)) ∧
    (32000 < (now16 s + sub - (x + cycle16)).natAbs →
      treeOn (raise 0x211 (wordOf p) (wordOfInt ((now16 s + sub - (x + cycle16)) / 16)) u) p = some t →
      exec (.cycleStart ⟨p, false⟩ sub) s = .next (nextCycle t (now16 s + sub) true
        (raise 0x211 (wordOf p) (wordOfInt ((now16 s + sub - (x + cycle16)) / 16)) u)))) ∧
  (∀ (s : State) (p : Fin 64) (sub : Fin 16), s.phase = .running →
    (hears (getPort s p) = true → exec (.cycleStart ⟨p, true⟩ sub) s = .next (raise 0xA30 8 (wordOf p) s)) ∧
    (hears (getPort s p) = false → ∀ lost, exec (.cycleStart ⟨p, lost⟩ sub) s = .next s) ∧
    (reads (getPort s p) = true → exec (.garbled ⟨p, true⟩ sub) s = .next (raise 0xA30 8 (wordOf p) s)) ∧
    (reads (getPort s p) = false → ∀ lost, exec (.garbled ⟨p, lost⟩ sub) s = .next s)) ∧
  (∀ (s : State) (t : Nat) (a : Int) (slip : Bool), (getGTree (nextCycle t a slip s) t).cycle =
    (if (getGTree s t).counting then ((getGTree s t).cycle + 1) % 4294967296 else 0) ∧
    (getGTree (nextCycle t a slip s) t).skipNext = slip ∧ (getGTree (nextCycle t a slip s) t).counting = true) ∧
  (∀ (s : State) (p : Fin 64), s.phase = .running → reads (getPort s p) = true → (getPort s p).cycLost = false →
    exec (.cycleLost p) s = .next (raise 0x212 (wordOf p) 0 (modPort p (fun P => { P with cycLost := true }) s))) ∧
  (∀ (s : State) (p : Fin 64), reads (getPort s p) = false ∨ (getPort s p).cycLost = true →
    exec (.cycleLost p) s = .next s) ∧
  (∀ (s : State) (p : Fin 64) (sub : Fin 16) (t : Nat), s.phase = .running → reads (getPort s p) = true →
    treeOn s p = some t →
    let hit := fun x : Slot => if x.lo ≤ now16 s + sub ∧ now16 s + sub < x.hi then { x with garbled := x.garbled + 1 } else x
    exec (.garbled ⟨p, false⟩ sub) s =
      .next (modRTree t (fun r => { r with slots := r.slots.map hit, wins := r.wins.map hit }) s))

/-- The curve maps backlog to bytes per cycle (R151): with point 0 at (0, 0), at or past the last point its bytes; below it, the
line between the points about it, cut down. A saturated backlog stands for 4,194,240 bytes. -/
def Obligations.CurveMapsBacklog : Prop :=
  (∀ (ws : List Word) (b : Nat), curveOk ws = true →
    let x := fun i => (((0, 0) :: curvePts ws).getD i (0, 0)).1
    let y := fun i => (((0, 0) :: curvePts ws).getD i (0, 0)).2
    (x 16 ≤ b → curveAt b 0 0 (curveNew ws 0).pts = y 16) ∧
    (∀ i, 1 ≤ i → i ≤ 16 → b < x i → (∀ j < i, x j ≤ b) →
      curveAt b 0 0 (curveNew ws 0).pts = y (i - 1) + (y i - y (i - 1)) * (b - x (i - 1)) / (x i - x (i - 1)))) ∧
  (∀ a : AllocRec, a.backlog = 0xFFFF → a.granted = 0 → effBacklog a = 4194240)

/-- GRANT_READ_POINT, PLAN_PUBLISH, LIST_TIME, GRANT_COMPUTE_DEADLINE, GL_COMMIT and GRANT_LIST_DEADLINE: one computation of the
grant engine (R15, R16, R56, R141, R159, R302). It starts at the read point when the tree can be granted and none is under way,
with polls put off reported (R153); its plan is published once; its list is written at its time; an unpublished computation is
abandoned at the deadline; the list commits once, or, poisoned on its way, is replaced by an empty one (R46, R293); and at the list
deadline an empty one stands in for a list that has not committed, in a per-port reset in every cycle. -/
def Obligations.GrantCycle : Prop :=
  (∀ (s u : State) (t : Fin 64) (c : Comp) (n : Nat), s.phase = .running → canGrant s t = true →
    (getGTree s t).comp = none → (getGTree s t).published = false → (getGTree s t).committed = false →
    compute s t (((getGTree s t).cycle + 1) % 4294967296) = (c, n) →
    u = perf 22 1 (modGTree t (fun g => { g with comp := some c }) (access 210 s)) →
    (n = 0 → exec (.grantReadPoint t) s = .next u) ∧
    (n ≠ 0 → exec (.grantReadPoint t) s =
      .next (raise 0x413 (wordOf (homeOf u t)) (wordOf n) (addCtr (gntCtr t 8) n u)))) ∧
  (∀ (s : State) (t : Fin 64), canGrant s t = false ∨ (getGTree s t).comp.isSome = true ∨ (getGTree s t).published = true ∨
    (getGTree s t).committed = true → exec (.grantReadPoint t) s = .next s) ∧
  (∀ (s u : State) (t : Fin 64) (c : Comp), s.phase = .running → (getGTree s t).comp = some c →
    (getGTree s t).published = false →
    u = State.modPgr (fun p => { p with sched := p.sched ++ planPrefetch s t c.cycle c.entries })
        (modGTree t (fun g => { g with
          published := true, planNext := c.entries,
          standby := if nextStart s t - us16 45 ≤ now16 s then some c else none }) s) →
    ((c.entries.find? fun e => e.kind = .window) = none → exec (.planPublish t) s = .next u) ∧
    (∀ e, (c.entries.find? fun e => e.kind = .window) = some e →
      exec (.planPublish t) s = .next (sendAnnounce t c.cycle e u))) ∧
  (∀ (s : State) (t : Fin 64), (getGTree s t).comp = none ∨ (getGTree s t).published = true →
    exec (.planPublish t) s = .next s) ∧
  (∀ (s u : State) (t : Fin 64) (c : Comp), s.phase = .running → (getGTree s t).comp = some c →
    (getGTree s t).published = true → (getGTree s t).committed = false → (getGTree s t).standby = none →
    u = modGTree t (fun g => { g with standby := some c }) s →
    exec (.listTime t) s = .next u ∧ getGTree u t = { getGTree s t with standby := some c } ∧
    (∀ k, k ≠ t.val → getGTree u k = getGTree s k)) ∧
  (∀ (s u : State) (t : Fin 64), s.phase = .running → (getGTree s t).published = false →
    u = modGTree t (fun g => { g with comp := none }) s →
    exec (.grantComputeDeadline t) s = .next u ∧ getGTree u t = { getGTree s t with comp := none } ∧
    (∀ k, k ≠ t.val → getGTree u k = getGTree s k)) ∧
  (∀ (s : State) (t : Fin 64), s.phase = .running → (getGTree s t).published = true →
    exec (.grantComputeDeadline t) s = .next (modGTree t (fun g => g) s)) ∧
  (∀ (s : State) (t : Fin 64) (c : Comp), s.phase = .running → (getGTree s t).standby = some c →
    (getGTree s t).committed = false → exec (.glCommit t 0) s = .next (commitList t c s)) ∧
  (∀ (s : State) (t : Fin 64) (c : Comp) (poison : Fin 3), s.phase = .running → (getGTree s t).standby = some c →
    (getGTree s t).committed = false → poison ≠ 0 → exec (.glCommit t poison) s =
      .next (emptyList t (grantLate t 2 (parityError poison 2 (homeOf s t) s)))) ∧
  (∀ (s : State) (t : Fin 64) (poison : Fin 3), (getGTree s t).standby = none ∨ (getGTree s t).committed = true →
    exec (.glCommit t poison) s = .next s) ∧
  (∀ (s : State) (t : Fin 64), s.phase = .running → (getPort s (homeOf s t)).reset.isSome = true →
    exec (.grantListDeadline t) s = .next (emptyList t s)) ∧
  (∀ (s : State) (t : Fin 64), s.phase = .running → (getPort s (homeOf s t)).reset = none →
    (getGTree s t).committed = false → (getPort s (homeOf s t)).enabled = true ∨ (getPort s (homeOf s t)).armed.isSome = true →
    (getPort s (homeOf s t)).cycLost = false →
    (canGrant s t = true → exec (.grantListDeadline t) s =
      .next (emptyList t (grantLate t (if (getGTree s t).published then 1 else 0) s))) ∧
    (canGrant s t = false → exec (.grantListDeadline t) s = .next (emptyList t s))) ∧
  (∀ (s : State) (t : Nat), (getGTree (emptyList t s) t).standby = none ∧ (getGTree (emptyList t s) t).planNext = [] ∧
    (getGTree (emptyList t s) t).committed = true)

/-- BURST_MISSED, RANGING_SLOT_JUDGE and JB_WINDOW_JUDGE (R169, R175, R178, R181): a missed burst raises the terminal's count, and at `LOS_MISSES` is reported and
gives it LOS; a judged slot with one good burst gives RANGE_OK with the measured round trip, else counts a failed try; a
judged window moves the back-off exponent. -/
def Obligations.RangingJudgements : Prop :=
  (∀ (s : State) (t : Fin 64) (x : Exp) (h : Nat) (u : State), s.phase = .running →
    earliest (getRTree s t).exps = some x → h = t * 512 + x.term → (getRec s h).flagged = false → (getRec s h).miss < 15 →
    u = modRec h (fun r => { r with miss := (getRec s h).miss + 1 })
      (addCtr (rngCtr t 1) 1 (modRTree t (fun r => { r with exps := dropFirst (fun y => y = x) r.exps }) s)) →
    ((getRec s h).miss + 1 ≠ losMisses s → exec (.burstMissed t) s = .next u) ∧
    ((getRec s h).miss + 1 = losMisses s → exec (.burstMissed t) s =
      .next (blockInput h 0xA none (raise 0x513 (wordOf h) (wordOf ((getRec s h).miss + 1)) u)))) ∧
  (∀ (s : State) (t : Fin 64) (x : Exp), s.phase = .running → earliest (getRTree s t).exps = some x →
    (getRec s (t * 512 + x.term)).flagged = true ∨ (getRec s (t * 512 + x.term)).miss = 15 → exec (.burstMissed t) s =
      .next (addCtr (rngCtr t 1) 1 (modRTree t (fun r => { r with exps := dropFirst (fun y => y = x) r.exps }) s))) ∧
  (∀ (s : State) (t : Fin 64) (x : Slot) (rest : List Slot) (h : Nat) (u : State), s.phase = .running →
    (getRTree s t).slots = x :: rest → h = t * 512 + x.term → (getRec s h).flagged = false →
    (getRec s h).rangePend = true →
    u = modRTree t (fun r => { r with slots := rest, placed := r.placed.filter fun k => k ≠ x.term }) s →
    (∀ at' stamp delim, x.burst = some (at', stamp, delim) → x.garbled = 0 → 0 ≤ at' - x.base - x.eqd →
      at' - x.base - x.eqd ≤ 16777215 → exec (.rangingSlotJudge t) s =
        .next (blockInput h 8 (some { r := (at' - x.base - x.eqd).toNat, stamp := stamp, delim := delim }) u)) ∧
    (x.burst = none ∨ x.garbled ≠ 0 ∨
        (∀ at' stamp delim, x.burst = some (at', stamp, delim) → at' - x.base - x.eqd < 0 ∨ 16777215 < at' - x.base - x.eqd) →
      let v := addCtr (rngCtr t 5) 1 (modRec h (fun r => { r with tries := ((getRec s h).tries + 1) % 8 }) u)
      ((getRec s h).tries + 1 < rangeTries s → exec (.rangingSlotJudge t) s = .next v) ∧
      (rangeTries s ≤ (getRec s h).tries + 1 → exec (.rangingSlotJudge t) s =
        .next (blockInput h 9 none (raise 0x512 (wordOf h) (wordOf ((getRec s h).tries + 1)) v))))) ∧
  (∀ (s u : State) (t : Fin 64) (x : Slot) (rest : List Slot), s.phase = .running → (getRTree s t).slots = x :: rest →
    (getRec s (t * 512 + x.term)).flagged = true ∨ (getRec s (t * 512 + x.term)).rangePend = false →
    u = modRTree t (fun r => { r with slots := rest, placed := r.placed.filter fun k => k ≠ x.term }) s →
    exec (.rangingSlotJudge t) s = .next (if x.burst.isSome = true then unexpected (homeOf u t) t x.term u else u)) ∧
  (∀ (s : State) (t : Fin 64), (earliest (getRTree s t).exps = none → exec (.burstMissed t) s = .next s) ∧
    ((getRTree s t).slots = [] → exec (.rangingSlotJudge t) s = .next s) ∧
    ((getRTree s t).wins = [] → exec (.jbWindowJudge t) s = .next s)) ∧
  (∀ (s : State) (t : Fin 64) (x : Slot) (rest : List Slot), s.phase = .running → (getRTree s t).wins = x :: rest →
    x.garbled = 0 → exec (.jbWindowJudge t) s = .next (addCtr (rngCtr t 6) 1 (modRTree t (fun r =>
      { r with wins := rest, be := if x.answers = 0 then (getRTree s t).be - 1 else (getRTree s t).be,
               lastAns := min 255 x.answers, lastCol := 0 }) s))) ∧
  (∀ (s : State) (t : Fin 64) (x : Slot) (rest : List Slot) (be : Nat), s.phase = .running →
    (getRTree s t).wins = x :: rest → 1 ≤ x.garbled → be = min ((getRTree s t).be + 1) (beMax s t) →
    exec (.jbWindowJudge t) s = .next (raise 0x518 (wordOf (homeOf s t)) (wordOf (be + min 255 x.garbled * 16))
      (addCtr (rngCtr t 8) 1 (addCtr (rngCtr t 6) 1 (modRTree t (fun r =>
        { r with wins := rest, be := be, lastAns := min 255 x.answers, lastCol := min 255 x.garbled }) s)))))

/-! The Ebivios link. -/

/-- A lane's way from disabled to EXCHANGE (R38, R58, R230–R235, R258), command by command. LANE_ENABLE and LANE_DISABLE are writes of
`LNK_LANE_CTRL` with one bit changed: the bit starts DETECT, its clearing resets the lane, and no other lane is touched.
LANE_RESET_DONE ends a reset. LANE_PROBE that finds a far end starts TRAIN with preset taps; without a reference clock it is
reported once for each lane of that clock. LANE_TIME_LIMIT resets the lane and is reported. CHARACTER_ALIGNMENT gains symbol lock;
SYMBOL_LOCK_LOST counts its errors, and is reported but in TRAIN. An ordered set with a wrong CRC or of another type is counted
and ignored, by TS_RECEIVED, LK_RECEIVED, CAP_SET_RECEIVED and MARK_RECEIVED alike, and its single errors are counted. TS_RECEIVED
carries out the far end's tap requests and makes the lane's own; RECEIVER_TRAINED ends those; TRAIN ends when both receivers are
trained, LOCK when 4,096 characters and eight sets were clean. Which taps are asked for and which equaliser setting is reached are
free values. -/
def Obligations.LaneTraining : Prop :=
  (∀ (s : State) (l : Fin 16), s.phase = .running →
    exec (.laneEnable l) s = .next (eachBelow 16 (fun k u => laneSwitched k (bitOf (reg s 0x80004) k) u)
      (storeFields 0x80004 (withBit (reg s 0x80004) l true) s)) ∧
    exec (.laneDisable l) s = .next (eachBelow 16 (fun k u => laneSwitched k (bitOf (reg s 0x80004) k) u)
      (storeFields 0x80004 (withBit (reg s 0x80004) l false) s))) ∧
  (∀ (s : State) (l : Fin 16), s.phase ≠ .running →
    exec (.laneEnable l) s = .next s ∧ exec (.laneDisable l) s = .next s) ∧
  (∀ (s : State) (l : Fin 16), s.phase = .running → laneOn s l = false → (getLane s l).resetting = false → ∃ t,
    exec (.laneEnable l) s = .next t ∧ laneOn t l = true ∧ (getLane t l).st = 1 ∧
    (∀ k < 16, k ≠ l.val → laneOn t k = laneOn s k ∧ getLane t k = getLane s k)) ∧
  (∀ (s : State) (l : Fin 16), s.phase = .running → laneOn s l = true → ∃ t,
    exec (.laneDisable l) s = .next t ∧ laneOn t l = false ∧ (getLane t l).st = 0 ∧ (getLane t l).resetting = true ∧
    (∀ k < 16, k ≠ l.val → laneOn t k = laneOn s k ∧ getLane t k = getLane s k)) ∧
  (∀ (s : State) (l : Fin 16), s.phase = .running → (getLane s l).resetting = true → exec (.laneResetDone l) s =
    .next (if laneOn s l then laneTo l 1 (modLane l (fun L => { L with resetting := false }) s)
      else modLane l (fun L => { L with resetting := false }) s)) ∧
  (∀ (s u : State) (l : Fin 16) (found : Bool), s.phase = .running → (getLane s l).st = 1 →
    u = eachBelow 8 (fun i s => modLane (l / 8 * 8 + i) (fun L => { L with noClkSaid := false }) s) s →
    exec (.laneProbe l true true) s = .next (laneTo l 2 (modLane l (fun _ => {}) u)) ∧
    exec (.laneProbe l false true) s = .next u ∧
    exec (.laneProbe l found false) s = .next (noRefClk (l / 8) s)) ∧
  (∀ (s : State) (l : Fin 16), s.phase = .running → (getLane s l).st = 2 ∨ (getLane s l).st = 3 →
    exec (.laneTimeLimit l) s = .next (raise 0x811 (wordOf l) (wordOf (getLane s l).st) (laneReset l s))) ∧
  (∀ (s : State) (l : Fin 16), s.phase = .running → (getLane s l).st = 4 →
    ((getLane s l).sawBad = false ∨ (getLane s l).cap ≠ [] → exec (.laneTimeLimit l) s =
      .next (raise 0x811 (wordOf l) 4 (laneReset l s))) ∧
    ((getLane s l).sawBad = true → (getLane s l).cap = [] → exec (.laneTimeLimit l) s =
      .next (raise 0x811 (wordOf l) 4 (laneReset l (raise 0x815 (wordOf (lanePort l)) 2 s))))) ∧
  (∀ (s : State) (l : Fin 16), s.phase = .running → isSlow (getLane s l) = true →
    exec (.characterAlignment l) s = .next (modLane l (fun L => { L with symLock := true }) s)) ∧
  (∀ (s : State) (l : Fin 16) (n : Nat), s.phase = .running → isSlow (getLane s l) = true → (getLane s l).symLock = true →
    ((getLane s l).st = 2 → exec (.symbolLockLost ⟨l, n⟩) s =
      .next (modLane l (fun L => { L with symLock := false, tsSeen := 0 }) (addCtr (laneCtr l) n s))) ∧
    ((getLane s l).st ≠ 2 → exec (.symbolLockLost ⟨l, n⟩) s =
      .next (raise 0x812 (wordOf l) 3 (laneReset l (addCtr (laneCtr l) n s))))) ∧
  (∀ (s : State) (l : Fin 16) (ps : List Byte) (x : SetTail) (clean : Bool), s.phase = .running →
    isSlow (getLane s l) = true → (getLane s l).symLock = true →
    (setOk ps x = false → x.errors = 0 →
      exec (.tsReceived l ps x) s = .next (lstat (lanePort l) 23 1 s) ∧
      exec (.lkReceived l ps x clean) s = .next (lstat (lanePort l) 23 1 s) ∧
      exec (.capSetReceived l ps x) s = .next (lstat (lanePort l) 23 1 s) ∧
      exec (.markReceived l ps x) s = .next (lstat (lanePort l) 23 1 s)) ∧
    (setOk ps x = false → x.errors ≠ 0 →
      exec (.tsReceived l ps x) s = .next (lstat (lanePort l) 23 1 (addCtr (laneCtr l) x.errors s))) ∧
    (x.type ≠ 0xB5 → x.errors = 0 → exec (.tsReceived l ps x) s = .next (lstat (lanePort l) 23 1 s))) ∧
  (∀ (s : State) (l : Fin 16) (ps : List Byte) (x : SetTail), s.phase = .running → isSlow (getLane s l) = true →
    (getLane s l).symLock = true → (getLane s l).st = 2 → x.type = 0xB5 → setOk ps x = true → x.errors = 0 →
    exec (.tsReceived l ps x) s = .next (trainEnd l (drawn (modLane l (fun L =>
      askNext (psAt ps 2) (Config.tapRequest s.freeCtr).toNat { tapHandshake (psAt ps 1) L with
        tsSeen := if psAt ps 3 % 2 = 1 then sat 8 (L.tsSeen + 1) else 0 }) s)))) ∧
  (∀ (s : State) (l : Fin 16), s.phase = .running → (getLane s l).st = 2 →
    ((getLane s l).req = 0 → exec (.receiverTrained l) s = .next (trainEnd l (drawn (modLane l (fun L =>
      { L with trained := true, ctle := (Config.ctle s.freeCtr).toNat }) s)))) ∧
    ((getLane s l).req ≠ 0 → exec (.receiverTrained l) s = .next s)) ∧
  (∀ (s u : State) (l : Fin 16) (ps : List Byte) (x : SetTail) (clean : Bool) (n : Nat), s.phase = .running →
    isSlow (getLane s l) = true → (getLane s l).symLock = true → (getLane s l).st = 3 → x.type = 0xC6 →
    setOk ps x = true → x.errors = 0 → n = (if psAt ps 1 % 2 = 1 then sat 8 ((getLane s l).lkSeen + 1) else 0) →
    u = modLane l (fun L => { L with lkSeen := n, locked := L.locked || clean }) s →
    exec (.lkReceived l ps x clean) s = .next
      (if ((getLane s l).locked = true ∨ clean = true) ∧ 8 ≤ n then laneTo l 4 u else u))

/-- From EXCHANGE to ACTIVE, and back (R46, R58, R235–R241). CAP_SET_RECEIVED takes a valid set, and acknowledges from the third
identical one; MARK_RECEIVED starts the countdown that RATE_SWITCH ends; BLOCK_LOCK makes the lane ACTIVE and LANE_ALIGNED lets its
port come up; BLOCK_LOCK_LOST and ALIGNMENT_LOST are reported and reset the lane, LANE_RECOVERED_CLOCK_LOST resets it;
INVALID_BLOCK is counted, and ends the message in progress. -/
def Obligations.LaneToActive : Prop :=
  (∀ (s : State) (l : Fin 16) (ps : List Byte) (x : SetTail) (same : Nat), s.phase = .running →
    isSlow (getLane s l) = true → (getLane s l).symLock = true → (getLane s l).st = 4 → setOk ps x = true → x.errors = 0 →
    same = (if (getLane s l).cap = capSet ps then sat 3 ((getLane s l).capSame + 1) else 1) →
    (x.type = 0xD7 → psAt ps 1 = 0x11 → exec (.capSetReceived l ps x) s = .next (modLane l (fun L =>
      { L with cap := capSet ps, capSame := same, ack := (getLane s l).ack || decide (3 ≤ same),
               farAck := L.farAck || decide (psAt ps 10 % 2 = 1) }) s)) ∧
    (x.type = 0xD7 → psAt ps 1 ≠ 0x11 → exec (.capSetReceived l ps x) s =
      .next (modLane l (fun L => { L with sawBad := true, capSame := 0 }) s)) ∧
    (x.type = 0xE8 → exec (.markReceived l ps x) s =
      .next (modLane l (fun L => { L with markLeft := some (psAt ps 1 % 8) }) s))) ∧
  (∀ (s : State) (l : Fin 16), s.phase = .running → (getLane s l).st = 4 → (getLane s l).markLeft.isSome = true →
    exec (.rateSwitch l) s = .next (modLane l (fun L => { L with full := true, markLeft := none, symLock := false }) s)) ∧
  (∀ (s : State) (l : Fin 16), s.phase = .running → (getLane s l).st = 4 → (getLane s l).full = true →
    exec (.blockLock l) s = .next (tryUp (lanePort l) (laneTo l 5 s))) ∧
  (∀ (s : State) (l : Fin 16) (pos : Fin 4), s.phase = .running → (getLane s l).st = 5 →
    exec (.laneAligned ⟨l, pos⟩) s =
      .next (tryUp (lanePort l) (modLane l (fun L => { L with aligned := true, wakeLock := false, pos := pos }) s))) ∧
  (∀ (s : State) (l : Fin 16) (n : Nat), s.phase = .running → (getLane s l).st = 5 →
    (getCPort s (lanePort l)).rxAsleep = false →
    exec (.blockLockLost ⟨l, n⟩) s = .next (raise 0x812 (wordOf l) 0 (laneReset l (addCtr (laneCtr l) n s))) ∧
    exec (.alignmentLost l) s = .next (raise 0x812 (wordOf l) 1 (laneReset l s))) ∧
  (∀ (s : State) (l : Fin 16), s.phase = .running → 2 ≤ (getLane s l).st →
    exec (.laneRecoveredClockLost l) s = .next (laneReset l s)) ∧
  (∀ (s u : State) (l : Fin 16) (x : RxBlocks) (b : Option Block) (st : BitVec 58), s.phase = .running →
    (getLane s l).st = 5 → readLine (getLane s l).rxScr x.line = (some b, st) →
    u = modLane l (fun L => { L with rxScr := st }) s →
    (badBlock b = false → x.poison = 0 → exec (.invalidBlock l x) s = .next u) ∧
    (badBlock b = true ∨ x.poison ≠ 0 → x.mid = true → (getCPort s (lanePort l)).up = true → exec (.invalidBlock l x) s =
      .next (parityError x.poison 5 l (lstat (lanePort l) 9 1 (addCtr (laneCtr l) 1 u)))) ∧
    (badBlock b = true ∨ x.poison ≠ 0 → x.mid = false ∨ (getCPort s (lanePort l)).up = false →
      exec (.invalidBlock l x) s = .next (parityError x.poison 5 l (addCtr (laneCtr l) 1 u))))

/-- Sending (R243, R247, R248). LINK_TRANSMIT, on an up and awake port, ends the message in progress and starts the next by rank, first
ACK and PAUSE, then time messages, then retransmissions, then the link's own control messages, which take a number, and last the
waiting messages by class; a class that the far end has paused starts none of those that take cells. ACK_RECEIVED releases what
it covers; one that reports a gap, or RETRANSMIT_TIMEOUT, brings the rest again, reported once an episode, which RETX_EPISODE_END
ends. ACK_TIMER sends the ACK that is due. -/
def Obligations.LinkSending : Prop :=
  (∀ (s : State) (x : LinkSend), (getCPort s x.c).up = false ∨ (getCPort s x.c).asleep = true →
    exec (.linkTransmit x) s = .next s) ∧
  (∀ (s : State) (x : LinkSend), s.phase = .running → (getCPort s x.c).up = true → (getCPort s x.c).asleep = false →
    (∀ m, (getCPort s x.c).cur = some m → exec (.linkTransmit x) s =
      .next (nextMsg x.c x.sub (finishMsg x.c (sendMsg x.c x.bad m (access 213 s))))) ∧
    ((getCPort s x.c).cur = none → exec (.linkTransmit x) s = .next (nextMsg x.c x.sub (access 213 s)))) ∧
  (∀ (s : State) (c sub : Nat) (m : Msg), (getCPort s c).txq.find? (fun m => isUrgent m.body) = some m ∨
    ((getCPort s c).txq.find? (fun m => isUrgent m.body) = none ∧
      (getCPort s c).txq.find? (fun m => isTime m.body) = some m) →
    nextMsg c sub s = startMsg c sub m (modCPort c (fun C => { C with txq := dropFirst (fun x => x = m) C.txq }) s)) ∧
  (∀ (s : State) (c sub : Nat) (m : Msg) (r : List Msg), (getCPort s c).txq.find? (fun m => isUrgent m.body) = none →
    (getCPort s c).txq.find? (fun m => isTime m.body) = none → held (getCPort s c) m = false →
    ((getCPort s c).retx = m :: r →
      nextMsg c sub s = startMsg c sub m (lstat c 14 1 (modCPort c (fun C => { C with retx := r }) s))) ∧
    ((getCPort s c).retx = [] → (getCPort s c).txq = m :: r → (getCPort s c).unacked.length < 128 → nextMsg c sub s =
      startMsg c sub (numbered c m (modCPort c (fun C => { C with txq := r }) s)).1
        (numbered c m (modCPort c (fun C => { C with txq := r }) s)).2)) ∧
  (∀ (s : State) (c sub : Nat), (getCPort s c).txq = [] → (getCPort s c).retx = [] →
    (pickOut (purgeOut s) c = none → nextMsg c sub s = purgeOut s) ∧
    (∀ m u, pickOut (purgeOut s) c = some m → u = State.modLnk (fun l =>
        { l with out := dropFirst (fun x => sameMsg x m) l.out }) (purgeOut s) →
      nextMsg c sub s = startMsg c sub (numbered c m u).1 (numbered c m u).2)) ∧
  (∀ (s : State) (c k : Nat) (m : Msg), pickOut s c = some m → m.cls = k → tfind (getCPort s c).paused k = none) ∧
  (∀ (s u : State) (c : Fin 4) (next : Word), s.phase = .running → (getCPort s c).up = true →
    u = modCPort c (fun C => { C with unacked := C.unacked.filter fun m => decide (seqGap m.seq next.toNat < 2147483648),
                                      retx := C.retx.filter fun m => decide (seqGap m.seq next.toNat < 2147483648) })
      (lstat c 3 28 (lstat c 2 1 s)) →
    exec (.ackReceived c next false) s = .next u ∧ exec (.ackReceived c next true) s = .next (retransmit c u)) ∧
  (∀ (s : State) (c : Fin 4) (m : Msg) (r : List Msg), s.phase = .running → (getCPort s c).up = true →
    (getCPort s c).unacked = m :: r →
    ((getCPort s c).retxEp = false → exec (.retransmitTimeout c) s =
      .next (raise 0x81A (wordOf c) (wordOf m.seq) (modCPort c (fun C => { C with retx := m :: r, retxEp := true }) s))) ∧
    ((getCPort s c).retxEp = true → exec (.retransmitTimeout c) s =
      .next (modCPort c (fun C => { C with retx := m :: r, retxEp := true }) s))) ∧
  (∀ (s : State) (c : Fin 4), exec (.retxEpisodeEnd c) s = .next (modCPort c (fun C => { C with retxEp := false }) s)) ∧
  (∀ (s : State) (c : Fin 4), s.phase = .running → (getCPort s c).up = true →
    (0 < (getCPort s c).accepted → exec (.ackTimer c) s = .next (pushOwn c (linkHops s) (.ack (getCPort s c).expect false)
      (modCPort c (fun C => { C with accepted := 0 }) s))) ∧
    ((getCPort s c).accepted = 0 → exec (.ackTimer c) s = .next s))

/-- Receiving (R242, R246, R248, R249, R253, R254, R256). DATA_RECEIVED: a message of a class that the port does not accept is
discarded; DATA for this instance waits in the receive store for buffers, and for another is forwarded while it has hops; without
room it is counted and reported. SNAP_RECEIVED and CAP_RECEIVED in order are accepted and carried out. INVALID_MESSAGE_RECEIVED
counts the check that fails, and reports a wrong CRC at most once a millisecond. TRANSIT_TIMEOUT discards a forwarded message that
stays past its time. -/
def Obligations.LinkReceiving : Prop :=
  (∀ (s u : State) (c : Fin 4) (h : MsgHdr) (d : DataMsg), s.phase = .running → (getCPort s c).up = true →
    u = countRx c (16 + d.bytes.length) (access 213 s) →
    (bitOf (portCfg s c) h.cls = false → exec (.dataReceived c h d) s = .next s) ∧
    (bitOf (portCfg s c) h.cls = true → 8192 < storeUsed (getCPort u c) + cellsOf (36 + d.bytes.length) →
      exec (.dataReceived c h d) s = .next (raise 0x81E (wordOf c) (wordOf h.cls) (lstat c 10 1 u))) ∧
    (bitOf (portCfg s c) h.cls = true → storeUsed (getCPort u c) + cellsOf (36 + d.bytes.length) ≤ 8192 →
      (h.dest = ownInstance u → exec (.dataReceived c h d) s = .next (dataHere c h d u)) ∧
      (h.dest ≠ ownInstance u → h.hops = 0 → exec (.dataReceived c h d) s =
        .next (raise 0x818 (wordOf c) (wordOf h.origin) (lstat c 12 1 u))) ∧
      (h.dest ≠ ownInstance u → h.hops ≠ 0 → exec (.dataReceived c h d) s = .next (forward c h (.data d) u)))) ∧
  (∀ (s u : State) (c : Fin 4) (bs : List Byte), s.phase = .running → (getCPort s c).up = true → u = lstat c 8 1 s →
    (msgFault bs = 0 → exec (.invalidMessageReceived c bs) s = .next s) ∧
    (msgFault bs = 2 ∨ msgFault bs = 3 → exec (.invalidMessageReceived c bs) s = .next (lstat c 9 1 s)) ∧
    (msgFault bs = 1 → (∀ t, (getCPort u c).crcAt = some t → t + 1000000 ≤ u.uptime) →
      exec (.invalidMessageReceived c bs) s =
        .next (raise 0x819 (wordOf c) 0 (modCPort c (fun C => { C with crcAt := some u.uptime }) u))) ∧
    (∀ t, msgFault bs = 1 → (getCPort u c).crcAt = some t → u.uptime < t + 1000000 →
      exec (.invalidMessageReceived c bs) s = .next u)) ∧
  (∀ (s u : State) (c : Fin 4) (h : MsgHdr) (n : BitVec 16) (sec ns : Nat), s.phase = .running → Accepted c h 12 s u →
    exec (.snapReceived c h n sec ns) s = .next (storeFree c u.lnk.storeNext (snapIn c h n.toNat sec ns
      (hold c h.cls 12 { body := .snap n.toNat sec ns } true u)))) ∧
  (∀ (s u : State) (c : Fin 4) (h : MsgHdr) (ps : List Byte), s.phase = .running → Accepted c h 12 s u →
    exec (.capReceived c h ps) s = .next (storeFree c u.lnk.storeNext (capMsgIn c ps
      (hold c h.cls 12 { body := .cap ps } true u)))) ∧
  (∀ (s : State) (c : Fin 4) (e : Stored), s.phase = .running →
    (getCPort s c).store.find? (fun e => !e.local_ && s.lnk.out.any fun m => m.store = some (c.val, e.id)) = some e →
    exec (.transitTimeout c) s = .next (raise 0x81D (wordOf c) (wordOf e.msg.dest) (lstat c 13 1 (storeFree c e.id
      { s with lnk := { s.lnk with out := s.lnk.out.filter fun m => m.store ≠ some (c.val, e.id) } })))) ∧
  (∀ (s : State) (c : Fin 4), s.phase = .running →
    (getCPort s c).store.find? (fun e => !e.local_ && s.lnk.out.any fun m => m.store = some (c.val, e.id)) = none →
    exec (.transitTimeout c) s = .next s)

/-- Pauses and sleep (R254, R255, R257, R305). PAUSE_RECEIVED sets or ends the pause of each class that it enables; PAUSE_EXPIRY ends
one by its time; PAUSE_REFRESH pauses a class again that still holds its cells. SLEEP_RECEIVED suspends the lock checks until
WAKE_RECEIVED, which wakes the lane domains, and after which the lanes must lock in time, or LPI_WAKE_TIMEOUT resets them.
LPI_ENTER: the own transmitter sleeps when it has no work, after its SLEEP blocks; LPI_WAKE: it wakes with its work, with WAKE
blocks and a row of ALIGN. -/
def Obligations.LinkPausesAndSleep : Prop :=
  (∀ (s : State) (c : Fin 4) (enable : Byte) (quanta : List (BitVec 16)), s.phase = .running →
    ((getCPort s c).up = false → exec (.pauseReceived c enable quanta) s = .next s) ∧
    ((getCPort s c).up = true → exec (.pauseReceived c enable quanta) s = .next (eachBelow 8 (fun k s =>
      if enable.toNat / 2 ^ k % 2 = 0 then s
      else modCPort c (fun C => { C with
        paused := tput C.paused k (if (quanta.getD k 0).toNat = 0 then none else some (quanta.getD k 0).toNat) }) s)
      (lstat c 17 1 (countRx c 18 (access 213 s)))))) ∧
  (∀ (s : State) (c : Fin 4) (enable : Byte) (quanta : List (BitVec 16)), s.phase = .running → (getCPort s c).up = true →
    ∃ t, exec (.pauseReceived c enable quanta) s = .next t ∧ t.lnk.lanes = s.lnk.lanes ∧
    ∀ k < 8, tfind (getCPort t c).paused k =
      if enable.toNat / 2 ^ k % 2 = 0 then tfind (getCPort s c).paused k
      else if (quanta.getD k 0).toNat = 0 then none else some (quanta.getD k 0).toNat) ∧
  (∀ (s : State) (c : Fin 4) (k : Fin 8), s.phase = .running →
    exec (.pauseExpiry c k) s = .next (modCPort c (fun C => { C with paused := tput C.paused k none }) s)) ∧
  (∀ (s : State) (c : Fin 4) (k : Fin 8), s.phase = .running → (getCPort s c).up = true →
    (getCPort s c).xoffs.contains k.val = true → xonOf s c k ≤ occupancy (getCPort s c) k →
    exec (.pauseRefresh c k) s = .next (pushOwn c (linkHops s) (.pause k 0xFFFF) s)) ∧
  (∀ (s : State) (c : Fin 4), s.phase = .running → (getCPort s c).up = true →
    exec (.sleepReceived c) s = .next (modCPort c (fun C => { C with rxAsleep := true }) s)) ∧
  (∀ (s : State) (c : Fin 4), s.phase = .running →
    ((getCPort s c).rxAsleep = false → exec (.wakeReceived c) s = .next s) ∧
    ((getCPort s c).rxAsleep = true → exec (.wakeReceived c) s =
      .next (eachBelow 4 (fun i s => modLane (4 * c + i) (fun L => { L with wakeLock := true }) s)
        (wakeLanes c (modCPort c (fun C => { C with rxAsleep := false }) s))))) ∧
  (∀ (s : State) (c : Fin 4), s.phase = .running → (getCPort s c).rxAsleep = true → ∃ t,
    exec (.wakeReceived c) s = .next t ∧ (getCPort t c).rxAsleep = false ∧
    (∀ i < 4, getLane t (4 * c + i) = { getLane s (4 * c + i) with wakeLock := true } ∧
      (laneOn s (4 * c + i) = true → getDom t (128 + 4 * c + i) = (getDom s (128 + 4 * c + i)).roused)) ∧
    t = { s with lnk := { s.lnk with lanes := t.lnk.lanes, ports := t.lnk.ports }, pwr := { s.pwr with doms := t.pwr.doms } }) ∧
  (∀ (s : State) (c : Fin 4), s.phase = .running → (getCPort s c).up = true → (getCPort s c).asleep = false →
    lpiIdle s c ≠ 0 → hasWork s c = false → exec (.lpiEnter c) s = .next (lstat c 21 1 (modCPort c (fun C =>
      { C with asleep := true }) (putBlocks c (List.replicate 64 sleepBlock) (fillRow c (newLines c s)))))) ∧
  (∀ (s u : State) (c : Fin 4), s.phase = .running → (getCPort s c).asleep = true → hasWork s c = true →
    u = wakeLanes c s → exec (.lpiWake c) s = .next (alignRow c (modCPort c (fun C => { C with asleep := false })
      (eachBelow (4 * wakeRows u c) (fun k s => putLane (4 * c + k % 4) wakeBlock s) (newLines c u))))) ∧
  (∀ (s : State) (c : Fin 4), s.phase = .running → (getCPort s c).asleep = true → hasWork s c = false →
    exec (.lpiWake c) s = .next s) ∧
  (∀ (s : State) (l : Fin 16), s.phase = .running → (getLane s l).st = 5 → (getLane s l).wakeLock = true →
    exec (.lpiWakeTimeout l) s = .next (raise 0x812 (wordOf l) 2 (laneReset l s)))

/-- Time exchanges (R250, R251), a command each. TIME_EXCHANGE_START: a master's exchange starts with a Sync, whose answer comes with
the receive stamp of DELAY_REQ_RECEIVED. SYNC_RECEIVED: a slave stamps the Sync, takes t1 at FOLLOW_UP_RECEIVED, and holds the
results at DELAY_RESP_RECEIVED, or counts and reports them lost while the last ones are held. TIME_EXCHANGE_TIMEOUT: an exchange
that does not end in time is counted as failed. -/
def Obligations.TimeExchange : Prop :=
  (∀ (s : State) (c : Fin 4), s.phase = .running → (getCPort s c).up = true → master s c = true → timeIvl s c ≠ 0 →
    (getCPort s c).exch = none → exec (.timeExchangeStart c) s =
      .next (pushOwn c 0 (.time 0 (getCPort s c).seqId {}) (modCPort c (fun C =>
        { C with seqId := (C.seqId + 1) % 65536, exch := some { step := 1, seqId := (getCPort s c).seqId } }) s))) ∧
  (∀ (s u : State) (c : Fin 4) (n : BitVec 16) (sub : Fin 16), s.phase = .running → (getCPort s c).up = true →
    u = countRx c 20 (access 213 s) →
    (slave s c = true → exec (.syncReceived c n sub) s =
      .next (modExch c (some { step := 3, seqId := n.toNat, t2 := rxStamp s c sub }) u)) ∧
    (slave s c = false → exec (.syncReceived c n sub) s = .next u) ∧
    (∀ x, master s c = true → (getCPort u c).exch = some x → x.step = 2 → x.seqId = n.toNat →
      exec (.delayReqReceived c n sub) s =
        .next (pushOwn c 0 (.time 9 n.toNat (rxStamp u c sub)) (lstat c 19 1 (modExch c none u))))) ∧
  (∀ (s u : State) (c : Fin 4) (n : BitVec 16) (t : LinkStamp) (x : Exch), s.phase = .running →
    (getCPort s c).up = true → slave s c = true → u = countRx c 20 (access 213 s) → (getCPort u c).exch = some x →
    x.seqId = n.toNat →
    (x.step = 3 → exec (.followUpReceived c n t) s =
      .next (pushOwn c 0 (.time 1 n.toNat {}) (modExch c (some { x with step := 4, t1 := stampOf t }) u))) ∧
    (x.step = 5 → exec (.delayRespReceived c n t) s = .next (timeResult c x (stampOf t) u))) ∧
  (∀ (s : State) (c : Fin 4) (x : Exch) (t : FullStamp),
    ((getCPort s c).resValid = false → timeResult c x t s = raise 0x81B (wordOf c) (wordOf x.seqId) (lstat c 19 1
      (modCPort c (fun C => { C with resValid := true, resSeq := x.seqId, res := [x.t1, x.t2, x.t3, t] })
        (modExch c none s)))) ∧
    ((getCPort s c).resValid = true → timeResult c x t s =
      raise 0x81C (wordOf c) (wordOf x.seqId) (lstat c 20 1 (modExch c none s)))) ∧
  (∀ (s : State) (c : Fin 4), s.phase = .running → (getCPort s c).exch.isSome = true →
    exec (.timeExchangeTimeout c) s = .next (lstat c 20 1 (modExch c none s)))

/-! Protection switching and migration. -/

/-- Re-homing (R35, R264, R265, R269). PROT_SWITCH: a pulse on a port with no tree of its own is only noted; with another reaction than
PROTECTION_REHOME it is reported; with it, and a side to change to, the tree is frozen and the conditions are checked, a local
partner waking at the pulse; an indication dropped on its way is reported (R46). REHOME_REBIND moves a tree to its local partner,
equalises its records and takes the side that the tree was not on, and runs once more when the target has changed meanwhile.
REHOME_RESUME ends it, reported with its time. -/
def Obligations.Rehoming : Prop :=
  let noted := fun (s : State) (p : Nat) (side : Bool) =>
    modPort p (fun P => { P with protSide := side, lastProt := some s.uptime }) s
  (∀ (s : State) (p : Fin 64) (side : Bool), s.phase = .running →
    (reads (getPort s p) = false → exec (.protSwitch ⟨p, false⟩ side) s = .next s) ∧
    (reads (getPort s p) = true → exec (.protSwitch ⟨p, true⟩ side) s = .next (raise 0xA30 8 (wordOf p) s)) ∧
    (reads (getPort s p) = true → pulseTree (noted s p side) p = none →
      exec (.protSwitch ⟨p, false⟩ side) s = .next (noted s p side))) ∧
  (∀ (s u : State) (p : Fin 64) (side : Bool) (t : Nat), s.phase = .running → reads (getPort s p) = true →
    u = noted s p side → pulseTree u p = some t → (getProt u t).phase = 0 →
    (pbReaction (pbEntry u 0x215) ≠ 7 → exec (.protSwitch ⟨p, false⟩ side) s =
      .next (raise 0x215 (wordOf p) (wordOf (t + ofBit side * 256)) u)) ∧
    (pbReaction (pbEntry u 0x215) = 7 → (getPort u (homeOf u t)).held = true → exec (.protSwitch ⟨p, false⟩ side) s =
      .next (raise 0x215 (wordOf p) (wordOf (t + ofBit side * 256)) (reacted false u))) ∧
    (∀ v, pbReaction (pbEntry u 0x215) = 7 → (getPort u (homeOf u t)).held = false → (getPort s p).lastProt = none →
      pulseStarts (reacted true u) p t side false = true →
      v = modProt t (fun r => { r with phase := 1, target := side, t0 := u.uptime, equalised := false }) (reacted true u) →
      (protKind u t ≠ 1 → exec (.protSwitch ⟨p, false⟩ side) s = .next (rehomeCheck t
        (raise 0x215 (wordOf p) (wordOf (t + ofBit side * 256)) (freeze t v)))) ∧
      (protKind u t = 1 → (getPort u (otherHome v t)).enabled = true → exec (.protSwitch ⟨p, false⟩ side) s =
        .next (rehomeCheck t (raise 0x215 (wordOf p) (wordOf (t + ofBit side * 256))
          (freeze t (startWake (64 + otherHome v t) (startWake (otherHome v t) v)))))))) ∧
  (∀ (s : State) (t : Nat), rehomeFault s t = none →
    (protKind s t ≠ 2 → rehomeCheck t s = s) ∧
    (protKind s t = 2 → rehomeCheck t s = migStart t (protInstance s t) none s)) ∧
  (∀ (s : State) (t k : Nat), rehomeFault s t = some k → rehomeCheck t s = rehomeFail t k s) ∧
  (∀ (s : State) (t : Fin 64), s.phase = .running → (getProt s t).phase = 1 → protKind s t = 1 →
    (getPort s (otherHome s t)).good = false → exec (.rehomeRebind t) s = .next (rehomeFail t 0 s)) ∧
  (∀ (s v w : State) (t : Fin 64) (goal : Bool), s.phase = .running → (getProt s t).phase = 1 →
    protKind s t ≠ 1 ∨ (getPort s (otherHome s t)).good = true → goal = !(getProt s t).side →
    v = (if protKind s t = 1 then rebind t (downCut (homeOf s t) s) else s) → w = equalise t (deltaTo s t goal) goal v →
    ((getProt s t).target = goal → exec (.rehomeRebind t) s = .next (resumeParked (fun x => x.tree = t)
      (modProt t (fun x => { x with side := goal, phase := 2, equalised := true }) w))) ∧
    ((getProt s t).target ≠ goal → exec (.rehomeRebind t) s = .next (modProt t (fun x => { x with side := goal }) w))) ∧
  (∀ (s : State) (t : Fin 64), s.phase = .running → (getProt s t).phase = 2 → (getProt s t).equalised = true →
    ((getProt s t).target ≠ (getProt s t).side → exec (.rehomeResume t) s =
      .next (freeze t (modProt t (fun x => { x with phase := 1, equalised := false }) s))) ∧
    (∀ u, (getProt s t).target = (getProt s t).side → u = addCtr (protCtr 0) 1 (treeResumes t s) →
      exec (.rehomeResume t) s =
        .next (raise 0x231 (wordOf t) (wordOf ((u.uptime - (getProt s t).t0) / 1000)) u)))

/-- Migration (R252, R270–R273). At the source: MIGRATE_OUT freezes the tree; MIGRATION_DRAIN_END reads the list of flows, and, with
the list, sends the messages; MIG_DONE_RECEIVED closes or fails it, and MIG_DONE_TIMEOUT asks for one that stays out once more and
then fails it. At the destination: MIGRATE_IN arms the port; MIG_BEGIN_RECEIVED, MIG_TERMINAL_RECEIVED, MIG_FLOW_RECEIVED and
MIG_END_RECEIVED in order install the records and flows, and what is missing undoes the installation; so do MIG_END_TIMEOUT and
CANCEL_IN. A message for another instance is forwarded. -/
def Obligations.Migration : Prop :=
  (∀ (s : State) (q : Fin 64) (idx : Word) (a : Adm) (t : Nat), s.phase = .running → AtTurn s q idx 0x71 a →
    treeOn s (target a) = some t → portState (getPort s (target a)) = 1 ∨ portState (getPort s (target a)) = 4 →
    portBusy s (target a) = false → exec (.migrateOut q idx) s =
      .next (migStart t (aParam a.ws).toNat (some (a.q, a.idx)) (freeze t (admHold a s)))) ∧
  (∀ (s : State) (q : Fin 64) (idx : Word) (a : Adm), s.phase = .running → AtTurn s q idx 0x71 a →
    treeOn s (target a) = none ∨ portBusy s (target a) = true ∨
      (portState (getPort s (target a)) ≠ 1 ∧ portState (getPort s (target a)) ≠ 4) →
    exec (.migrateOut q idx) s = .next (admDone a.q a.idx 2 [] s)) ∧
  (∀ (s u : State) (t : Fin 64) (m : MigOut) (n : Nat), s.phase = .running → (getProt s t).mig = some m →
    (getProt s t).phase = 3 →
    (m.cmd = none → (getProt s t).target = (getProt s t).side →
      exec (.migrationDrainEnd t none) s = .next (treeResumes t s)) ∧
    (m.cmd.isSome = true ∨ (getProt s t).target ≠ (getProt s t).side → n = bitsOf (reg s (0x10080 + t * 0x400)) 0 15 →
      u = modProt t (fun r => { r with phase := 4, mig := some { m with terms := migTerms s t, count := n } }) s →
      (n = 0 → exec (.migrationDrainEnd t none) s = .next (listIn t [] u)) ∧
      (n ≠ 0 → exec (.migrationDrainEnd t none) s = .next (fabRead (.migList t) (migListAddr s t) (8 * n) u)))) ∧
  (∀ (s u : State) (t : Fin 64) (m : MigOut) (list : List (Word × Word)), s.phase = .running → (getProt s t).mig = some m →
    (getProt s t).phase = 4 → reading s (.migList t) = true → list.length = m.count →
    u = returnReads (fun x => x = .migList t) s → exec (.migrationDrainEnd t (some list)) s =
      .next (migSend t (modMig t (fun x => { x with flows := migEntries u list })
        (addCtr (protCtr 5) (list.length - (migEntries u list).length) u)))) ∧
  (∀ (s : State) (t : Fin 64) (m : MigOut), s.phase = .running → (getProt s t).mig = some m → (getProt s t).phase = 4 →
    m.ended = true →
    (m.attempt = 0 → exec (.migDoneTimeout t) s = .next (migSend t (modMig t (fun x => { x with attempt := 1 }) s))) ∧
    (m.attempt ≠ 0 → exec (.migDoneTimeout t) s = .next (migFail t 0xFF m s))) ∧
  (∀ (s : State) (q : Fin 64) (idx : Word) (fc : FramerConst) (a : Adm), s.phase = .running → AtTurn s q idx 0x72 a →
    (portState (getPort s (target a)) ≠ 0 ∨ (getPort s (target a)).good = false →
      exec (.migrateIn q idx fc) s = .next (admDone a.q a.idx 2 [] s)) ∧
    (portState (getPort s (target a)) = 0 → (getPort s (target a)).good = true → constsOk s (target a) fc = false →
      exec (.migrateIn q idx fc) s = .next (admDone a.q a.idx 4 [] s)) ∧
    (∀ v w, portState (getPort s (target a)) = 0 → (getPort s (target a)).good = true → constsOk s (target a) fc = true →
      v = State.modTpt (fun x => { x with migIn := tput x.migIn (target a) (some { origin := (aParam a.ws).toNat, mid := 0 }) })
        (modPort (target a) (fun P =>
          { P with armed := some (a.q, a.idx), consts := some fc, sPulse := none, cycLost := false }) (admHold a s)) →
      (treeOn v (target a) = none → w = v) → (∀ t, treeOn v (target a) = some t → w = restartTree t v) →
      exec (.migrateIn q idx fc) s = .next (modProt (target a) (fun r => if r.phase = 0 then { r with phase := 5 } else r)
        (wakePort (target a) w)))) ∧
  (∀ (s u : State) (c : Fin 4) (h : MsgHdr), s.phase = .running →
    (∀ b, Accepted c h 12 s u → h.dest = ownInstance u → exec (.migBeginReceived c h b) s =
      .next (storeFree c u.lnk.storeNext (migBeginIn h.origin b (hold c h.cls 12 { body := .migBegin b } true u)))) ∧
    (∀ (mid : BitVec 16) (k : Fin 512) ws, Accepted c h 68 s u → h.dest = ownInstance u →
      exec (.migTerminalReceived c h mid k ws) s = .next (storeFree c u.lnk.storeNext
        (migTermIn h.origin mid.toNat k ws (hold c h.cls 68 { body := .migTerm mid.toNat k ws } true u)))) ∧
    (∀ (mid : BitVec 16) (f : Fin 262144) ws, Accepted c h 136 s u → h.dest = ownInstance u →
      exec (.migFlowReceived c h mid f ws) s = .next (storeFree c u.lnk.storeNext
        (migFlowIn h.origin mid.toNat f ws (hold c h.cls 136 { body := .migFlow mid.toNat f ws } true u)))) ∧
    (∀ (mid : BitVec 16) (n k : Nat), Accepted c h 8 s u → h.dest = ownInstance u →
      exec (.migEndReceived c h mid n k) s = .next (storeFree c u.lnk.storeNext
        (migEndIn h.origin mid.toNat n k (hold c h.cls 8 { body := .migEnd mid.toNat n k } true u)))) ∧
    (∀ (mid : BitVec 16) (st : Byte), Accepted c h 4 s u → h.dest = ownInstance u →
      exec (.migDoneReceived c h mid st) s = .next (storeFree c u.lnk.storeNext
        (migDoneIn h.origin mid.toNat st.toNat (hold c h.cls 4 { body := .migDone mid.toNat st.toNat } true u))))) ∧
  (∀ (s u : State) (c : Fin 4) (h : MsgHdr), s.phase = .running → h.dest ≠ ownInstance u →
    (∀ b, Accepted c h 12 s u → exec (.migBeginReceived c h b) s = .next (forward c h (.migBegin b) u)) ∧
    (∀ (mid : BitVec 16) (k : Fin 512) ws, Accepted c h 68 s u →
      exec (.migTerminalReceived c h mid k ws) s = .next (forward c h (.migTerm mid.toNat k ws) u)) ∧
    (∀ (mid : BitVec 16) (f : Fin 262144) ws, Accepted c h 136 s u →
      exec (.migFlowReceived c h mid f ws) s = .next (forward c h (.migFlow mid.toNat f ws) u)) ∧
    (∀ (mid : BitVec 16) (n k : Nat), Accepted c h 8 s u →
      exec (.migEndReceived c h mid n k) s = .next (forward c h (.migEnd mid.toNat n k) u)) ∧
    (∀ (mid : BitVec 16) (st : Byte), Accepted c h 4 s u →
      exec (.migDoneReceived c h mid st) s = .next (forward c h (.migDone mid.toNat st.toNat) u))) ∧
  (∀ (s : State) (origin mid term p : Nat) (ws : List Word), migPort s origin mid = some p →
    (getRec s (p * 512 + term)).state = 0 → (getRec s (p * 512 + term)).flagged = false →
    getRec (migTermIn origin mid term ws s) (p * 512 + term) = shiftRec (protDelta s p) (recOf ws)) ∧
  (∀ (s : State) (p : Fin 64) (m : MigIn), s.phase = .running → getMigIn s p = some m →
    (m.begun = true → m.ended = false → exec (.migEndTimeout p) s = .next (uninstall p s)) ∧
    (m.begun = false ∨ m.ended = true → exec (.migEndTimeout p) s = .next s)) ∧
  (∀ (s : State) (p : Fin 64), s.phase = .running → exec (.cancelIn p) s =
    .next (cancelIn p (storeFields (0x10088 + p * 0x400) 1 s))) ∧
  (∀ (s : State) (p q : Nat) (idx : Word), (getPort s p).armed = some (q, idx) → cancelIn p s =
    admDone q idx 7 [] (portOff p (State.modTpt (fun x => { x with migIn := tput x.migIn p none })
      (modProt p (fun r => if r.phase = 5 then { r with phase := 0 } else r) (uninstall p s)))))

/-! The time island, its rings, and the monitor. -/

/-- The time island (R37, R47, R212, R214–R216, R225–R228). TIME_REF_LOST and TIME_REF_RESTORED show in its bits and are reported, while
the time base runs on; CAPTURE_CALIBRATION is counted. TIME_STEP, once, sets the value it gives in place of an edge's increment:
every held time moves with it, it is reported, launch times end, the whistles are set again and the bandwidth window ends;
TIME_RATE sets the rate; TIM_NOW_SNAP takes one consistent set. WHISTLE_SET sets a programme whose first pulse is far enough
ahead; WHISTLE_RISE, due while the pin is driven, is emitted, and one in a reset is missed; WHISTLE_FALL ends a pulse. Times are
counted over the wraps of the 48-bit seconds (log entry 113). -/
def Obligations.TimeIsland : Prop :=
  (∀ s : State, s.phase = .running →
    exec .timeRefLost s = .next (raise 0x710 0 0 { s with tim := { s.tim with refLock := false, refLostSeen := true } }) ∧
    exec .timeRefRestored s = .next (raise 0x711 0 0 { s with tim := { s.tim with refLock := true } }) ∧
    exec .captureCalibration s = .next { s with tim := { s.tim with calibrations := s.tim.calibrations + 1 } }) ∧
  (∀ (s v w : State) (q : Fin 64) (idx : Word) (a : Adm) (d : Int), s.phase = .running → AtTurn s q idx 0x60 a →
    s.tim.stepped = false → v = tick s → w = v.modTim (stepTime a.ws) → d = now32 w.tim - now32 v.tim →
    exec (.timeStep q idx) s = .next (admDone a.q a.idx 0 [] (bwEnd true (eachBelow 8 (whistleStep (decide (0 < d)))
      (launchAll (raise 0x712 (wordOfInt (d / 4294967296)) (wordOfInt (d / 4294967296 / 4294967296))
        (shiftTimes (d / 268435456) w))))))) ∧
  (∀ (s : State) (q : Fin 64) (idx : Word) (a : Adm), s.phase = .running → AtTurn s q idx 0x60 a → s.tim.stepped = false →
    ∃ t, exec (.timeStep q idx) s = .next t ∧ t.uptime = s.uptime + 1 ∧ t.tim.rate = s.tim.rate ∧
    t.tim.sec = (aData a.ws 0).toNat + bitsOf (aParam a.ws) 0 16 * 4294967296 ∧ t.tim.ns = bitsOf (aData a.ws 1) 0 30 ∧
    t.tim.frac = (aData a.ws 2).toNat) ∧
  (∀ (s : State) (q : Fin 64) (idx : Word) (a : Adm), s.phase = .running → AtTurn s q idx 0x60 a → s.tim.stepped = true →
    exec (.timeStep q idx) s = .next (admDone a.q a.idx 2 [] s)) ∧
  (∀ (s : State) (q : Fin 64) (idx : Word) (a : Adm), s.phase = .running → AtTurn s q idx 0x61 a →
    exec (.timeRate q idx) s =
      .next (admDone a.q a.idx 0 [] { s with tim := { s.tim with rate := (aData a.ws 0).toInt } })) ∧
  (∀ s : State, s.phase = .running → exec .timNowSnap s = .next (nowSnap (storeFields 0x70004 1 s))) ∧
  (∀ s : State, s.phase ≠ .running → exec .timNowSnap s = .next s) ∧
  (∀ s : State, s.phase = .running → ∃ t, exec .timNowSnap s = .next t ∧
    t.tim = { s.tim with now := (wordOf s.tim.frac, wordOf s.tim.ns, wordOf (s.tim.sec % 4294967296),
      wordOf (s.tim.sec / 4294967296)) } ∧ (∀ off, off ≠ 0x70004 → reg t off = reg s off) ∧ t.hif = s.hif) ∧
  (∀ (s : State) (q : Fin 64) (idx : Word) (a : Adm), s.phase = .running → AtTurn s q idx 0x62 a →
    bitsOf (aData a.ws 0) 0 2 = 0 → exec (.whistleSet q idx) s = .next (admDone a.q a.idx 0 []
      (modWhistle (target a) (fun x => { missed := x.missed, fallAt := x.fallAt }) s))) ∧
  (∀ (s : State) (q : Fin 64) (idx : Word) (a : Adm) (mode start first : Nat), s.phase = .running → AtTurn s q idx 0x62 a →
    mode = bitsOf (aData a.ws 0) 0 2 → mode ≠ 0 →
    start = epochNs s + ((aData a.ws 1).toNat + bitsOf (aData a.ws 2) 0 16 * 4294967296) * 1000000000 + (aData a.ws 3).toNat →
    first = (if mode = 1 then start else nextPulse start (aData a.ws 4).toNat (soonest s)) →
    (soonest s ≤ first → exec (.whistleSet q idx) s = .next (admDone a.q a.idx 0
      [wordOf (first / 1000000000 % 4294967296), wordOf (first / 1000000000 / 4294967296 % 65536),
       wordOf (first % 1000000000)]
      (modWhistle (target a) (fun x => { x with
        mode := mode, width := bitsOf (aData a.ws 0) 8 24, period := (aData a.ws 4).toNat, start := start, nextAt := first }) s))) ∧
    (first < soonest s → exec (.whistleSet q idx) s = .next (admDone a.q a.idx 4 [] s))) ∧
  (∀ start period now : Nat, 0 < period → start ≤ nextPulse start period now ∧ now ≤ nextPulse start period now ∧
    (nextPulse start period now - start) % period = 0 ∧
    ∀ k, now ≤ start + k * period → nextPulse start period now ≤ start + k * period) ∧
  (∀ (s : State) (w : Fin 8), (getWhistle s w).mode ≠ 0 → (getWhistle s w).nextAt ≤ nowAbs s →
    (s.phase = .running → exec (.whistleRise w) s = .next (addCtr (timCtr 2) 1 (pulsePast w
      (modWhistle w (fun x => { x with fallAt := some (x.nextAt + x.width) }) s)))) ∧
    (s.phase = .quiesce ∨ s.phase = .warmInit → exec (.whistleRise w) s =
      .next (missPulse w (getWhistle s w).nextAt (pulsePast w s)))) ∧
  (∀ (s : State) (w : Fin 8) (t : Nat), (getWhistle s w).fallAt = some t →
    (t ≤ nowAbs s → exec (.whistleFall w) s = .next (modWhistle w (fun x => { x with fallAt := none }) s)) ∧
    (nowAbs s < t → exec (.whistleFall w) s = .next s))

/-- Pin states (R39, R40, R230). Outside normal running every whistle is high impedance and no lane presents a termination; a
lane that is disabled or in its reset presents none either. A pulse that rises drives its pin high, and one that falls drives
it low. A lane that comes out of its reset idles in DETECT, its receiver terminated; one that enters TRAIN drives; the lanes of
a port that enters low-power idle idle with their terminations present. DETECT's transmitter is the model's reading, in the log
entry on pin states. What the lanes carry (R231, R232,
R237, R238, R240, R242): the descrambler gives back every block that the scrambler sent, from the same 58 bits of history; a
message becomes a START with its first seven bytes, whole data blocks and an END with the rest; its bytes are its header, its
body and the CRC-32 of both; an ordered set is 16 code groups, the comma first, each bit held for eight unit intervals; and a
set that carries the CRC-16 of its type and payload passes the check. -/
def Obligations.PinStates : Prop :=
  (∀ (s : State) (w l : Nat), s.phase ≠ .running → whistlePin s w = .highZ ∧ lanePins s l = { tx := .off, rxTerm := false }) ∧
  (∀ (s : State) (l : Nat), (getLane s l).resetting = true ∨ (getLane s l).st = 0 →
    lanePins s l = { tx := .off, rxTerm := false }) ∧
  (∀ (s : State) (w : Fin 8), s.phase = .running → (getWhistle s w).mode ≠ 0 → (getWhistle s w).nextAt ≤ nowAbs s →
    ∃ t, exec (.whistleRise w) s = .next t ∧ whistlePin t w = .high) ∧
  (∀ (s : State) (w : Fin 8) (n : Nat), s.phase = .running → (getWhistle s w).fallAt = some n → n ≤ nowAbs s →
    ∃ t, exec (.whistleFall w) s = .next t ∧ whistlePin t w = .low) ∧
  (∀ (s : State) (l : Fin 16), s.phase = .running → (getLane s l).resetting = true → laneOn s l = true →
    ∃ t, exec (.laneResetDone l) s = .next t ∧ lanePins t l = { tx := .idle, rxTerm := true }) ∧
  (∀ (s : State) (l : Fin 16), s.phase = .running → (getLane s l).st = 1 → (getCPort s (lanePort l)).asleep = false →
    ∃ t, exec (.laneProbe l true true) s = .next t ∧ lanePins t l = { tx := .driving, rxTerm := true }) ∧
  (∀ (s : State) (c : Fin 4) (i : Nat), s.phase = .running → i < 4 → (getCPort s c).up = true → (getCPort s c).asleep = false →
    lpiIdle s c ≠ 0 → hasWork s c = false → (getLane s (4 * c + i)).st = 5 → (getLane s (4 * c + i)).resetting = false →
    ∃ t, exec (.lpiEnter c) s = .next t ∧ lanePins t (4 * c + i) = { tx := .idle, rxTerm := true }) ∧
  (∀ (st : BitVec 58) (b : Block), b.bytes.length = 8 →
    readBlock st (lineBlock st b).1 = (some b, (lineBlock st b).2)) ∧
  (∀ bs : List Byte, 7 ≤ bs.length → ((msgBlocks bs).head?.map fun b => b.bytes) = some (0x2D :: bs.take 7) ∧
    (msgBlocks bs).length = 2 + (bs.length - 7) / 8 ∧ (∀ b ∈ msgBlocks bs, b.bytes.length = 8) ∧
    (((msgBlocks bs).tail.dropLast).flatMap fun b => b.bytes) ++ (((msgBlocks bs).getLast?.map fun b =>
      (b.bytes.drop 1).take ((bs.length - 7) % 8)).getD []) = bs.drop 7 ∧
    ((msgBlocks bs).getLast?.map fun b => b.bytes.headD 0) = some (BitVec.ofNat 8 (0xE0 + (bs.length - 7) % 8))) ∧
  (∀ m : Msg, msgWire m = headBytes m ++ bodyBytes m.body ++ wordBytes (wordOf (crc32 (headBytes m ++ bodyBytes m.body))) ∧
    (headBytes m).length = 16) ∧
  (∀ (rd : Bool) (type : Byte) (ps : List Byte), (setCodes rd type ps).1.length = 16 ∧
    (setCodes rd type ps).1.head? = some (comma rd).1) ∧
  (∀ c : BitVec 10, (unitIntervals c).length = 80 ∧
    ∀ i < 80, (unitIntervals c)[i]? = some (c.getLsbD (9 - i / 8))) ∧
  (∀ (ps : List Byte) (type : Byte) (n : Nat), setOk ps
    (SetTail.mk type (BitVec.ofNat 16 (crc16 (type :: (List.range 12).map fun i => ps.getD i 0))) n) = true)

/-- The transmit stamp ring and the trace ring (R25, R221–R225, R325). TSQ_ENABLE and TRACE_RING_ENABLE read the index area and start
the ring when its two words agree, else set the error bit, as a read that fails does; a write that R337 refuses is recorded, and
one without the bit, or to a ring that runs, starts nothing. TSQ_CI_READ and TRACE_CI_READ read a full ring's CI, at most once a
µs; TSQ_CI_RESPONSE and TRACE_CI_RESPONSE with a CI out of range stop the ring, and with one in range let held entries go. -/
def Obligations.StampAndTraceRings : Prop :=
  (∀ (s : State) (v : Word) (index : Answer (Word × Word)), s.phase = .running →
    (∀ k, refusal s 0x70020 4 v = some k → exec (.tsqEnable v index) s = .next (refuseWrite 0x70020 k s)) ∧
    (refusal s 0x70020 4 v = none → bitOf v 0 = false ∨ s.tim.tsqEn = true →
      exec (.tsqEnable v index) s = .next (storeFields 0x70020 v s)) ∧
    (∀ k, refusal s 0xB0010 4 v = some k → exec (.traceRingEnable v index) s = .next (refuseWrite 0xB0010 k s)) ∧
    (refusal s 0xB0010 4 v = none → bitOf v 0 = false ∨ s.mon.trEn = true →
      exec (.traceRingEnable v index) s = .next (storeFields 0xB0010 v s))) ∧
  (∀ (s u : State) (v : Word) (index : Answer (Word × Word)), s.phase = .running → refusal s 0x70020 4 v = none →
    bitOf v 0 = true → s.tim.tsqEn = false → u = areaRead (regAddr s 0x70030) index (storeFields 0x70020 v s) →
    (∀ i, index = .data (i, i) → exec (.tsqEnable v index) s =
      .next (u.modTim fun t => { t with tsqEn := true, tsqBad := false, tsqPi := i, tsqCi := i, tsqUnrep := 0, tsqIdx := none })) ∧
    ((∀ i, index ≠ .data (i, i)) → exec (.tsqEnable v index) s = .next (u.modTim fun t => { t with tsqBad := true }))) ∧
  (∀ s : State, s.phase = .running → s.tim.tsqEn = true → s.tim.tsqStopped = false → gap s.tim.tsqPi s.tim.tsqCi = 128 →
    asked s .tsqCi = false → (∀ n, s.tim.tsqReadAt = some n → n + 1000 ≤ s.uptime) →
    exec .tsqCiRead s = .next (addCtr (timCtr 3) 1
      (fabRead .tsqCi (regAddr s 0x70030) 8 (s.modTim fun t => { t with tsqReadAt := some s.uptime })))) ∧
  (∀ (s u : State) (ci : Word), s.phase = .running → reading s .tsqCi = true → u = returnReads (fun x => x = .tsqCi) s →
    (gap u.tim.tsqPi ci ≤ 128 → exec (.tsqCiResponse ci) s =
      .next (stampsWait (drainStamps 16 (u.modTim fun t => { t with tsqCi := ci })))) ∧
    (128 < gap u.tim.tsqPi ci → exec (.tsqCiResponse ci) s = .next (settleStamps (u.tim.tsqHold.foldl
      (fun s e => loseStamp e s)
      (raise 0x722 u.tim.tsqPi ci (u.modTim fun t => { t with tsqStopped := true, tsqHold := [] })))))) ∧
  (∀ (s u : State) (v : Word) (index : Answer (Word × Word)), s.phase = .running → refusal s 0xB0010 4 v = none →
    bitOf v 0 = true → s.mon.trEn = false → u = areaRead (regAddr s 0xB0020) index (storeFields 0xB0010 v s) →
    (∀ i, index = .data (i, i) → exec (.traceRingEnable v index) s =
      .next (u.modMon fun m =>
        { m with trEn := true, trBad := false, trStopped := false, trPi := i, trCi := i, trUnrep := 0, trIdx := none })) ∧
    ((∀ i, index ≠ .data (i, i)) → exec (.traceRingEnable v index) s = .next (u.modMon fun m => { m with trBad := true }))) ∧
  (∀ s : State, s.phase = .running → s.mon.trEn = true → s.mon.trStopped = false →
    gap s.mon.trPi s.mon.trCi = 2 ^ traceSize s → asked s .traceCi = false →
    (∀ n, s.mon.trReadAt = some n → n + 1000 ≤ s.uptime) →
    exec .traceCiRead s = .next (fabRead .traceCi (regAddr s 0xB0020) 8
      (s.modMon fun m => { m with trReadAt := some s.uptime }))) ∧
  (∀ (s u : State) (ci : Word), s.phase = .running → reading s .traceCi = true → u = returnReads (fun x => x = .traceCi) s →
    u.mon.trEn = true → u.mon.trStopped = false →
    (gap u.mon.trPi ci ≤ 2 ^ traceSize u → exec (.traceCiResponse ci) s =
      .next (drainTrace 32 (u.modMon fun m => { m with trCi := ci }))) ∧
    (2 ^ traceSize u < gap u.mon.trPi ci → exec (.traceCiResponse ci) s =
      .next (perf 30 u.mon.trHold.length (u.modMon fun m =>
        { m with trStopped := true, trHold := [], trLost := u.mon.trLost + u.mon.trHold.length }))))

/-- The monitor (R100, R253, R315–R322). BW_WINDOW_END latches every port's bytes since the window's start, and starts the next one;
BW_WINDOW_CHANGE with a changed length abandons the window; BW_LATCH_READ latches its set; MARK_SEED_WRITE reloads both
generators. SNAPSHOT queues a freeze time, one at a time; SNAPSHOT_FREEZE, at that time, copies the counters into the buffer and
writes its sections; SNAPSHOT_IMAGE_DONE ends them, then the header, and then the buffer is free. -/
def Obligations.Monitor : Prop :=
  (∀ s : State, s.phase = .running → exec .bwWindowEnd s = .next (bwEnd false s)) ∧
  (∀ s : State, s.phase = .running → ∃ t, exec .bwWindowEnd s = .next t ∧ t.mon.bwSeq = (s.mon.bwSeq + 1) % 65536 ∧
    t.mon.bwShort = s.mon.bwAbandoned ∧ t.mon.bwAbandoned = false ∧
    (∀ n < 64, tget t.mon.bwBase n (0, 0) = bwCount s n ∧ tget t.mon.bwRes n (0, 0) =
      (since (bwCount s n).1 (tget s.mon.bwBase n (0, 0)).1 % 1099511627776,
       since (bwCount s n).2 (tget s.mon.bwBase n (0, 0)).2 % 1099511627776)) ∧
    t = { s with mon := t.mon }) ∧
  (∀ (s : State) (n : Fin 64),
    (s.phase = .running → exec (.bwLatchRead n) s = .next { s with
      mon := { s.mon with bwLatch := tput s.mon.bwLatch n (some (bwWords s n)) },
      hif := { s.hif with readData := wAt (bwWords s n) 0 } }) ∧
    (s.phase ≠ .running → exec (.bwLatchRead n) s = .next { s with hif := { s.hif with readData := 0 } })) ∧
  (∀ (s : State) (n : Fin 64), s.phase = .running → ∃ t, exec (.bwLatchRead n) s = .next t ∧
    t.hif.readData = wAt (bwWords s n) 0 ∧ tget t.mon.bwLatch n [] = bwWords s n ∧
    (∀ k, k ≠ n.val → tget t.mon.bwLatch k [] = tget s.mon.bwLatch k [])) ∧
  (∀ (s u : State) (v : Word), s.phase = .running → u = storeFields 0xB0030 v s →
    (6 < bitsOf v 0 3 → exec (.bwWindowChange v) s = .next (refuseWrite 0xB0030 3 s)) ∧
    (bitsOf v 0 3 ≤ 6 → reg u 0xB0030 = reg s 0xB0030 → exec (.bwWindowChange v) s = .next u) ∧
    (bitsOf v 0 3 ≤ 6 → reg u 0xB0030 ≠ reg s 0xB0030 → exec (.bwWindowChange v) s =
      .next (bwStart (u.modMon fun m => { m with bwAbandoned := true })))) ∧
  (∀ (s : State) (v : Word), s.phase = .running → bitsOf v 0 3 ≤ 6 → ∃ t, exec (.bwWindowChange v) s = .next t ∧
    reg t 0xB0030 = wordOf (bitsOf v 0 3) ∧ (∀ off, off ≠ 0xB0030 → reg t off = reg s off) ∧
    (reg s 0xB0030 = wordOf (bitsOf v 0 3) → t.mon = s.mon) ∧
    (reg s 0xB0030 ≠ wordOf (bitsOf v 0 3) → t.mon.bwAbandoned = true ∧
      ∀ n < 64, tget t.mon.bwBase n (0, 0) = bwCount s n)) ∧
  (∀ s : State, s.phase = .running →
    (∀ v, v ≠ 0 → exec (.markSeedWrite v) s =
      .next ((storeFields 0xB0004 v s).modMon fun m => { m with drawsUs := 0, drawsDs := 0 })) ∧
    exec (.markSeedWrite 0) s = .next (refuseWrite 0xB0004 3 s)) ∧
  (∀ (s : State) (v : Word), s.phase = .running → v ≠ 0 → ∃ t, exec (.markSeedWrite v) s = .next t ∧ reg t 0xB0004 = v ∧
    t.mon = { s.mon with drawsUs := 0, drawsDs := 0 } ∧ (∀ off, off ≠ 0xB0004 → reg t off = reg s off)) ∧
  (∀ (s : State) (q : Fin 64) (idx : Word) (a : Adm), s.phase = .running → AtTurn s q idx 0x50 a → snapBusy s = true →
    exec (.snapshot q idx) s = .next (admDone a.q a.idx 2 [] s)) ∧
  (∀ (s u : State) (q : Fin 64) (idx : Word) (a : Adm) (n at' : Nat) (f : Freeze), s.phase = .running →
    AtTurn s q idx 0x50 a → snapBusy s = false → n = (s.mon.snapCount + 1) % 4294967296 →
    at' = nowQuarter s + (if aParam a.ws = 1 then bitsOf (reg s 0x80008) 0 10 * 4000 else 0) →
    f = { t := at', number := n, origin := ownInstance s, cluster := decide (aParam a.ws = 1), cmd := some (a.q, a.idx) } →
    u = (addFreeze f s).modMon (fun m => { m with snapCount := n }) →
    (8 ≤ s.mon.freezes.length → exec (.snapshot q idx) s = .next (addFreeze f s)) ∧
    (s.mon.freezes.length < 8 → aParam a.ws ≠ 1 → exec (.snapshot q idx) s = .next u) ∧
    (s.mon.freezes.length < 8 → aParam a.ws = 1 → exec (.snapshot q idx) s = .next (sendSnap (fun _ => true)
      { body := .snap (n % 65536) (at' / 4000000000 % 281474976710656) (at' / 4 % 1000000000),
        hops := linkHops u, origin := ownInstance u } u))) ∧
  (∀ (s : State) (q : Fin 64) (idx : Word) (a : Adm) (n : Nat), s.phase = .running → AtTurn s q idx 0x50 a →
    s.mon.freezes.length < 8 → snapBusy s = false → aParam a.ws = 0 → n = (s.mon.snapCount + 1) % 4294967296 → ∃ t,
    exec (.snapshot q idx) s = .next t ∧ t.mon = { s.mon with
      snapCount := n, freezes := insertFreeze
        { t := nowQuarter s, number := n, origin := ownInstance s, cluster := false, cmd := some (a.q, a.idx) } s.mon.freezes } ∧
    findAdm t a.q a.idx = some { a with stage := .turned } ∧ t.lnk = s.lnk) ∧
  (∀ (s u : State) (f : Freeze) (r : List Freeze) (m : Image), s.phase = .running → s.mon.freezes = f :: r →
    s.mon.image = none → f.t ≤ nowQuarter s → nowQuarter s ≤ f.t + 8 → f.cmd.isSome = true →
    m = { fz := f, late := false, lateNs := 0, ctrs := s.ctrs, slot := none, base := imageBase s f 0 } →
    u = (s.modMon fun x => { x with freezes := r, image := some m }) →
    exec .snapshotFreeze s = .next (fabWrite .snapshot (m.base + 64) 68800 (imageWords s.ctrs) u)) ∧
  (∀ (s u : State) (f : Freeze) (r : List Freeze) (m : Image) (ns slots k : Nat), s.phase = .running →
    s.mon.freezes = f :: r → s.mon.image = none → f.t + 8 < nowQuarter s → f.cmd = none →
    ns = sat 0xFFFFFFFF ((nowQuarter s - f.t) / 4) → slots = 2 ^ bitsOf (reg s 0xB0048) 0 3 → k = s.mon.snapNext % slots →
    m = { fz := f, late := true, lateNs := ns, ctrs := s.ctrs, slot := some k, base := imageBase s f k } →
    u = (s.modMon fun x => { x with freezes := r, image := some m, snapNext := (x.snapNext + 1) % slots }) →
    exec .snapshotFreeze s = .next (fabWrite .snapshot (m.base + 64) 68800 (imageWords s.ctrs)
      (raise 0xB21 (wordOf f.number) (wordOf ns) u))) ∧
  (∀ (s : State) (m : Image), s.phase = .running ∨ s.phase = .quiesce → s.mon.image = some m →
    exec .snapshotImageDone s = .next (imageDone m (if headerOut s m then s else writeHeader m (endImageWrites s))))

/-! Power and the stores. -/

/-- Power domains (R301–R308, R310). DOMAIN_IDLE: an idle domain in use, with no open span and no work, enters the deepest depth
that its cap and its next event allow, unless it is that deep already; DEPTH_ENTERED: it is at that depth, and a wake that waited
for this starts. WAKE_START: a wake starts, for a port core with the shared groups; DOMAIN_AWAKE ends it at depth 0, counted and
reported when the domain was late for an event that it knew, and with a shadow that cannot be restored it becomes a restart;
WAKE_FAILED is reported, and the domain's port, lane or stores are contained. POWER_ENABLE with the bit clear wakes every domain;
POWER_CAP_WRITE below a domain's depth wakes it. -/
def Obligations.PowerDomains : Prop :=
  (∀ (s : State) (d : Fin 216) (sub : Fin 16) (now : Int) (next : Option Int), s.phase = .running → sleepOn s = true →
    domUsed s d = true → (getDom s d).waking = false → (getDom s d).entering = none → now = now16 s + (sub : Nat) →
    next = nextEvent s d now →
    (spanOpen s d now = true ∨ domWork s d = true → exec (.domainIdle d sub) s = .next s) ∧
    (∀ k, spanOpen s d now = false → domWork s d = false → chooseDepth s d now next = some k → (getDom s d).depth < k →
      exec (.domainIdle d sub) s =
        .next (modDom d (fun D => { D with entering := some k, wakeAt := next.map (wakeTime s k), known := next }) s)) ∧
    (∀ k, chooseDepth s d now next = some k → k ≤ (getDom s d).depth → exec (.domainIdle d sub) s = .next s) ∧
    (chooseDepth s d now next = none → exec (.domainIdle d sub) s = .next s)) ∧
  (∀ (s : State) (d k : Nat) (now : Int) (next : Option Int), chooseDepth s d now next = some k →
    1 ≤ k ∧ k ≤ 3 ∧ k ≤ capOf s d ∧ (k = 3 → lockerOk s d = true) ∧
    (∀ e, next = some e → 16 * ((reach k + guardNs s : Nat) : Int) ≤ e - now) ∧
    ∀ j, k < j → j ≤ 3 → j ≤ capOf s d → (j = 3 → lockerOk s d = true) → fits s now next j = false) ∧
  (∀ (s v : State) (d : Fin 216), s.phase = .running →
    ((getDom s d).entering = none → exec (.depthEntered d) s = .next s) ∧
    (∀ k, (getDom s d).entering = some k → v = modDom d (fun D =>
        { D with depth := if k = 3 ∧ lockerOk s d = false then 2 else k, entering := none, wakeDue := false }) s →
      ((getDom s d).wakeDue = false → exec (.depthEntered d) s = .next v) ∧
      ((getDom s d).wakeDue = true → exec (.depthEntered d) s = .next (startWake d v)))) ∧
  (∀ (s : State) (d : Fin 216) (k : Nat), s.phase = .running → (getDom s d).entering = some k →
    (getDom s d).wakeDue = false → (k = 3 → lockerOk s d = true) → ∃ t,
    exec (.depthEntered d) s = .next t ∧ getDom t d = { getDom s d with depth := k, entering := none } ∧
    (∀ e, e ≠ d.val → getDom t e = getDom s e) ∧ t = { s with pwr := { s.pwr with doms := t.pwr.doms } }) ∧
  (∀ (s : State) (d : Fin 216), s.phase = .running →
    (domUsed s d = false → exec (.wakeStart d) s = .next s) ∧
    (domUsed s d = true → 64 ≤ d.val → exec (.wakeStart d) s = .next (modDom d Dom.roused s)) ∧
    (domUsed s d = true → d.val < 64 → (getDom s d).entering = none → (getDom s d).depth ≠ 0 → exec (.wakeStart d) s =
      .next (eachBelow 64 (fun i => modDom (144 + i) Dom.roused) (modDom d Dom.roused s)))) ∧
  (∀ D : Dom, (D.entering.isSome = true → D.roused = { D with wakeDue := true }) ∧
    (D.entering = none → D.depth = 0 → D.roused = D) ∧
    (D.entering = none → D.depth ≠ 0 → D.roused = { D with waking := true, wakeDue := false, wakeAt := none })) ∧
  (∀ (s : State) (d : Fin 216) (sub : Fin 16) (bad : Bool), s.phase = .running →
    (getDom s d).waking = false → exec (.domainAwake d sub bad) s = .next s) ∧
  (∀ (s v : State) (d : Fin 216) (sub : Fin 16) (bad : Bool), s.phase = .running → (getDom s d).waking = true →
    v = lateWake d (getDom s d) (now16 s + (sub : Nat)) (wakeDom d s) →
    ((getDom s d).depth ≠ 3 ∨ (bad = false ∧ (getDom s d).shadowBad = false) →
      exec (.domainAwake d sub bad) s = .next v) ∧
    ((getDom s d).depth = 3 → bad = true ∨ (getDom s d).shadowBad = true →
      exec (.domainAwake d sub bad) s = .next (shadowFault d v))) ∧
  (∀ (s : State) (d : Nat) (D : Dom) (now : Int),
    ((∀ e, D.known = some e → now ≤ e) → lateWake d D now s = s) ∧
    (∀ e, D.known = some e → e < now → lateWake d D now s =
      raise 0x910 (wordOf d) (wordOf (sat 0xFFFFFFFF ((now - e) / 16).toNat)) (addCtr (pwrCtr 6) 1 s))) ∧
  (∀ (s : State) (d : Nat), (getDom (wakeDom d s) d).depth = 0 ∧ (getDom (wakeDom d s) d).waking = false) ∧
  (∀ (s u v : State) (d : Fin 216), s.phase = .running → (getDom s d).waking = true →
    u = raise 0x911 (wordOf d) 1 (addCtr (pwrCtr 8) 1 (modDom d (fun D =>
      { D with depth := 0, entering := none, waking := false, wakeDue := false, wakeAt := none, known := none,
               failed := true }) s)) →
    v = lateWake d (getDom s d) (now16 u) u →
    (d.val < 64 → exec (.wakeFailed d) s = .next (clockGone d 0 (listGone d v))) ∧
    (64 ≤ d.val → d.val < 128 → exec (.wakeFailed d) s = .next (clockGone (domPort d) 0 v)) ∧
    (128 ≤ d.val → d.val < 144 → exec (.wakeFailed d) s = .next (laneReset (d - 128) v)) ∧
    (144 ≤ d.val → exec (.wakeFailed d) s = .next (containAll d v))) ∧
  (∀ (s : State) (v : Word), s.phase = .running →
    (∀ k, refusal s 0x90000 4 v = some k → exec (.powerEnable v) s = .next (refuseWrite 0x90000 k s)) ∧
    (refusal s 0x90000 4 v = none →
      (bitOf v 0 = true → exec (.powerEnable v) s = .next (storeFields 0x90000 v s)) ∧
      (bitOf v 0 = false → exec (.powerEnable v) s = .next (wakeAll (fun _ _ => true) (storeFields 0x90000 v s))))) ∧
  (∀ (s : State) (d : Nat), d < 216 → getDom (wakeAll (fun _ _ => true) s) d =
    if domUsed s d then (getDom s d).roused else getDom s d) ∧
  (∀ (s u : State) (off : BitVec 20) (v : Word), s.phase = .running →
    (isCap off.toNat = false → exec (.powerCapWrite off v) s = .next s) ∧
    (isCap off.toNat = true → refusal s off.toNat 4 v = none → u = storeFields off.toNat v s →
      exec (.powerCapWrite off v) s =
        .next (wakeAll (fun s d => decide (capOf s d < (getDom s d).entering.getD (getDom s d).depth)) u)) ∧
    (∀ k, isCap off.toNat = true → refusal s off.toNat 4 v = some k →
      exec (.powerCapWrite off v) s = .next (refuseWrite off.toNat k s)))

/-- PATROL_SCRUB (R291–R294). A corrected error is counted, shown and reported, and the second in a row on one word
is reported as stuck; a double-bit error is counted, shown, contained as its store's row gives, and reported; a parity error on
an internal bus is contained in the same way, counted and reported; a word whose domain is in dugout or locker is not reached; a
pass's end shows its length. Its containment of a terminal record, a curve and a counter is what those rows say. -/
def Obligations.PatrolScrub : Prop :=
  (∀ (s : State) (w item : Nat) (e : Fin 4), s.phase = .running → exec (.patrolScrub 0 w item e) s =
    .next { s with err := { s.err with scrubMs := sat 4095 ((s.uptime - s.err.scrubAt) / 1000000), scrubAt := s.uptime } }) ∧
  (∀ (s : State) (st : Fin 21) (w item : Nat) (e : Fin 4), s.phase = .running → st ≠ 0 → unscrubbed s st w = true →
    exec (.patrolScrub st w item e) s = .next s) ∧
  (∀ (s : State) (st : Fin 21) (w item : Nat), s.phase = .running → st ≠ 0 → unscrubbed s st w = false →
    (s.err.sbSeen.contains (st.val, w) = false →
      exec (.patrolScrub st w item 1) s = .next (raise 0xA10 (wordOf st) (wordOf w) (addCtr (errCtr 6) 1
        { s with err := { s.err with sbStore := st, sbWord := w % 4294967296, sbSeen := (st.val, w) :: s.err.sbSeen } }))) ∧
    (s.err.sbSeen.contains (st.val, w) = true →
      exec (.patrolScrub st w item 1) s = .next (raise 0xA12 (wordOf st) (wordOf w) (raise 0xA10 (wordOf st) (wordOf w)
        (addCtr (errCtr 6) 1 { s with err := { s.err with sbStore := st, sbWord := w % 4294967296 } }))))) ∧
  (∀ (s : State) (st : Fin 21) (w item : Nat), s.phase = .running → st ≠ 0 → unscrubbed s st w = false →
    let u : State := { s with err := { s.err with sbSeen := s.err.sbSeen.filter fun x => x ≠ (st.val, w) } }
    exec (.patrolScrub st w item 0) s = .next u ∧
    exec (.patrolScrub st w item 2) s = .next (raise 0xA11 (wordOf st) (wordOf w) (contain st item
      (addCtr (errCtr 7) 1 { u with err := { u.err with dbStore := st, dbWord := w % 4294967296 } }))) ∧
    exec (.patrolScrub st w item 3) s = .next (raise 0xA31 (wordOf (Config.busId (contain st item u).freeCtr).toNat) 0
      (addCtr (errCtr 8) 1 { contain st item u with freeCtr := (contain st item u).freeCtr + 1 }))) ∧
  (∀ (s : State) (h : Nat), (getRec (contain 0x04 h s) h).flagged = true ∧ (getCurve (contain 0x0A h s) h).flagged = true ∧
    (h < 0xB4000 ∨ (getCtr s h).getLsbD 47 = false → getCtr (contain 0x12 h s) h = 0))

/-! The admin commands. -/

/-- How an admin command ends (R89, R95–R98): its record in the block is marked ended with its status, its request enters the
let window of its own queue, and one completion goes to the queue's ring; nothing else in the block moves. So it is for a
command that is no duplicate, with no duplicate of it waiting, on a queue that is not draining. -/
def Obligations.AdminCompletion : Prop :=
  ∀ (s : State) (q : Nat) (idx : Word) (st : Nat) (rs : List Word) (a : Adm),
    findAdm s q idx = some a → a.stage ≠ .ended → a.dup = false → (∀ b ∈ s.hif.adm, b.dup = false) →
    (getQueue s q).st ≠ .draining → ringOfQueue s q ≠ q →
    ∃ t, admDone q idx st rs s = t ∧ t = { s with hif := t.hif } ∧
      findAdm t q idx = some { a with stage := .ended, status := st } ∧
      (∀ q' idx', (q', idx') ≠ (q, idx) → findAdm t q' idx' = findAdm s q' idx') ∧
      inLet t q (dReqId a.ws) = some st ∧
      (getQueue t (ringOfQueue s q)).ready =
        (getQueue s (ringOfQueue s q)).ready ++ [admCpl { a with stage := .ended, status := st } rs] ∧
      (getQueue t q).st = (getQueue s q).st ∧
      (∀ k, k ≠ q → k ≠ ringOfQueue s q → getQueue t k = getQueue s k) ∧ t.hif.tx = s.hif.tx

/-- The queue commands (R61–R64, R66, R97–R100). QUEUE_CREATE and QUEUE_MODIFY read the queue-table entry, or are refused by
the queue's state; the entry that has come at ADMIN_BUFFER_READ_DONE is checked, and its index area is read; at
INDEX_READ_RESPONSE a created queue starts empty where the two words of its area agree, and a modified one is active again, and
writes what the block kept for it (log entry 182). QUEUE_DRAIN returns the unused buffers and completes when everything fetched
has ended; QUEUE_DESTROY forgets a stopped queue with nothing in flight. The bootstrap pair (R84): AQ0_ENABLE checks both
sizes, then reads both index areas; it fails, with its event, on a size out of range and on areas whose two words differ, and
starts both queues, empty, when both areas have come. A refused write is recorded; one without the bit, or to a pair that runs,
starts nothing. -/
def Obligations.AdminQueues : Prop :=
  (∀ (s : State) (q : Fin 64) (idx : Word) (a : Adm), s.phase = .running → AtTurn s q idx 0x01 a →
    (bootstrap (target a) = true ∨ (getQueue s (target a)).st ≠ .notCreated →
      exec (.queueCreate q idx) s = .next (admDone a.q a.idx 2 [] s)) ∧
    (bootstrap (target a) = false → (getQueue s (target a)).st = .notCreated → exec (.queueCreate q idx) s =
      .next (fabRead (.qtable a.q a.idx) (qtableAddr s (target a)) 64
        (modAdm a.q a.idx (fun x => { x with stage := .turned }) s)))) ∧
  (∀ (s : State) (q : Fin 64) (idx : Word) (a : Adm), s.phase = .running → AtTurn s q idx 0x02 a →
    (bootstrap (target a) = false → (getQueue s (target a)).st = .active ∨ (getQueue s (target a)).st = .stopped →
      exec (.queueModify q idx) s = .next (fabRead (.qtable a.q a.idx) (qtableAddr s (target a)) 64 (admHold a s))) ∧
    (bootstrap (target a) = true → (getQueue s (target a)).st = .stopped → exec (.queueModify q idx) s =
      .next (fabRead (.enableIndex (target a)) (getQueue s (target a)).cfg.indexAddr 8 (admHold a s))) ∧
    ((getQueue s (target a)).st = .notCreated ∨ (getQueue s (target a)).st = .draining →
      exec (.queueModify q idx) s = .next (admDone a.q a.idx 2 [] s))) ∧
  (∀ (s u : State) (q : Fin 64) (idx : Word) (a : Adm) (ws : List Word), s.phase = .running →
    BufferHere s q idx 0x01 a ws u →
    (entryOk (target a) ws = false → exec (.adminBufferReadDone q idx (some ws)) s =
      .next (admDone a.q a.idx 4 [] u)) ∧
    (entryOk (target a) ws = true → qType (target a) < 3 → (getQueue u (cfgOf (target a) ws).cq).st ≠ .active →
      exec (.adminBufferReadDone q idx (some ws)) s = .next (admDone a.q a.idx 2 [] u)) ∧
    (entryOk (target a) ws = true → 3 ≤ qType (target a) ∨ (getQueue u (cfgOf (target a) ws).cq).st = .active →
      exec (.adminBufferReadDone q idx (some ws)) s = .next (fabRead (.enableIndex (target a)) (cfgOf (target a) ws).indexAddr 8
        (modAdm a.q a.idx (fun x => { x with buf := some (some ws) }) u)))) ∧
  (∀ (s u : State) (q : Fin 64) (idx : Word) (a : Adm) (ws : List Word), s.phase = .running →
    BufferHere s q idx 0x02 a ws u → entryOk (target a) ws = true →
    (sameFixed (cfgOf (target a) ws) (getQueue u (target a)).cfg = false →
      exec (.adminBufferReadDone q idx (some ws)) s = .next (admDone a.q a.idx 4 [] u)) ∧
    (sameFixed (cfgOf (target a) ws) (getQueue u (target a)).cfg = true →
      exec (.adminBufferReadDone q idx (some ws)) s = .next (fabRead (.enableIndex (target a)) (cfgOf (target a) ws).indexAddr 8
        (modAdm a.q a.idx (fun x => { x with buf := some (some ws) }) u)))) ∧
  (∀ (s u : State) (k : Fin 8192) (pi ci : Word) (a : Adm) (ws : List Word), s.phase = .running →
    (s.fab.reads.any fun r => r.use = .index k) = false → reading s (.enableIndex k) = true → u = returnReads (fun x => x = .enableIndex k) s →
    enableCmd u k = some a → a.buf = some (some ws) →
    (aOp a.ws = 0x01 → pi = ci → ∃ v, exec (.indexReadResponse k pi ci) s = .next (admDone a.q a.idx 0 [] v) ∧
      v = startQueue k (cfgOf k ws) ci u ∧
      getQueue v k = { st := .active, cfg := cfgOf k ws, pi := ci, ci := ci, f := ci }) ∧
    (aOp a.ws = 0x01 → pi ≠ ci → exec (.indexReadResponse k pi ci) s = .next (admDone a.q a.idx 4 [] u)) ∧
    (aOp a.ws = 0x02 → exec (.indexReadResponse k pi ci) s = .next (admDone a.q a.idx 0 []
      (resumeWrites k (takeIndex k pi ci (modQueue k (fun Q => { Q with cfg := cfgOf k ws, st := .active }) u)))))) ∧
  (∀ (s : State) (q : Fin 64) (idx : Word) (a : Adm), s.phase = .running → AtTurn s q idx 0x03 a →
    ((getQueue s (target a)).st = .notCreated ∨ (getQueue s (target a)).st = .draining ∨ a.q = target a →
      exec (.queueDrain q idx) s = .next (admDone a.q a.idx 2 [] s)) ∧
    ((getQueue s (target a)).st = .active ∨ (getQueue s (target a)).st = .stopped → a.q ≠ target a →
      exec (.queueDrain q idx) s = .next (drainDone (target a) ((getQueue s (target a)).cache.foldl
        (fun s b => flushBuf (target a) b s)
        (modQueue (target a) (fun Q => { Q with st := .draining, drained := 0, cache := [] }) (admHold a s)))))) ∧
  (∀ (s : State) (q : Fin 64) (idx : Word) (a : Adm), s.phase = .running → AtTurn s q idx 0x04 a →
    (bootstrap (target a) = true ∨ (getQueue s (target a)).st ≠ .stopped ∨ queueIdle s (target a) = false →
      exec (.queueDestroy q idx) s = .next (admDone a.q a.idx 2 [] s)) ∧
    (bootstrap (target a) = false → (getQueue s (target a)).st = .stopped → queueIdle s (target a) = true →
      exec (.queueDestroy q idx) s = .next (admDone a.q a.idx 0 [] (modQueue (target a) (fun _ => {}) (dropAgain (target a) s))))) ∧
  (∀ (s : State) (v : Word), s.phase = .running →
    (∀ k, refusal s 0x130 4 v = some k → exec (.aq0Enable v) s = .next (refuseWrite 0x130 k s)) ∧
    (refusal s 0x130 4 v = none → bitOf v 0 = false ∨ ((getQueue s 5120).st = .active ∧ (getQueue s 6144).st = .active) →
      exec (.aq0Enable v) s = .next (storeFields 0x130 v s))) ∧
  (∀ (s u : State) (v : Word), s.phase = .running → refusal s 0x130 4 v = none → bitOf v 0 = true →
    u = { storeFields 0x130 v s with hif := { (storeFields 0x130 v s).hif with aq0Bad := false, aq0Idx := none } } →
    (getQueue s 5120).st = .notCreated → asked s (.enableIndex 5120) = false → asked s (.enableIndex 6144) = false →
    (logOk (bitsOf v 8 5) = true → logOk (bitsOf v 16 5) = true → exec (.aq0Enable v) s =
      .next (fabRead (.enableIndex 6144) (regAddr s 0x128) 8 (fabRead (.enableIndex 5120) (regAddr s 0x118) 8
        (u.modHif fun h => { h with aq0Set := some (aq0Cfg u 5120, aq0Cfg u 6144) })))) ∧
    (logOk (bitsOf v 8 5) = false ∨ logOk (bitsOf v 16 5) = false → exec (.aq0Enable v) s = .next (aq0Fail 1 u))) ∧
  (∀ (s u : State) (k : Fin 8192) (pi ci : Word), s.phase = .running → k.val = 5120 ∨ k.val = 6144 →
    (s.fab.reads.any fun r => r.use = .index k) = false → reading s (.enableIndex k) = true →
    u = returnReads (fun x => x = .enableIndex k) s → enableCmd u k = none →
    ((getQueue u k).st = .stopped → exec (.indexReadResponse k pi ci) s =
      .next (restartQueue k (getQueue u k).cfg pi ci u)) ∧
    ((getQueue u k).st ≠ .stopped → pi ≠ ci → exec (.indexReadResponse k pi ci) s = .next (aq0Fail 3 u)) ∧
    ((getQueue u k).st ≠ .stopped → pi = ci → u.hif.aq0Idx = none → exec (.indexReadResponse k pi ci) s =
      .next { u with hif := { u.hif with aq0Idx := some (k, pi) } }) ∧
    (∀ r i, (getQueue u k).st ≠ .stopped → pi = ci → u.hif.aq0Idx = some (r, i) →
      exec (.indexReadResponse k pi ci) s = .next (startQueue r (aq0Taken u r) i (startQueue k (aq0Taken u k) pi
        { u with hif := { u.hif with aq0Idx := none, aq0Set := none } }))))

/-- The flow and terminal commands (R100, R146, R150, R167, R176, R184, R192, R193, R197, R206): each is refused in the states that its
rule names. FLOW_CREATE reads its state and has its page encrypted under the next generation; FLOW_DESTROY begins the page's
end; FLOW_PIN and REKEY_FLOW need the flow resident, and act on it at once where it is; EQUALISE_SET replaces the delay and
forgets the drift; TERMINAL_SET_STATE and RANGE_ARM are inputs to the terminal's machine; a curve's image replaces the curve,
at once or 20 µs after the last. -/
def Obligations.AdminFlowsTerminals : Prop :=
  (∀ (s : State) (q : Fin 64) (idx : Word) (a : Adm), s.phase = .running → AtTurn s q idx 0x10 a →
    (s.pgr.ready = false ∨ (getFlow s (target a)).live = true ∨ paging s (target a) = true →
      exec (.flowCreate q idx) s = .next (admDone a.q a.idx 2 [] s)) ∧
    (s.pgr.ready = true → (getFlow s (target a)).live = false → paging s (target a) = false → exec (.flowCreate q idx) s =
      .next (fabRead (.adminBuf a.q a.idx) (aAddr a.ws) (aLen a.ws) (admHold a s)))) ∧
  (∀ (s u : State) (q : Fin 64) (idx : Word) (a : Adm) (ws : List Word), s.phase = .running → BufferHere s q idx 0x10 a ws u →
    (bitsOf (wAt ws 0) 0 18 ≠ target a ∨ ctxReservedOk ws = false →
      exec (.adminBufferReadDone q idx (some ws)) s = .next (admDone a.q a.idx 4 [] u)) ∧
    (bitsOf (wAt ws 0) 0 18 = target a → ctxReservedOk ws = true → exec (.adminBufferReadDone q idx (some ws)) s =
      .next (cipherReq (addOp { flow := target a, slot := 0, why := .create a.q a.idx, ph := .encrypt, ctx := ctxOf ws }
        (modFlow (target a) (fun x => { x with gen := (x.gen + 1) % 16384 }) u))))) ∧
  (∀ (s : State) (q : Fin 64) (idx : Word) (a : Adm), s.phase = .running → AtTurn s q idx 0x11 a →
    (flowLive s (target a) = false ∨ (getFlow s (target a)).pinned = true ∨ flowUsed s (target a) = true →
      exec (.flowDestroy q idx) s = .next (admDone a.q a.idx 2 [] s)) ∧
    (flowLive s (target a) = true → (getFlow s (target a)).pinned = false → flowUsed s (target a) = false →
      exec (.flowDestroy q idx) s = .next (destroyStart a (target a) (admHold a s)))) ∧
  (∀ (s : State) (q : Fin 64) (idx : Word) (a : Adm), s.phase = .running → AtTurn s q idx 0x12 a →
    (flowLive s (target a) = false ∨ (getFlow s (target a)).pinned = true →
      exec (.flowPin q idx) s = .next (admDone a.q a.idx 2 [] s)) ∧
    (flowLive s (target a) = true → (getFlow s (target a)).pinned = false →
      (bitsOf (reg s 0x60004) 16 15 ≤ pinnedFlows s → exec (.flowPin q idx) s = .next (admDone a.q a.idx 5 [] s)) ∧
      (pinnedFlows s < bitsOf (reg s 0x60004) 16 15 → exec (.flowPin q idx) s =
        .next (cmdNeed a (target a) (modFlow (target a) (fun x => { x with pinned := true }) s))))) ∧
  (∀ (s : State) (q : Fin 64) (idx : Word) (a : Adm), s.phase = .running → AtTurn s q idx 0x13 a →
    ((getFlow s (target a)).pinned = false → exec (.flowUnpin q idx) s = .next (admDone a.q a.idx 2 [] s)) ∧
    ((getFlow s (target a)).pinned = true → exec (.flowUnpin q idx) s =
      .next (admDone a.q a.idx 0 [] (modFlow (target a) (fun x => { x with pinned := false }) s)))) ∧
  (∀ (s : State) (q : Fin 64) (idx : Word) (a : Adm), s.phase = .running → AtTurn s q idx 0x14 a →
    (flowLive s (target a) = false ∨ (getFlow s (target a)).hCheck = true ∨ (getFlow s (target a)).hFault = true →
      exec (.rekeyFlow q idx) s = .next (admDone a.q a.idx 2 [] s)) ∧
    (flowLive s (target a) = true → (getFlow s (target a)).hCheck = false → (getFlow s (target a)).hFault = false →
      exec (.rekeyFlow q idx) s = .next (cmdNeed a (target a) s))) ∧
  (∀ (s : State) (a : Adm) (f i : Nat), (getFlow s f).hCheck = false → served s f = some i →
    settleRekey a f s = admDone a.q a.idx 0 [] (rekeyNow f i (bitsOf (aParam a.ws) 0 12) s) ∧
    (getSlot (rekeyNow f i (bitsOf (aParam a.ws) 0 12) s) i).ctx =
      { (getSlot s i).ctx with nonce := 0, keyIndex := bitsOf (aParam a.ws) 0 12 } ∧
    (getSlot (rekeyNow f i (bitsOf (aParam a.ws) 0 12) s) i).st = .dirty ∧
    (getFlow (rekeyNow f i (bitsOf (aParam a.ws) 0 12) s) f).hNonce = false) ∧
  (∀ (s : State) (q : Fin 64) (idx : Word) (a : Adm), s.phase = .running → AtTurn s q idx 0x20 a →
    (getRec s (target a)).flagged = false →
    (inputRefused s (target a) (bitsOf (aParam a.ws) 0 4) = true →
      exec (.terminalSetState q idx) s = .next (admDone a.q a.idx 2 [] s)) ∧
    (∀ u, inputRefused s (target a) (bitsOf (aParam a.ws) 0 4) = false →
      u = takeInput (target a) (bitsOf (aParam a.ws) 0 4) none (setAllocs a s) → exec (.terminalSetState q idx) s =
      .next (admDone a.q a.idx 0 [wordOf (getRec u (target a)).state] u))) ∧
  (∀ (s : State) (q : Fin 64) (idx : Word) (a : Adm), s.phase = .running → AtTurn s q idx 0x21 a →
    ((getRec s (target a)).flagged = true ∨ ¬(getRec s (target a)).state ∈ [2, 4, 5] →
      exec (.rangeArm q idx) s = .next (admDone a.q a.idx 2 [] s)) ∧
    ((getRec s (target a)).flagged = false → (getRec s (target a)).state ∈ [2, 4, 5] →
      inputRefused s (target a) 7 = false →
      (armStarts s (target a) = true → exec (.rangeArm q idx) s = .next (takeInput (target a) 7 none (admHold a s))) ∧
      (armStarts s (target a) = false → exec (.rangeArm q idx) s =
        .next (admDone a.q a.idx 0 [0, 3, 0, 0] (takeInput (target a) 7 none s))))) ∧
  (∀ (s : State) (q : Fin 64) (idx : Word) (a : Adm), s.phase = .running → AtTurn s q idx 0x22 a →
    ((getRec s (target a)).flagged = true ∨ ¬(getRec s (target a)).state ∈ [4, 5, 6] →
      exec (.equaliseSet q idx) s = .next (admDone a.q a.idx 2 [] s)) ∧
    ((getRec s (target a)).flagged = false → (getRec s (target a)).state ∈ [4, 5, 6] →
      exec (.equaliseSet q idx) s = .next (admDone a.q a.idx 0 [] (modRec (target a) (fun r =>
        { r with eqd := bitsOf (aData a.ws 0) 0 24, autoAdj := 0, drift := 0, samples := 0, driftOut := false,
                 settle := 15 }) s)))) ∧
  (∀ (s : State) (q : Fin 64) (idx : Word) (a : Adm), s.phase = .running → AtTurn s q idx 0x40 a →
    exec (.curveLoad q idx) s = .next (fabRead (.adminBuf a.q a.idx) (aAddr a.ws) (aLen a.ws) (admHold a s))) ∧
  (∀ (s u : State) (q : Fin 64) (idx : Word) (a : Adm) (ws : List Word), s.phase = .running → BufferHere s q idx 0x40 a ws u →
    (curveOk ws = false → exec (.adminBufferReadDone q idx (some ws)) s = .next (admDone a.q a.idx 4 [] u)) ∧
    (curveOk ws = true → (∀ n, (getCurve u (target a)).loadedAt = some n → n + 20000 ≤ u.uptime) →
      exec (.adminBufferReadDone q idx (some ws)) s =
        .next (admDone a.q a.idx 0 [] (modCurve (target a) (fun _ => curveNew ws u.uptime) u))) ∧
    (∀ n, curveOk ws = true → (getCurve u (target a)).loadedAt = some n → u.uptime < n + 20000 →
      exec (.adminBufferReadDone q idx (some ws)) s = .next (modAdm a.q a.idx (fun x => { x with buf := some (some ws) })
        { u with gnt := { u.gnt with loads := u.gnt.loads ++ [(target a, a.q, a.idx)] } }))) ∧
  (∀ (s u : State) (i : Fin 1024) (q : Nat) (idx : Word) (a : Adm) (ws : List Word), s.phase = .running →
    s.gnt.loads.find? (fun e => e.1 = i.val) = some (i.val, q, idx) → findAdm s q idx = some a →
    a.buf = some (some ws) → target a = i →
    u = { s with gnt := { s.gnt with loads := dropFirst (fun e => e.1 = i.val) s.gnt.loads } } →
    exec (.curveLoadApply i) s = .next (admDone a.q a.idx 0 [] (modCurve i (fun _ => curveNew ws u.uptime) u)))

/-- The classifier, playbook and port commands (R54, R56, R98, R100, R125, R130–R133, R136, R137, R284): RULE_INSERT inserts a rule's
entry into its bucket, once and while there is room, and RULE_DELETE deletes it; TERNARY_STAGE and PARSE_STAGE read rules and
steps that are all checked, at ADMIN_BUFFER_READ_DONE, and go to the standby page, over the items that they name; CLASS_COMMIT
waits, COMMIT_FLIP flips the pages it names, frames still in an engine running again, and COMMIT_COPY_DONE copies them; entries of
PLAYBOOK_LOAD are all checked and then all installed; PORT_ENABLE, PORT_DISABLE and PORT_RESTART, and LINK_RETRAIN for a lane, act
in the states that allow it and are refused in the others. -/
def Obligations.AdminClassifierPorts : Prop :=
  (∀ (s : State) (q : Fin 64) (idx : Word) (a : Adm) (ws : List Word), s.phase = .running → AtTurn s q idx 0x30 a →
    a.buf = some (some ws) →
    (rulePresent s ws = true → exec (.ruleInsert q idx) s = .next (admDone a.q a.idx 2 [] s)) ∧
    (rulePresent s ws = false → 8 ≤ emUsed s (emBucket (ruleProf ws) (ruleKey ws)) →
      exec (.ruleInsert q idx) s = .next (admDone a.q a.idx 5 [] s)) ∧
    (rulePresent s ws = false → emUsed s (emBucket (ruleProf ws) (ruleKey ws)) < 8 → exec (.ruleInsert q idx) s =
      .next (admDone a.q a.idx 0 [] { s with cls := { s.cls with em :=
        s.cls.em ++ [{ prof := ruleProf ws, key := ruleKey ws, act0 := wAt ws 6, act1 := wAt ws 7 }] } }))) ∧
  (∀ (s : State) (q : Fin 64) (idx : Word) (a : Adm) (ws : List Word), s.phase = .running → AtTurn s q idx 0x31 a →
    a.buf = some (some ws) →
    (rulePresent s ws = false → exec (.ruleDelete q idx) s = .next (admDone a.q a.idx 2 [] s)) ∧
    (rulePresent s ws = true → exec (.ruleDelete q idx) s = .next (admDone a.q a.idx 0 []
      { s with cls := { s.cls with em := dropFirst (emIs (ruleProf ws) (ruleKey ws)) s.cls.em } }))) ∧
  (∀ (s : State) (q : Fin 64) (idx : Word) (a : Adm), s.phase = .running →
    (AtTurn s q idx 0x32 a → exec (.ternaryStage q idx) s =
      .next (fabRead (.adminBuf a.q a.idx) (aAddr a.ws) (aLen a.ws) (admHold a s))) ∧
    (AtTurn s q idx 0x33 a → exec (.parseStage q idx) s =
      .next (fabRead (.adminBuf a.q a.idx) (aAddr a.ws) (aLen a.ws) (admHold a s))) ∧
    (AtTurn s q idx 0x41 a → exec (.playbookLoad q idx) s =
      .next (fabRead (.adminBuf a.q a.idx) (aAddr a.ws) (aLen a.ws) (admHold a s)))) ∧
  (∀ (s u : State) (q : Fin 64) (idx : Word) (a : Adm) (ws : List Word), s.phase = .running →
    (BufferHere s q idx 0x30 a ws u → ruleOk ws = false →
      exec (.adminBufferReadDone q idx (some ws)) s = .next (admDone a.q a.idx 4 [] u)) ∧
    ((BufferHere s q idx 0x30 a ws u ∧ ruleOk ws = true) ∨ BufferHere s q idx 0x31 a ws u →
      exec (.adminBufferReadDone q idx (some ws)) s =
        .next (modAdm a.q a.idx (fun x => { x with buf := some (some ws) }) u))) ∧
  (∀ (s u : State) (q : Fin 64) (idx : Word) (a : Adm) (ws : List Word) (rs : List (List Word)), s.phase = .running →
    BufferHere s q idx 0x32 a ws u → rs = groups ws.length 24 ws →
    (rs.all ternOk = false → exec (.adminBufferReadDone q idx (some ws)) s = .next (admDone a.q a.idx 4 [] u)) ∧
    (rs.all ternOk = true → ∃ v, exec (.adminBufferReadDone q idx (some ws)) s = .next (admDone a.q a.idx 0 [] v) ∧
      v.cls.ternA = u.cls.ternA ∧ (∀ i < rs.length, tfind v.cls.ternS ((aParam a.ws).toNat + i) =
        if (rs.getD i []).all (fun w => w = 0) = true then none else some (rs.getD i [])) ∧
      (∀ k, k < (aParam a.ws).toNat ∨ (aParam a.ws).toNat + rs.length ≤ k →
        tfind v.cls.ternS k = tfind u.cls.ternS k) ∧ v = { u with cls := v.cls })) ∧
  (∀ (s u : State) (q : Fin 64) (idx : Word) (a : Adm) (ws : List Word) (st : List (BitVec 64)), s.phase = .running →
    BufferHere s q idx 0x33 a ws u → st = (groups ws.length 2 ws).map stepOf →
    (st.all stepOk = false → exec (.adminBufferReadDone q idx (some ws)) s = .next (admDone a.q a.idx 4 [] u)) ∧
    (st.all stepOk = true → ∃ v, exec (.adminBufferReadDone q idx (some ws)) s = .next (admDone a.q a.idx 0 [] v) ∧
      v.cls.parseA = u.cls.parseA ∧
      (∀ i < st.length, tget v.cls.parseS ((aParam a.ws).toNat + i) 0 = st.getD i 0) ∧
      (∀ k, k < (aParam a.ws).toNat ∨ (aParam a.ws).toNat + st.length ≤ k →
        tget v.cls.parseS k 0 = tget u.cls.parseS k 0) ∧ v = { u with cls := v.cls })) ∧
  (∀ (s u : State) (q : Fin 64) (idx : Word) (a : Adm) (ws : List Word), s.phase = .running → BufferHere s q idx 0x41 a ws u →
    ((∃ i < ws.length, pbOk (target a + i) (wAt ws i) = false) →
      exec (.adminBufferReadDone q idx (some ws)) s = .next (admDone a.q a.idx 4 [] u)) ∧
    ((∀ i < ws.length, pbOk (target a + i) (wAt ws i) = true) → ∃ v,
      exec (.adminBufferReadDone q idx (some ws)) s = .next (admDone a.q a.idx 0 [] v) ∧
      (∀ i < ws.length, pbEntry v (target a + i) = wAt ws i) ∧
      (∀ k, k < target a ∨ target a + ws.length ≤ k → pbEntry v k = pbEntry u k) ∧ v = { u with err := v.err })) ∧
  (∀ (s : State) (q : Fin 64) (idx : Word) (a : Adm), s.phase = .running → AtTurn s q idx 0x34 a →
    exec (.classCommit q idx) s =
      .next { admHold a s with cls := { (admHold a s).cls with hold := some (a.q, a.idx) } }) ∧
  (∀ (s u : State) (q : Nat) (idx : Word) (a : Adm), s.phase = .running → s.cls.hold = some (q, idx) →
    findAdm s q idx = some a →
    u = restartEngines { s with cls := flipPages (bitOf (aParam a.ws) 0) (bitOf (aParam a.ws) 1) s.cls } →
    exec .commitFlip s = .next (admDone q idx 0 [] (u.modCls fun c => { c with
      hold := none, copy := some (bitOf (aParam a.ws) 0, bitOf (aParam a.ws) 1), commits := (c.commits + 1) % 65536 }))) ∧
  (∀ s : State, engineUse s = 0 → restartEngines s = s) ∧
  (∀ (s : State) (q : Nat) (idx : Word) (a : Adm), s.phase = .running → s.cls.hold = some (q, idx) →
    findAdm s q idx = some a → engineUse s = 0 → exec .commitFlip s = .next (admDone q idx 0 [] { s with cls :=
      { flipPages (bitOf (aParam a.ws) 0) (bitOf (aParam a.ws) 1) s.cls with
        hold := none, copy := some (bitOf (aParam a.ws) 0, bitOf (aParam a.ws) 1),
        commits := (s.cls.commits + 1) % 65536 } })) ∧
  (∀ s : State, s.phase = .running → s.cls.copy = none → exec .commitCopyDone s = .next s) ∧
  (∀ (s : State) (tern parse : Bool), s.phase = .running → s.cls.copy = some (tern, parse) → exec .commitCopyDone s =
    .next (s.modCls fun c => { c with
      copy := none, ternS := if tern then c.ternA else c.ternS, parseS := if parse then c.parseA else c.parseS,
      badItems := (if parse then copyItems 7 4096 else id) ((if tern then copyItems 6 8192 else id) c.badItems) })) ∧
  (∀ (s : State) (tern parse : Bool), s.phase = .running → s.cls.copy = some (tern, parse) → ∃ t,
    exec .commitCopyDone s = .next t ∧ t.cls.copy = none ∧ t.cls.ternA = s.cls.ternA ∧ t.cls.parseA = s.cls.parseA ∧
    t.cls.ternS = (if tern then s.cls.ternA else s.cls.ternS) ∧
    t.cls.parseS = (if parse then s.cls.parseA else s.cls.parseS) ∧ t = { s with cls := t.cls }) ∧
  (∀ (s : State) (q : Fin 64) (idx : Word) (fc : FramerConst) (a : Adm), s.phase = .running → AtTurn s q idx 0x73 a →
    (portState (getPort s (target a)) ≠ 0 ∨ (getPort s (target a)).good = false →
      exec (.portEnable q idx fc) s = .next (admDone a.q a.idx 2 [] s)) ∧
    (portState (getPort s (target a)) = 0 → (getPort s (target a)).good = true → constsOk s (target a) fc = false →
      exec (.portEnable q idx fc) s = .next (admDone a.q a.idx 4 [] s)) ∧
    (portState (getPort s (target a)) = 0 → (getPort s (target a)).good = true → constsOk s (target a) fc = true →
      exec (.portEnable q idx fc) s = .next (admDone a.q a.idx 0 [] (portService (target a) fc s)))) ∧
  (∀ (s : State) (q : Fin 64) (idx : Word) (a : Adm), s.phase = .running → AtTurn s q idx 0x74 a →
    (portBusy s (target a) = true → exec (.portDisable q idx) s = .next (admDone a.q a.idx 2 [] s)) ∧
    (portBusy s (target a) = false → portState (getPort s (target a)) = 3 → exec (.portDisable q idx) s =
      .next (admDone a.q a.idx 0 [] (portOff (target a) s))) ∧
    (portBusy s (target a) = false → portState (getPort s (target a)) = 1 ∨ portState (getPort s (target a)) = 4 →
      exec (.portDisable q idx) s = .next (startReset (target a) false (some (a.q, a.idx)) (admHold a s)))) ∧
  (∀ (s : State) (q : Fin 64) (idx : Word) (a : Adm), s.phase = .running → AtTurn s q idx 0x75 a →
    (portBusy s (target a) = true → exec (.portRestart q idx) s = .next (admDone a.q a.idx 2 [] s)) ∧
    (portState (getPort s (target a)) = 3 → (getPort s (target a)).good = false →
      exec (.portRestart q idx) s = .next (admDone a.q a.idx 2 [] s)) ∧
    (portBusy s (target a) = false → portState (getPort s (target a)) = 1 ∨ portState (getPort s (target a)) = 4 ∨
      (portState (getPort s (target a)) = 3 ∧ (getPort s (target a)).good = true) →
      exec (.portRestart q idx) s = .next (startReset (target a) true (some (a.q, a.idx)) (admHold a s)))) ∧
  (∀ (s : State) (q : Fin 64) (idx : Word) (a : Adm), s.phase = .running → AtTurn s q idx 0x70 a →
    (laneOn s (target a) = true → (getLane s (target a)).resetting = false → exec (.linkRetrain q idx) s =
      .next (admDone a.q a.idx 0 [] (laneReset (target a) s))) ∧
    (laneOn s (target a) = false ∨ (getLane s (target a)).resetting = true →
      exec (.linkRetrain q idx) s = .next (admDone a.q a.idx 2 [] s)))

end Statements
end

