-- ==== Sys2Proof/Laws/Kept.lean ====
section
/-! SUPPORT. What no operation of the model changes but those that are there for it: one lemma an operation. `f_kept` says that
`f` leaves all of `State.kept` as it was; `f_base`, of an operation that sets some register or table, that it leaves the rest. -/

set_option maxRecDepth 2000

namespace Sys2Proof.Machine

/-- What only resets and the rows of time change: the phase, the clock edges counted, the waiting commands, the time base and
its rate (R212, R216), the reset record (R48) and the session (R235). -/
structure Standing where
  phase : Phase
  uptime : Nat
  pending : List Instr
  sec : Nat
  ns : Nat
  frac : Nat
  rate : Int
  cause : Nat
  quiesceTimeout : Bool
  unwritten : Nat
  wbLost : Nat
  session : Nat

/-- What software sets: registers, rules, parse steps, indirection entries, the playbook and the routes. -/
structure Setup where
  regs : Table Word
  em : List EmEnt
  ternA : Table (List Word)
  ternS : Table (List Word)
  parseA : Table (BitVec 64)
  parseS : Table (BitVec 64)
  ternPage : Bool
  parsePage : Bool
  ind : Table Word
  commits : Nat
  playbook : Table Word
  routes : Table Word

/-- Both. -/
structure Kept where
  base : Standing
  setup : Setup

def State.kept (s : State) : Kept :=
  { base := { phase := s.phase, uptime := s.uptime, pending := s.pending, sec := s.tim.sec, ns := s.tim.ns, frac := s.tim.frac,
              rate := s.tim.rate, cause := s.hif.cause, quiesceTimeout := s.hif.quiesceTimeout, unwritten := s.hif.unwritten,
              wbLost := s.hif.wbLost, session := s.lnk.session },
    setup := { regs := s.regs, em := s.cls.em, ternA := s.cls.ternA, ternS := s.cls.ternS, parseA := s.cls.parseA,
               parseS := s.cls.parseS, ternPage := s.cls.ternPage, parsePage := s.cls.parsePage, ind := s.cls.ind,
               commits := s.cls.commits, playbook := s.err.playbook, routes := s.lnk.routes } }


@[simp] theorem ite_base (c : Prop) [Decidable c] (a b : Kept) :
    (if c then a else b).base = if c then a.base else b.base := apply_ite Kept.base c a b

@[simp] theorem foldl_base {α : Type} (g : State → α → State) (h : ∀ x a, (g x a).kept.base = x.kept.base) (l : List α) (s : State) :
    (l.foldl g s).kept.base = s.kept.base := by
  induction l generalizing s with
  | nil => rfl
  | cons a l ih => simp [List.foldl, ih, h]

@[simp] theorem ite_kept (c : Prop) [Decidable c] (a b : State) :
    (if c then a else b).kept = if c then a.kept else b.kept := apply_ite State.kept c a b

@[simp] theorem foldl_kept {α : Type} (g : State → α → State) (h : ∀ x a, (g x a).kept = x.kept) (l : List α) (s : State) :
    (l.foldl g s).kept = s.kept := by
  induction l generalizing s with
  | nil => rfl
  | cons a l ih => simp [List.foldl, ih, h]

@[simp] theorem eachBelow_kept (n : Nat) (f : Nat → State → State) (h : ∀ k x, (f k x).kept = x.kept) (s : State) :
    (eachBelow n f s).kept = s.kept := by
  simp [eachBelow, h]

@[simp] theorem eachBelow_base (n : Nat) (f : Nat → State → State) (h : ∀ k x, (f k x).kept.base = x.kept.base) (s : State) :
    (eachBelow n f s).kept.base = s.kept.base := by
  simp [eachBelow, h]

@[simp] theorem State.modTim_kept (f : Tim → Tim)
    (h : ∀ t, (f t).sec = t.sec ∧ (f t).ns = t.ns ∧ (f t).frac = t.frac ∧ (f t).rate = t.rate) (s : State) :
    (s.modTim f).kept = s.kept := by simp [State.modTim, State.kept, h]

@[simp] theorem State.modHif_kept (f : Hif → Hif)
    (h : ∀ x, (f x).cause = x.cause ∧ (f x).quiesceTimeout = x.quiesceTimeout ∧ (f x).unwritten = x.unwritten ∧ (f x).wbLost = x.wbLost) (s : State) :
    (s.modHif f).kept = s.kept := by simp [State.modHif, State.kept, h]

@[simp] theorem State.modLnk_kept (f : Lnk → Lnk) (h : ∀ x, (f x).session = x.session ∧ (f x).routes = x.routes) (s : State) :
    (s.modLnk f).kept = s.kept := by simp [State.modLnk, State.kept, h]

@[simp] theorem State.modErr_kept (f : Err → Err) (h : ∀ x, (f x).playbook = x.playbook) (s : State) :
    (s.modErr f).kept = s.kept := by simp [State.modErr, State.kept, h]

@[simp] theorem State.modCls_kept (f : Cls → Cls)
    (h : ∀ x, (f x).em = x.em ∧ (f x).ternA = x.ternA ∧ (f x).ternS = x.ternS ∧ (f x).parseA = x.parseA ∧ (f x).parseS = x.parseS ∧
      (f x).ternPage = x.ternPage ∧ (f x).parsePage = x.parsePage ∧ (f x).ind = x.ind ∧ (f x).commits = x.commits) (s : State) :
    (s.modCls f).kept = s.kept := by simp [State.modCls, State.kept, h]

@[simp] theorem State.modCls_base (f : Cls → Cls) (s : State) : (s.modCls f).kept.base = s.kept.base := rfl

@[simp] theorem State.modErr_base (f : Err → Err) (s : State) : (s.modErr f).kept.base = s.kept.base := rfl

@[simp] theorem State.modLnk_base (f : Lnk → Lnk) (h : ∀ x, (f x).session = x.session) (s : State) :
    (s.modLnk f).kept.base = s.kept.base := by simp [State.modLnk, State.kept, h]

/-! Ops. -/

@[simp] theorem State.modFab_kept (f : Fab → Fab) (s : State) :
    (State.modFab f s).kept = s.kept := by
  rfl

@[simp] theorem State.modTpt_kept (f : Tpt → Tpt) (s : State) :
    (State.modTpt f s).kept = s.kept := by
  rfl

@[simp] theorem State.modGnt_kept (f : Gnt → Gnt) (s : State) :
    (State.modGnt f s).kept = s.kept := by
  rfl

@[simp] theorem State.modRng_kept (f : Rng → Rng) (s : State) :
    (State.modRng f s).kept = s.kept := by
  rfl

@[simp] theorem State.modPgr_kept (f : Pgr → Pgr) (s : State) :
    (State.modPgr f s).kept = s.kept := by
  rfl

@[simp] theorem State.modPwr_kept (f : Pwr → Pwr) (s : State) :
    (State.modPwr f s).kept = s.kept := by
  rfl

@[simp] theorem State.modMon_kept (f : Mon → Mon) (s : State) :
    (State.modMon f s).kept = s.kept := by
  rfl

@[simp] theorem modQueue_kept (q : Nat) (f : Queue → Queue) (s : State) :
    (modQueue q f s).kept = s.kept := by
  rfl

@[simp] theorem modPort_kept (n : Nat) (f : Port → Port) (s : State) :
    (modPort n f s).kept = s.kept := by
  rfl

@[simp] theorem modProt_kept (t : Nat) (f : Prot → Prot) (s : State) :
    (modProt t f s).kept = s.kept := by
  rfl

@[simp] theorem modGTree_kept (t : Nat) (f : GTree → GTree) (s : State) :
    (modGTree t f s).kept = s.kept := by
  rfl

@[simp] theorem modRec_kept (h : Nat) (f : TermRec → TermRec) (s : State) :
    (modRec h f s).kept = s.kept := by
  rfl

@[simp] theorem modCurve_kept (i : Nat) (f : Curve → Curve) (s : State) :
    (modCurve i f s).kept = s.kept := by
  rfl

@[simp] theorem modRTree_kept (t : Nat) (f : RTree → RTree) (s : State) :
    (modRTree t f s).kept = s.kept := by
  rfl

@[simp] theorem modFlow_kept (k : Nat) (f : Flow → Flow) (s : State) :
    (modFlow k f s).kept = s.kept := by
  rfl

@[simp] theorem modSlot_kept (i : Nat) (f : CSlot → CSlot) (s : State) :
    (modSlot i f s).kept = s.kept := by
  rfl

@[simp] theorem modLane_kept (l : Nat) (f : Lane → Lane) (s : State) :
    (modLane l f s).kept = s.kept := by
  rfl

@[simp] theorem modCPort_kept (c : Nat) (f : CPort → CPort) (s : State) :
    (modCPort c f s).kept = s.kept := by
  rfl

@[simp] theorem modDom_kept (d : Nat) (f : Dom → Dom) (s : State) :
    (modDom d f s).kept = s.kept := by
  rfl

@[simp] theorem access_kept (d : Nat) (s : State) :
    (access d s).kept = s.kept := by
  (simp [access])

@[simp] theorem modVec_kept (v : Nat) (f : Vec → Vec) (s : State) :
    (modVec v f s).kept = s.kept := by
  rfl

@[simp] theorem drawn_kept (s : State) :
    (drawn s).kept = s.kept := by
  rfl

@[simp] theorem whenRunning_kept (f : State → State) (s : State) (h_f : ∀ x, (f x).kept = x.kept) :
    (whenRunning f s).kept = s.kept := by
  (simp [whenRunning, h_f])

@[simp] theorem whenLive_kept (f : State → State) (s : State) (h_f : ∀ x, (f x).kept = x.kept) :
    (whenLive f s).kept = s.kept := by
  (simp [whenLive, h_f])

@[simp] theorem addCtr_kept (off n : Nat) (s : State) :
    (addCtr off n s).kept = s.kept := by
  rfl

@[simp] theorem admitReads_kept (s : State) :
    (admitReads s).kept = s.kept := by
  (simp [admitReads])

@[simp] theorem issueReads_kept (use : RdUse) (ps : List (Nat × Nat)) (s : State) :
    (issueReads use ps s).kept = s.kept := by
  (simp [issueReads])

@[simp] theorem fabRead_kept (use : RdUse) (addr len : Nat) (s : State) :
    (fabRead use addr len s).kept = s.kept := by
  (simp [fabRead])

@[simp] theorem endReads_kept (p : RdUse → Bool) (s : State) :
    (endReads p s).kept = s.kept := by
  rfl

@[simp] theorem dropReads_kept (p : RdUse → Bool) (s : State) :
    (dropReads p s).kept = s.kept := by
  (simp [dropReads])

@[simp] theorem issueWrite_kept (use : WrUse) (addr len : Nat) (ws : List Word) (s : State) :
    (issueWrite use addr len ws s).kept = s.kept := by
  (simp [issueWrite])

/-! Flags. -/

@[simp] theorem setReg_base (off : Nat) (v : Word) (s : State) :
    (setReg off v s).kept.base = s.kept.base := by
  rfl

@[simp] theorem startWake_kept (d : Nat) (s : State) :
    (startWake d s).kept = s.kept := by
  (simp [startWake])

@[simp] theorem reachPort_kept (p : Nat) (s : State) :
    (reachPort p s).kept = s.kept := by
  (simp [reachPort])

@[simp] theorem refuseWrite_kept (off cause : Nat) (s : State) :
    (refuseWrite off cause s).kept = s.kept := by
  rfl

@[simp] theorem storeFields_base (off : Nat) (v : Word) (s : State) :
    (storeFields off v s).kept.base = s.kept.base := by
  (unfold storeFields; split <;> simp [*])

@[simp] theorem windowWrite_base (off width : Nat) (v : Word) (act : State → State) (s : State) (h_act : ∀ x, (act x).kept.base = x.kept.base) :
    (windowWrite off width v act s).kept.base = s.kept.base := by
  (unfold windowWrite; (repeat' split) <;> simp [*])

@[simp] theorem windowRead_kept (f : State → State) (s : State) (h_f : ∀ x, (f x).kept = x.kept) :
    (windowRead f s).kept = s.kept := by
  (simp [windowRead, h_f])

/-! Events. -/

@[simp] theorem logWrite_kept (code lev : Nat) (a0 a1 : Word) (s : State) :
    (logWrite code lev a0 a1 s).kept = s.kept := by
  (simp [logWrite])

@[simp] theorem indexWrite_kept (q : Nat) (v : Word) (s : State) :
    (indexWrite q v s).kept = s.kept := by
  (simp [indexWrite])

@[simp] theorem indexTry_kept (q : Nat) (s : State) :
    (indexTry q s).kept = s.kept := by
  (simp only [indexTry]; (repeat' split) <;> simp [*])

@[simp] theorem indexOut_kept (q : Nat) (s : State) :
    (indexOut q s).kept = s.kept := by
  (simp [indexOut])

@[simp] theorem writeEvent_kept (q : Nat) (e : EvEnt) (s : State) :
    (writeEvent q e s).kept = s.kept := by
  (simp [writeEvent])

@[simp] theorem toRing_kept (q : Nat) (e : EvEnt) (s : State) :
    (toRing q e s).kept = s.kept := by
  (simp [toRing])

theorem takeToken_kept {code : Nat} {s t : State} (h : takeToken code s = some t) : t.kept = s.kept := by
  unfold takeToken at h
  split at h
  · cases h; rfl
  · dsimp only at h
    split at h
    · cases h
    · cases h; rfl

@[simp] theorem report_kept (e stamp : Word) (code : Nat) (a0 a1 : Word) (s : State) :
    (report e stamp code a0 a1 s).kept = s.kept := by
  simp only [report]
  split
  · simp
  · split
    · simp
    · rename_i h
      simp [takeToken_kept h]

@[simp] theorem emitFuel_kept (n code : Nat) (a0 a1 : Word) (s : State) : (emitFuel n code a0 a1 s).kept = s.kept := by
  induction n generalizing code a0 a1 s with
  | zero => simp [emitFuel]
  | succ n ih => simp [emitFuel, ih]

@[simp] theorem emit_kept (code : Nat) (a0 a1 : Word) (s : State) : (emit code a0 a1 s).kept = s.kept := by simp [emit]

@[simp] theorem withHalves_kept (f : State → State) (s : State) (h_f : ∀ x, (f x).kept = x.kept) :
    (withHalves f s).kept = s.kept := by
  simp [withHalves, h_f]

@[simp] theorem issueIndex_kept (q : Nat) (s : State) :
    (issueIndex q s).kept = s.kept := by
  exact withHalves_kept _ _ (indexOut_kept q)

@[simp] theorem perf_kept (k n : Nat) (s : State) :
    (perf k n s).kept = s.kept := by
  (simp [perf])

@[simp] theorem stat_kept (n k v : Nat) (s : State) :
    (stat n k v s).kept = s.kept := by
  (simp [stat])

@[simp] theorem lstat_kept (p k v : Nat) (s : State) :
    (lstat p k v s).kept = s.kept := by
  (simp [lstat])

@[simp] theorem drainEvents_kept (n q : Nat) (s : State) : (drainEvents n q s).kept = s.kept := by
  induction n generalizing s with
  | zero => rfl
  | succ n ih =>
    simp only [drainEvents]
    (repeat' split) <;> simp [ih]

@[simp] theorem fabWrite_kept (use : WrUse) (addr len : Nat) (ws : List Word) (s : State) :
    (fabWrite use addr len ws s).kept = s.kept := by
  (simp [fabWrite])

@[simp] theorem returnReads_kept (p : RdUse → Bool) (s : State) :
    (returnReads p s).kept = s.kept := by
  (simp [returnReads])

@[simp] theorem endRead_kept (id : Nat) (s : State) :
    (endRead id s).kept = s.kept := by
  (simp [endRead])

@[simp] theorem returnRead_kept (r : RdReq) (s : State) :
    (returnRead r s).kept = s.kept := by
  (simp [returnRead])

@[simp] theorem returnFirst_kept (u : RdUse) (s : State) :
    (returnFirst u s).kept = s.kept := by
  (unfold returnFirst; split <;> simp [*])

@[simp] theorem sendVector_kept (v : Nat) (s : State) :
    (sendVector v s).kept = s.kept := by
  (simp [sendVector])

@[simp] theorem signal_kept (q lev : Nat) (s : State) :
    (signal q lev s).kept = s.kept := by
  (simp [signal])

/-! Operands. -/

@[simp] theorem modTx_kept (q : Nat) (idx : Word) (f : Tx → Tx) (s : State) :
    (modTx q idx f s).kept = s.kept := by
  (simp [modTx])

@[simp] theorem dropTx_kept (q : Nat) (idx : Word) (s : State) :
    (dropTx q idx s).kept = s.kept := by
  (simp [dropTx])

@[simp] theorem modAdm_kept (q : Nat) (idx : Word) (f : Adm → Adm) (s : State) :
    (modAdm q idx f s).kept = s.kept := by
  (simp [modAdm])

@[simp] theorem dropAdm_kept (q : Nat) (idx : Word) (s : State) :
    (dropAdm q idx s).kept = s.kept := by
  (simp [dropAdm])

@[simp] theorem enterLet_kept (q : Nat) (req : Word) (st : Nat) (s : State) :
    (enterLet q req st s).kept = s.kept := by
  (simp [enterLet])

@[simp] theorem readyCpl_kept (ring : Nat) (c : Cpl) (s : State) :
    (readyCpl ring c s).kept = s.kept := by
  (simp [readyCpl])

@[simp] theorem startEpisode_kept (ring : Nat) (s : State) :
    (startEpisode ring s).kept = s.kept := by
  (simp [startEpisode])

@[simp] theorem endEpisode_kept (ring : Nat) (s : State) :
    (endEpisode ring s).kept = s.kept := by
  (simp [endEpisode])

@[simp] theorem leaveFlight_kept (c : Cpl) (s : State) :
    (leaveFlight c s).kept = s.kept := by
  (unfold leaveFlight; split <;> simp [*])

@[simp] theorem writeCpl_kept (ring : Nat) (c : Cpl) (s : State) :
    (writeCpl ring c s).kept = s.kept := by
  (simp [writeCpl])

@[simp] theorem drainPend_kept (n q : Nat) (s : State) : (drainPend n q s).kept = s.kept := by
  induction n generalizing s with
  | zero => rfl
  | succ n ih =>
    simp only [drainPend]
    (repeat' split) <;> simp [ih]

@[simp] theorem writeTrace_kept (ws : List Word) (s : State) :
    (writeTrace ws s).kept = s.kept := by
  (simp [writeTrace])

@[simp] theorem traceOut_kept (ws : List Word) (s : State) :
    (traceOut ws s).kept = s.kept := by
  (simp [traceOut])

@[simp] theorem traceTx_kept (t : Tx) (fate : Nat) (s : State) :
    (traceTx t fate s).kept = s.kept := by
  (unfold traceTx; split <;> simp [*])

@[simp] theorem traceUs_kept (u : Us) (fate : Nat) (s : State) :
    (traceUs u fate s).kept = s.kept := by
  (unfold traceUs; split <;> simp [*])

@[simp] theorem freeDs_kept (p cells pool : Nat) (s : State) :
    (freeDs p cells pool s).kept = s.kept := by
  (simp [freeDs])

@[simp] theorem freeUs_kept (p cells pool : Nat) (s : State) :
    (freeUs p cells pool s).kept = s.kept := by
  (simp [freeUs])

@[simp] theorem wakeBanks_kept (l : List (Nat × Nat)) (s : State) :
    (wakeBanks l s).kept = s.kept := by
  (simp [wakeBanks])

@[simp] theorem releaseCtx_kept (t : Tx) (s : State) :
    (releaseCtx t s).kept = s.kept := by
  (simp only [releaseCtx]; (repeat' split) <;> simp [*])

@[simp] theorem flushTx_kept (q : Nat) (s : State) :
    (flushTx q s).kept = s.kept := by
  (simp [flushTx])

@[simp] theorem countDrained_kept (q n : Nat) (s : State) :
    (countDrained q n s).kept = s.kept := by
  (simp [countDrained])

@[simp] theorem admEnd_kept (q : Nat) (idx : Word) (st : Nat) (results : List Word) (s : State) :
    (admEnd q idx st results s).kept = s.kept := by
  (unfold admEnd; split <;> simp [*])

@[simp] theorem drainDone_kept (q : Nat) (s : State) :
    (drainDone q s).kept = s.kept := by
  (simp only [drainDone]; (repeat' split) <;> simp [*])

@[simp] theorem txEnd_kept (q : Nat) (idx : Word) (st fate : Nat) (s : State) :
    (txEnd q idx st fate s).kept = s.kept := by
  (unfold txEnd; split <;> simp [*])

@[simp] theorem admDone_kept (q : Nat) (idx : Word) (st : Nat) (results : List Word) (s : State) :
    (admDone q idx st results s).kept = s.kept := by
  (simp [admDone])

@[simp] theorem stopQueue_kept (q : Nat) (s : State) :
    (stopQueue q s).kept = s.kept := by
  (simp [stopQueue])

/-! Registration. -/

@[simp] theorem armDone_kept (h : Nat) (results : List Word) (s : State) :
    (armDone h results s).kept = s.kept := by
  (unfold armDone; split <;> simp [*])

@[simp] theorem setPend_kept (h : Nat) (on : Bool) (s : State) :
    (setPend h on s).kept = s.kept := by
  (simp [setPend])

@[simp] theorem regAction_kept (h inp act : Nat) (m : Option Measure) (s : State) :
    (regAction h inp act m s).kept = s.kept := by
  (unfold regAction; split <;> simp [*])

@[simp] theorem takeInput_kept (h inp : Nat) (m : Option Measure) (s : State) :
    (takeInput h inp m s).kept = s.kept := by
  (simp [takeInput])

@[simp] theorem blockInput_kept (h inp : Nat) (m : Option Measure) (s : State) :
    (blockInput h inp m s).kept = s.kept := by
  (simp [blockInput])

@[simp] theorem reacted_kept (act : Bool) (s : State) :
    (reacted act s).kept = s.kept := by
  (simp [reacted])

@[simp] theorem dropExpect_kept (t : Nat) (s : State) :
    (dropExpect t s).kept = s.kept := by
  (simp [dropExpect])

@[simp] theorem holdNow_kept (p : Nat) (s : State) :
    (holdNow p s).kept = s.kept := by
  (simp only [holdNow]; (repeat' split) <;> simp [*])

@[simp] theorem react_kept (r : Nat) (a0 : Word) (s : State) :
    (react r a0 s).kept = s.kept := by
  (unfold react; split <;> simp [*])

@[simp] theorem raise_kept (code : Nat) (a0 a1 : Word) (s : State) :
    (raise code a0 a1 s).kept = s.kept := by
  (simp [raise])

@[simp] theorem busParity_kept (s : State) :
    (busParity s).kept = s.kept := by
  (simp [busParity])

@[simp] theorem parityError_kept (k xing who : Nat) (s : State) :
    (parityError k xing who s).kept = s.kept := by
  (simp [parityError])

@[simp] theorem handshake_kept (lost : Bool) (xing who : Nat) (f : State → State) (s : State) (h_f : ∀ x, (f x).kept = x.kept) :
    (handshake lost xing who f s).kept = s.kept := by
  simp [handshake, h_f]

@[simp] theorem addrEvent_kept (code addr use : Nat) (s : State) :
    (addrEvent code addr use s).kept = s.kept := by
  (simp [addrEvent])

@[simp] theorem quarantine_kept (id : Nat) (s : State) :
    (quarantine id s).kept = s.kept := by
  (simp [quarantine])

/-! Caddie. -/

@[simp] theorem touch_kept (i : Nat) (s : State) :
    (touch i s).kept = s.kept := by
  (simp [touch])

@[simp] theorem changeCtx_kept (i : Nat) (f : Ctx → Ctx) (s : State) :
    (changeCtx i f s).kept = s.kept := by
  (simp [changeCtx])

@[simp] theorem freeSlot_kept (i : Nat) (s : State) :
    (freeSlot i s).kept = s.kept := by
  (simp [freeSlot])

@[simp] theorem modOp_kept (f : Nat) (g : PageOp → PageOp) (s : State) :
    (modOp f g s).kept = s.kept := by
  (simp [modOp])

@[simp] theorem addOp_kept (o : PageOp) (s : State) :
    (addOp o s).kept = s.kept := by
  (simp [addOp])

@[simp] theorem dropOp_kept (f : Nat) (s : State) :
    (dropOp f s).kept = s.kept := by
  (simp [dropOp])

@[simp] theorem cipherReqs_kept (n : Nat) (s : State) : (cipherReqs n s).kept = s.kept := by
  induction n generalizing s with
  | zero => rfl
  | succ n ih => simp only [cipherReqs]; (repeat' split) <;> simp [ih]

@[simp] theorem cipherReq_kept (s : State) :
    (cipherReq s).kept = s.kept := by
  (simp [cipherReq])

@[simp] theorem endReq_kept (f : Nat) (s : State) :
    (endReq f s).kept = s.kept := by
  (simp [endReq])

@[simp] theorem pageOut_kept (i : Nat) (victim clean : Bool) (s : State) :
    (pageOut i victim clean s).kept = s.kept := by
  (simp [pageOut])

@[simp] theorem startPageOut_kept (i : Nat) (victim : Bool) (s : State) :
    (startPageOut i victim s).kept = s.kept := by
  (simp [startPageOut])

@[simp] theorem needPage_kept (f : Nat) (rank : Nat) (need : Need) (id : Nat) (s : State) :
    (needPage f rank need id s).kept = s.kept := by
  (unfold needPage; split <;> simp [*])

@[simp] theorem nonceHold_kept (f : Nat) (c : Ctx) (s : State) :
    (nonceHold f c s).kept = s.kept := by
  (simp [nonceHold])

/-! TxPath. -/

@[simp] theorem loseStamp_kept (e : TsEnt) (s : State) :
    (loseStamp e s).kept = s.kept := by
  (simp [loseStamp])

@[simp] theorem writeStamp_kept (e : TsEnt) (s : State) :
    (writeStamp e s).kept = s.kept := by
  (simp [writeStamp])

@[simp] theorem stampOut_kept (e : TsEnt) (s : State) :
    (stampOut e s).kept = s.kept := by
  (simp [stampOut])

@[simp] theorem tryReserve_kept (q : Nat) (idx : Word) (s : State) :
    (tryReserve q idx s).kept = s.kept := by
  (simp only [tryReserve]; (repeat' split) <;> simp [*])

@[simp] theorem park_kept (q : Nat) (idx : Word) (s : State) :
    (park q idx s).kept = s.kept := by
  (unfold park; split <;> simp [*])

@[simp] theorem parkFor_kept (page : Bool) (q : Nat) (idx : Word) (s : State) :
    (parkFor page q idx s).kept = s.kept := by
  (simp only [parkFor]; (repeat' split) <;> simp [*])

@[simp] theorem txStep5_kept (q : Nat) (idx : Word) (s : State) :
    (txStep5 q idx s).kept = s.kept := by
  (unfold txStep5; split <;> simp [*])

@[simp] theorem txStep4_kept (q : Nat) (idx : Word) (s : State) :
    (txStep4 q idx s).kept = s.kept := by
  (simp only [txStep4]; (repeat' split) <;> simp [*])

@[simp] theorem parkEpisode_kept (s : State) :
    (parkEpisode s).kept = s.kept := by
  (simp [parkEpisode])

@[simp] theorem enterQueue_kept (t : Tx) (s : State) :
    (enterQueue t s).kept = s.kept := by
  (simp [enterQueue])

@[simp] theorem enterReady_kept (s : State) : (enterReady s).kept = s.kept := by
  unfold enterReady
  exact foldl_kept _ (fun x a => by (repeat' split) <;> simp) _ _

@[simp] theorem settleTx_kept (s : State) : (settleTx s).kept = s.kept := by
  unfold settleTx
  simp only [parkEpisode_kept]
  exact (foldl_kept _ (fun x a => by (repeat' split) <;> simp) _ _).trans (enterReady_kept s)

@[simp] theorem txDone_kept (q : Nat) (idx : Word) (st fate : Nat) (s : State) :
    (txDone q idx st fate s).kept = s.kept := by
  (simp [txDone])

@[simp] theorem resumeParked_kept (p : Tx → Bool) (s : State) :
    (resumeParked p s).kept = s.kept := by
  (simp [resumeParked])

@[simp] theorem flushQueues_kept (t st : Nat) (s : State) : (flushQueues t st s).kept = s.kept := by
  simp only [flushQueues, settleTx_kept]
  rw [foldl_kept _ (fun x a => by (repeat' split) <;> simp)]
  simp

/-! Ranging. -/

@[simp] theorem sendCtrl_kept (t term : Nat) (bytes : List Byte) (s : State) :
    (sendCtrl t term bytes s).kept = s.kept := by
  (simp [sendCtrl])

@[simp] theorem sendAdjust_kept (h : Nat) (eqd : Int) (s : State) :
    (sendAdjust h eqd s).kept = s.kept := by
  (simp [sendAdjust])

@[simp] theorem sendAnnounce_kept (t cyc : Nat) (e : GEntry) (s : State) :
    (sendAnnounce t cyc e s).kept = s.kept := by
  (simp [sendAnnounce])

@[simp] theorem expectCycle_kept (t cyc : Nat) (sc : Int) (es : List GEntry) (s : State) :
    (expectCycle t cyc sc es s).kept = s.kept := by
  (simp [expectCycle])

@[simp] theorem settleDrift_kept (h : Nat) (s : State) :
    (settleDrift h s).kept = s.kept := by
  (simp [settleDrift])

@[simp] theorem reequalise_kept (h : Nat) (s : State) :
    (reequalise h s).kept = s.kept := by
  (simp [reequalise])

@[simp] theorem raiseDrift_kept (h : Nat) (e : Int) (s : State) :
    (raiseDrift h e s).kept = s.kept := by
  (simp [raiseDrift])

@[simp] theorem checkDrift_kept (h : Nat) (s : State) :
    (checkDrift h s).kept = s.kept := by
  (simp [checkDrift])

@[simp] theorem sampleDrift_kept (h : Nat) (r : Int) (rtt : Option Nat) (s : State) :
    (sampleDrift h r rtt s).kept = s.kept := by
  (unfold sampleDrift; split <;> simp [*])

@[simp] theorem unexpected_kept (p t term : Nat) (s : State) :
    (unexpected p t term s).kept = s.kept := by
  (simp [unexpected])

@[simp] theorem matched_kept (t : Nat) (x : Exp) (at' : Int) (s : State) :
    (matched t x at' s).kept = s.kept := by
  (simp [matched])

@[simp] theorem burstIn_kept (p t term : Nat) (at' : Int) (stamp : Word) (delim : BitVec 16) (s : State) :
    (burstIn p t term at' stamp delim s).1.kept = s.kept := by
  simp only [burstIn]
  (repeat' split) <;> simp

@[simp] theorem burstMiss_kept (t : Nat) (s : State) :
    (burstMiss t s).kept = s.kept := by
  (unfold burstMiss; split <;> simp [*])

@[simp] theorem judgeSlot_kept (t : Nat) (s : State) :
    (judgeSlot t s).kept = s.kept := by
  (simp only [judgeSlot]; (repeat' split) <;> simp [*])

@[simp] theorem judgeWindow_kept (t : Nat) (s : State) :
    (judgeWindow t s).kept = s.kept := by
  (unfold judgeWindow; split <;> simp [*])

@[simp] theorem indication_kept (i : Ind) (f : State → State) (s : State) (h_f : ∀ x, (f x).kept = x.kept) :
    (indication i f s).kept = s.kept := by
  simp [indication, h_f]

@[simp] theorem garble_kept (p sub : Nat) (s : State) :
    (garble p sub s).kept = s.kept := by
  (unfold garble; split <;> simp [*])

/-! Grant. -/

@[simp] theorem withdraw_kept (t cyc : Nat) (s : State) :
    (withdraw t cyc s).kept = s.kept := by
  (simp [withdraw])

@[simp] theorem emptyList_kept (t : Nat) (s : State) :
    (emptyList t s).kept = s.kept := by
  (simp [emptyList])

@[simp] theorem grantLate_kept (t cause : Nat) (s : State) :
    (grantLate t cause s).kept = s.kept := by
  (simp [grantLate])

@[simp] theorem readPoint_kept (t : Nat) (s : State) :
    (readPoint t s).kept = s.kept := by
  (simp [readPoint])

@[simp] theorem publish_kept (t : Nat) (s : State) :
    (publish t s).kept = s.kept := by
  (simp only [publish]; (repeat' split) <;> simp [*])

@[simp] theorem listTime_kept (t : Nat) (s : State) :
    (listTime t s).kept = s.kept := by
  (simp [listTime])

@[simp] theorem computeDeadline_kept (t : Nat) (s : State) :
    (computeDeadline t s).kept = s.kept := by
  (simp [computeDeadline])

@[simp] theorem commitEvents_kept (t : Nat) (c : Comp) (s : State) :
    (commitEvents t c s).kept = s.kept := by
  (simp [commitEvents])

@[simp] theorem commitCounts_kept (t : Nat) (c : Comp) (s : State) : (commitCounts t c s).kept = s.kept :=
  foldl_kept _ (fun x a => by simp) _ _

@[simp] theorem commitList_kept (t : Nat) (c : Comp) (s : State) :
    (commitList t c s).kept = s.kept := by
  (simp [commitList])

@[simp] theorem glCommit_kept (t poison : Nat) (s : State) :
    (glCommit t poison s).kept = s.kept := by
  (simp only [glCommit]; (repeat' split) <;> simp [*])

@[simp] theorem listDeadline_kept (t : Nat) (s : State) :
    (listDeadline t s).kept = s.kept := by
  (simp [listDeadline])

@[simp] theorem nextCycle_kept (t : Nat) (at' : Int) (slip : Bool) (s : State) :
    (nextCycle t at' slip s).kept = s.kept := by
  (simp [nextCycle])

@[simp] theorem cycleStart_kept (p sub : Nat) (s : State) :
    (cycleStart p sub s).kept = s.kept := by
  (simp only [cycleStart]; (repeat' split) <;> simp [*])

@[simp] theorem cycleLost_kept (p : Nat) (s : State) :
    (cycleLost p s).kept = s.kept := by
  (simp [cycleLost])

@[simp] theorem restartTree_kept (t : Nat) (s : State) :
    (restartTree t s).kept = s.kept := by
  (simp [restartTree])

@[simp] theorem applyReport_kept (t term : Nat) (kept : List Byte) (cyc : Option Nat) (s : State) :
    (applyReport t term kept cyc s).kept = s.kept := by
  (unfold applyReport; split <;> simp [*])

/-! Handoff. -/

@[simp] theorem takeNonce_kept (t : Tx) (len : Nat) (s : State) :
    (takeNonce t len s).kept = s.kept := by
  (simp only [takeNonce]; (repeat' split) <;> simp [*])

@[simp] theorem stampTx_kept (t : Tx) (p sub : Nat) (s : State) :
    (stampTx t p sub s).kept = s.kept := by
  (simp [stampTx])

@[simp] theorem handOff_kept (p sub : Nat) (poison : Fin 3) (s : State) :
    (handOff p sub poison s).kept = s.kept := by
  (simp only [handOff]; (repeat' split) <;> simp [*])

@[simp] theorem downOver_kept (p : Nat) (x : Xfer) (bad : Bool) (out : List Byte) (n : Nat) (s : State) :
    (downOver p x bad out n s).kept = s.kept := by
  (simp only [downOver]; (repeat' split) <;> simp [*])

@[simp] theorem downEnd_kept (p : Nat) (cut : Bool) (sent : Nat) (s : State) :
    (downEnd p cut sent s).kept = s.kept := by
  (unfold downEnd; split <;> simp [*])

@[simp] theorem downCut_kept (p : Nat) (s : State) :
    (downCut p s).kept = s.kept := by
  (simp [downCut])

@[simp] theorem downLost_kept (p : Nat) (s : State) :
    (downLost p s).kept = s.kept := by
  (unfold downLost; split <;> simp [*])

@[simp] theorem stampDone_kept (q : Nat) (idx : Word) (s : State) :
    (stampDone q idx s).kept = s.kept := by
  (unfold stampDone; split <;> simp [*])

@[simp] theorem settleStamps_kept (s : State) :
    (settleStamps s).kept = s.kept := by
  (simp [settleStamps])

/-! Classify. -/

@[simp] theorem countSteps_kept (n : Nat) (s : State) :
    (countSteps n s).kept = s.kept := by
  (simp [countSteps])

@[simp] theorem bankWaits_kept (looks : Nat) (s : State) :
    (bankWaits looks s).kept = s.kept := by
  (simp [bankWaits])

@[simp] theorem countParse_kept (p : Nat) (up : Bool) (o : POut) (s : State) :
    (countParse p up o s).kept = s.kept := by
  (unfold countParse; (repeat' split) <;> simp [*])

/-! Rings. -/

@[simp] theorem ringBell_kept (q : Nat) (s : State) :
    (ringBell q s).kept = s.kept := by
  (simp [ringBell])

@[simp] theorem serveBell_kept (q : Nat) (s : State) :
    (serveBell q s).kept = s.kept := by
  (simp [serveBell])

@[simp] theorem takeCi_kept (q : Nat) (ci : Word) (s : State) :
    (takeCi q ci s).kept = s.kept := by
  (simp [takeCi])

@[simp] theorem takePi_kept (q : Nat) (pi : Word) (s : State) :
    (takePi q pi s).kept = s.kept := by
  (simp [takePi])

@[simp] theorem takeIndex_kept (q : Nat) (pi ci : Word) (s : State) :
    (takeIndex q pi ci s).kept = s.kept := by
  (simp [takeIndex])

@[simp] theorem pollQueue_kept (q : Nat) (late : Bool) (s : State) :
    (pollQueue q late s).kept = s.kept := by
  (simp [pollQueue])

@[simp] theorem pollBack_kept (q : Nat) (tag : Nat) (ci : Word) (s : State) :
    (pollBack q tag ci s).kept = s.kept := by
  (simp [pollBack])

@[simp] theorem visitLoop_kept (n q : Nat) (l : List Word) (s : State) : (visitLoop n q l s).1.kept = s.kept := by
  induction n generalizing l s with
  | zero => rfl
  | succ n ih =>
    simp only [visitLoop]
    (repeat' split) <;> simp [ih]

@[simp] theorem readEntries_kept (q : Nat) (use : List Word → RdUse) (idxs : List Word) (s : State) :
    (readEntries q use idxs s).kept = s.kept := by
  (unfold readEntries; exact foldl_kept _ (fun x a => by (repeat' split) <;> simp) _ _)

@[simp] theorem visit_kept (q : Nat) (s : State) : (visit q s).kept = s.kept := by
  simp only [visit]
  (repeat' split) <;> simp

@[simp] theorem fetchTx_kept (s : State) :
    (fetchTx s).kept = s.kept := by
  (unfold fetchTx; (repeat' split) <;> simp [*])

@[simp] theorem fetchAdmin_kept (s : State) :
    (fetchAdmin s).kept = s.kept := by
  (unfold fetchAdmin; split <;> simp [*])

@[simp] theorem takeEntry_kept (q : Nat) (idx : Word) (s : State) :
    (takeEntry q idx s).kept = s.kept := by
  (simp [takeEntry])

@[simp] theorem copied_kept (q : Nat) (idx : Word) (s : State) :
    (copied q idx s).kept = s.kept := by
  (simp [copied])

@[simp] theorem rewind_kept (q : Nat) (idx : Word) (s : State) :
    (rewind q idx s).kept = s.kept := by
  (simp [rewind])

@[simp] theorem tagChecked_kept (q : Nat) (idx : Word) (ws : List Word) (ok : State → State) (s : State) (h_ok : ∀ x, (ok x).kept = x.kept) :
    (tagChecked q idx ws ok s).kept = s.kept := by
  (simp [tagChecked, h_ok])

@[simp] theorem draw_kept (up cand : Bool) (stamp : Word) (s : State) : (draw up cand stamp s).1.kept = s.kept := by
  unfold draw
  split
  · exact rfl
  · dsimp only
    split
    · exact (perf_kept _ _ _).trans (State.modMon_kept _ _)
    · exact State.modMon_kept _ _

@[simp] theorem txArrive_kept (q : Nat) (idx : Word) (ws : List Word) (s : State) : (txArrive q idx ws s).kept = s.kept := by
  unfold txArrive
  have h0 := draw_kept false (txCandidate (copied q idx s) ws) (stampNow (copied q idx s)) (copied q idx s)
  rw [copied_kept] at h0
  dsimp only
  revert h0
  generalize draw false (txCandidate (copied q idx s) ws) (stampNow (copied q idx s)) (copied q idx s) = d
  intro h0
  split <;> simp [h0]

@[simp] theorem txDescIn_kept (q : Nat) (idx : Word) (ws : List Word) (s : State) :
    (txDescIn q idx ws s).kept = s.kept := by
  (simp [txDescIn])

@[simp] theorem segListIn_kept (q : Nat) (idx : Word) (ws : List Word) (s : State) :
    (segListIn q idx ws s).kept = s.kept := by
  (unfold segListIn; (repeat' split) <;> simp [*])

@[simp] theorem reserveNext_kept (s : State) :
    (reserveNext s).kept = s.kept := by
  (unfold reserveNext; split <;> simp [*])

@[simp] theorem launchRead_kept (q : Nat) (idx : Word) (s : State) :
    (launchRead q idx s).kept = s.kept := by
  (unfold launchRead; split <;> simp [*])

@[simp] theorem launchNow_kept (q : Nat) (idx : Word) (s : State) :
    (launchNow q idx s).kept = s.kept := by
  (unfold launchNow; split <;> simp [*])

@[simp] theorem payloadIn_kept (q : Nat) (idx : Word) (bytes : List Byte) (s : State) :
    (payloadIn q idx bytes s).kept = s.kept := by
  (unfold payloadIn; split <;> simp [*])

@[simp] theorem completionOut_kept (r : Nat) (s : State) :
    (completionOut r s).kept = s.kept := by
  (simp only [completionOut]; (repeat' split) <;> simp [*])

@[simp] theorem recoveryRead_kept (q : Nat) (s : State) :
    (recoveryRead q s).kept = s.kept := by
  (simp [recoveryRead])

/-! Routes. -/

@[simp] theorem pushTx_kept (c : Nat) (m : Msg) (s : State) :
    (pushTx c m s).kept = s.kept := by
  (simp [pushTx])

@[simp] theorem pushOwn_kept (c hops : Nat) (b : Body) (s : State) :
    (pushOwn c hops b s).kept = s.kept := by
  (simp [pushOwn])

@[simp] theorem wakeLanes_kept (c : Nat) (s : State) :
    (wakeLanes c s).kept = s.kept := by
  (simp [wakeLanes])

@[simp] theorem noRoute_kept (port : Option Nat) (dest : Nat) (s : State) :
    (noRoute port dest s).kept = s.kept := by
  (unfold noRoute; split <;> simp [*])

@[simp] theorem storeTake_kept (c : Nat) (e : Stored) (s : State) :
    (storeTake c e s).kept = s.kept := by
  (simp [storeTake])

@[simp] theorem storeFree_kept (c id : Nat) (s : State) :
    (storeFree c id s).kept = s.kept := by
  (unfold storeFree; split <;> simp [*])

/-! RxPath. -/

@[simp] theorem modUs_kept (id : Nat) (f : Us → Us) (s : State) :
    (modUs id f s).kept = s.kept := by
  (simp [modUs])

@[simp] theorem dropUs_kept (id : Nat) (s : State) :
    (dropUs id s).kept = s.kept := by
  (unfold dropUs; (repeat' split) <;> simp [*])

@[simp] theorem endUs_kept (id fate : Nat) (s : State) :
    (endUs id fate s).kept = s.kept := by
  (unfold endUs; split <;> simp [*])

@[simp] theorem toLink_kept (u : Us) (dest ring : Nat) (s : State) :
    (toLink u dest ring s).kept = s.kept := by
  (simp [toLink])

@[simp] theorem reach6_kept (id : Nat) (s : State) :
    (reach6 id s).kept = s.kept := by
  (unfold reach6; (repeat' split) <;> simp [*])

@[simp] theorem settleUs_kept (s : State) :
    (settleUs s).kept = s.kept := by
  (unfold settleUs; exact foldl_kept _ (fun x a => by (repeat' split) <;> simp) _ _)

@[simp] theorem usStage5_kept (id : Nat) (s : State) :
    (usStage5 id s).kept = s.kept := by
  (unfold usStage5; (repeat' split) <;> simp [*])

@[simp] theorem resumeUs_kept (f : Nat) (s : State) :
    (resumeUs f s).kept = s.kept := by
  (simp [resumeUs])

@[simp] theorem usStage3_kept (id : Nat) (s : State) :
    (usStage3 id s).kept = s.kept := by
  (unfold usStage3; (repeat' split) <;> simp [*])

@[simp] theorem usError_kept (u : Us) (status code : Nat) (s : State) :
    (usError u status code s).kept = s.kept := by
  (simp [usError])

@[simp] theorem usStage2_kept (u : Us) (f : UsPresented) (wait : Bool) (s : State) :
    (usStage2 u f wait s).kept = s.kept := by
  (simp [usStage2])

@[simp] theorem usBurst_kept (p : Nat) (tree : Option Nat) (f : UsPresented) (s : State) : (usBurst p tree f s).kept = s.kept := by
  unfold usBurst
  simp only [modPort_kept]
  split <;> simp

@[simp] theorem usStore_kept (u : Us) (f : UsPresented) (n : Nat) (wait : Bool) (s : State) :
    (usStore u f n wait s).kept = s.kept := by
  (unfold usStore; split <;> simp [*])

@[simp] theorem usArrive_kept (p : Nat) (f : UsPresented) (s : State) : (usArrive p f s).kept = s.kept := by
  simp only [usArrive]
  (repeat' split) <;> simp

@[simp] theorem quiesceArrive_kept (p : Nat) (s : State) :
    (quiesceArrive p s).kept = s.kept := by
  (simp [quiesceArrive])

@[simp] theorem writeBufs_kept (id size : Nat) (l : List RxBuf) (bs : List Byte) (s : State) :
    (writeBufs id size l bs s).kept = s.kept := by
  induction l generalizing bs s with
  | nil => rfl
  | cons b r ih => simp [writeBufs, ih]

@[simp] theorem rxTake_kept (id : Nat) (s : State) :
    (rxTake id s).kept = s.kept := by
  (unfold rxTake; split <;> simp [*])

@[simp] theorem rxGiveUp_kept (id : Nat) (s : State) :
    (rxGiveUp id s).kept = s.kept := by
  (unfold rxGiveUp; (repeat' split) <;> simp [*])

@[simp] theorem flushUs_kept (key : Nat × Nat × Nat) (ring : Nat) (s : State) :
    (flushUs key ring s).kept = s.kept := by
  (simp [flushUs])

@[simp] theorem countWritten_kept (u : Us) (s : State) :
    (countWritten u s).kept = s.kept := by
  (unfold countWritten; split <;> simp [*])

@[simp] theorem usWritten_kept (id : Nat) (failed : Bool) (s : State) :
    (usWritten id failed s).kept = s.kept := by
  (unfold usWritten; (repeat' split) <;> simp [*])

@[simp] theorem dispatch_kept (p : Nat) (up : Bool) (s : State) :
    (dispatch p up s).kept = s.kept := by
  (unfold dispatch; (repeat' split) <;> simp [*])

@[simp] theorem usClassified_kept (u : Us) (s : State) :
    (usClassified u s).kept = s.kept := by
  (simp [usClassified])

@[simp] theorem dsClassified_kept (p : Nat) (t : Tx) (s : State) :
    (dsClassified p t s).kept = s.kept := by
  (simp [dsClassified])

@[simp] theorem classifyDone_kept (p : Nat) (up : Bool) (s : State) :
    (classifyDone p up s).kept = s.kept := by
  (unfold classifyDone; (repeat' split) <;> simp [*])

/-! Paging. -/

@[simp] theorem rekeyNow_kept (f i key : Nat) (s : State) :
    (rekeyNow f i key s).kept = s.kept := by
  (simp [rekeyNow])

@[simp] theorem settlePin_kept (a : Adm) (f : Nat) (s : State) :
    (settlePin a f s).kept = s.kept := by
  (unfold settlePin; split <;> simp [*])

@[simp] theorem settleRekey_kept (a : Adm) (f : Nat) (s : State) :
    (settleRekey a f s).kept = s.kept := by
  (unfold settleRekey; split <;> simp [*])

@[simp] theorem settleCmds_kept (f : Nat) (s : State) :
    (settleCmds f s).kept = s.kept := by
  (simp only [settleCmds]; (repeat' split) <;> simp [*])

@[simp] theorem pushMig_kept (dest : Nat) (b : Body) (s : State) :
    (pushMig dest b s).kept = s.kept := by
  (simp [pushMig])

@[simp] theorem modMig_kept (t : Nat) (f : MigOut → MigOut) (s : State) :
    (modMig t f s).kept = s.kept := by
  (simp [modMig])

@[simp] theorem sendLeft_kept (t : Nat) (m : MigOut) (l : List (Nat × Nat)) (s : State) :
    (sendLeft t m l s).kept = s.kept := by
  induction l generalizing s with
  | nil => simp only [sendLeft]; (repeat' split) <;> simp
  | cons a r ih => simp only [sendLeft]; (repeat' split) <;> simp [ih]

@[simp] theorem settleMigs_kept (f : Nat) (s : State) :
    (settleMigs f s).kept = s.kept := by
  (unfold settleMigs; exact foldl_kept _ (fun x a => by (repeat' split) <;> simp) _ _)

@[simp] theorem serveFlow_kept (f : Nat) (s : State) :
    (serveFlow f s).kept = s.kept := by
  (simp [serveFlow])

@[simp] theorem writeEntry_kept (f : Nat) (live : Bool) (s : State) :
    (writeEntry f live s).kept = s.kept := by
  (simp [writeEntry])

@[simp] theorem destroyEntry_kept (f q : Nat) (idx : Word) (r0 : Nat) (s : State) :
    (destroyEntry f q idx r0 s).kept = s.kept := by
  (unfold destroyEntry; split <;> simp [*])

@[simp] theorem destroyStart_kept (a : Adm) (f : Nat) (s : State) :
    (destroyStart a f s).kept = s.kept := by
  (simp only [destroyStart]; (repeat' split) <;> simp [*])

@[simp] theorem opEnded_kept (f : Nat) (s : State) :
    (opEnded f s).kept = s.kept := by
  (unfold opEnded; split <;> simp [*])

@[simp] theorem repairSet_kept (f v : Nat) (s : State) :
    (repairSet f v s).kept = s.kept := by
  (simp [repairSet])

@[simp] theorem createDone_kept (f : Nat) (o : PageOp) (s : State) :
    (createDone f o s).kept = s.kept := by
  (unfold createDone; split <;> simp [*])

@[simp] theorem createFail_kept (f : Nat) (o : PageOp) (s : State) :
    (createFail f o s).kept = s.kept := by
  (unfold createFail; split <;> simp [*])

@[simp] theorem entryWritten_kept (f : Nat) (s : State) :
    (entryWritten f s).kept = s.kept := by
  (unfold entryWritten; (repeat' split) <;> simp [*])

@[simp] theorem markDead_kept (f : Nat) (s : State) :
    (markDead f s).kept = s.kept := by
  (simp [markDead])

@[simp] theorem entryLost_kept (f : Nat) (s : State) :
    (entryLost f s).kept = s.kept := by
  (unfold entryLost; (repeat' split) <;> simp [*])

@[simp] theorem pageInLost_kept (f : Nat) (o : PageOp) (cipher : Bool) (s : State) :
    (pageInLost f o cipher s).kept = s.kept := by
  (simp [pageInLost])

@[simp] theorem pageOutLost_kept (f : Nat) (o : PageOp) (s : State) :
    (pageOutLost f o s).kept = s.kept := by
  (simp [pageOutLost])

@[simp] theorem pageFail_kept (f : Nat) (cipher : Bool) (s : State) :
    (pageFail f cipher s).kept = s.kept := by
  (unfold pageFail; (repeat' split) <;> simp [*])

@[simp] theorem cipherErr_kept (f : Nat) (a1 : Word) (s : State) :
    (cipherErr f a1 s).kept = s.kept := by
  (simp [cipherErr])

@[simp] theorem checkHold_kept (f cause : Nat) (s : State) :
    (checkHold f cause s).kept = s.kept := by
  (unfold checkHold; split <;> simp [*])

@[simp] theorem sweep_kept (n : Nat) (s : State) : (sweep n s).1.kept = s.kept := by
  induction n generalizing s with
  | zero => rfl
  | succ n ih => simp only [sweep]; (repeat' split) <;> simp [ih]

@[simp] theorem findSlot_kept (s : State) : (findSlot s).1.kept = s.kept := by
  simp only [findSlot]
  (repeat' split) <;> simp
  all_goals
    rename_i h
    have := congrArg (fun x => x.1.kept) h
    simpa using this.symm

theorem findSlot_some_kept {x y : State} {o : Option Nat} (h : findSlot x = (y, o)) : y.kept = x.kept := by
  rw [← findSlot_kept x, h]

@[simp] theorem noVictim_kept (f : Nat) (s : State) :
    (noVictim f s).kept = s.kept := by
  (unfold noVictim; (repeat' split) <;> simp)

@[simp] theorem dropExpired_kept (s : State) :
    (dropExpired s).kept = s.kept := by
  (simp [dropExpired])

@[simp] theorem prefetchMeets_kept (x : Prefetch) (s : State) :
    (prefetchMeets x s).kept = s.kept := by
  (unfold prefetchMeets; (repeat' split) <;> simp)

@[simp] theorem pageInIssue_kept (s : State) : (pageInIssue s).kept = s.kept := by
  simp only [pageInIssue]
  generalize h0 : (if (s.pgr.rank1.isEmpty && !rank3Turn s.pgr) = true then dropExpired s else s) = s0
  have hs : s0.kept = s.kept := by rw [← h0]; split <;> simp
  rw [← hs]
  split
  · rfl
  · split
    · rw [serveFlow_kept]
      split
      · exact (addCtr_kept _ _ _).trans rfl
      · rfl
    · split
      · split
        · exact (prefetchMeets_kept _ _).trans rfl
        · exact (serveFlow_kept _ _).trans rfl
      · split
        · rename_i h
          simp [findSlot_some_kept h]
        · rename_i h
          simp [findSlot_some_kept h]

@[simp] theorem pageInRead_kept (f : Nat) (ws : List Word) (s : State) :
    (pageInRead f ws s).kept = s.kept := by
  (unfold pageInRead; split <;> simp [*])

@[simp] theorem lateOne_kept (f : Nat) (a : Int) (s : State) :
    (lateOne f a s).kept = s.kept := by
  (simp [lateOne])

@[simp] theorem lateCheck_kept (f : Nat) (a0 : List Int) (s : State) :
    (lateCheck f a0 s).kept = s.kept := by
  (simp [lateCheck])

@[simp] theorem pageInDone_kept (f : Nat) (status : Nat) (ws : List Word) (s : State) :
    (pageInDone f status ws s).kept = s.kept := by
  (simp only [pageInDone]; (repeat' split) <;> simp [*])

@[simp] theorem pageEncrypted_kept (f : Nat) (status : Nat) (ws : List Word) (s : State) :
    (pageEncrypted f status ws s).kept = s.kept := by
  (unfold pageEncrypted; split <;> simp [*])

@[simp] theorem pageWritten_kept (f : Nat) (s : State) :
    (pageWritten f s).kept = s.kept := by
  (unfold pageWritten; (repeat' split) <;> simp [*])

@[simp] theorem endPageWrite_kept (f : Nat) (s : State) :
    (endPageWrite f s).kept = s.kept := by
  (simp [endPageWrite])

@[simp] theorem writeBacks_kept (s : State) :
    (writeBacks s).kept = s.kept := by
  (simp [writeBacks])

@[simp] theorem pageOutDone_kept (f : Nat) (s : State) :
    (pageOutDone f s).kept = s.kept := by
  (simp [pageOutDone])

@[simp] theorem cleaning_kept (s : State) :
    (cleaning s).kept = s.kept := by
  (unfold cleaning; (repeat' split) <;> simp [*])

@[simp] theorem pageRetry_kept (f : Nat) (s : State) :
    (pageRetry f s).kept = s.kept := by
  (unfold pageRetry; (repeat' split) <;> simp [*])

@[simp] theorem cipherTimeout_kept (f : Nat) (s : State) :
    (cipherTimeout f s).kept = s.kept := by
  (unfold cipherTimeout; split <;> simp [*])

@[simp] theorem prefetchIssue_kept (f : Nat) (s : State) :
    (prefetchIssue f s).kept = s.kept := by
  (simp only [prefetchIssue]; (repeat' split) <;> simp [*])

@[simp] theorem faultEnd_kept (f : Nat) (s : State) :
    (faultEnd f s).kept = s.kept := by
  (simp [faultEnd])

@[simp] theorem enableTable_kept (s : State) :
    (enableTable s).kept = s.kept := by
  (simp [enableTable])

@[simp] theorem caddieEnable_base (v : Word) (s : State) :
    (caddieEnable v s).kept.base = s.kept.base := by
  (simp [caddieEnable])

@[simp] theorem takeRestored_kept (e : Nat × BitVec 16) (s : State) :
    (takeRestored e s).kept = s.kept := by
  (simp [takeRestored])

@[simp] theorem applyRepair_kept (e : Nat × Nat) (s : State) :
    (applyRepair e s).kept = s.kept := by
  (simp [applyRepair])

@[simp] theorem endEnableWrites_kept (s : State) :
    (endEnableWrites s).kept = s.kept := by
  (simp [endEnableWrites])

@[simp] theorem enableFail_kept (s : State) :
    (enableFail s).kept = s.kept := by
  (simp [enableFail])

@[simp] theorem enableError_kept (s : State) :
    (enableError s).kept = s.kept := by
  (simp only [enableError]; (repeat' split) <;> simp [*])

@[simp] theorem caddieUp_kept (s : State) :
    (caddieUp s).kept = s.kept := by
  (simp [caddieUp])

@[simp] theorem settleEnable_kept (s : State) :
    (settleEnable s).kept = s.kept := by
  (simp [settleEnable])

@[simp] theorem enableRestore_kept (entries : List (Nat × BitVec 16)) (s : State) :
    (enableRestore entries s).kept = s.kept := by
  (simp only [enableRestore]; (repeat' split) <;> simp [*])

@[simp] theorem tableRead_kept (s : State) :
    (tableRead s).kept = s.kept := by
  (simp [tableRead])

@[simp] theorem caddieReady_kept (ok : Bool) (entries : List (Nat × BitVec 16)) (s : State) :
    (caddieReady ok entries s).kept = s.kept := by
  (simp [caddieReady])

/-! Lines. -/

@[simp] theorem setSent_kept (l : Nat) (s : State) :
    (setSent l s).kept = s.kept := by
  (simp only [setSent]; (repeat' split) <;> simp [*])

@[simp] theorem setEnd_kept (l : Nat) (s : State) :
    (setEnd l s).kept = s.kept := by
  (simp [setEnd])

@[simp] theorem setClock_kept (l : Nat) (s : State) :
    (setClock l s).kept = s.kept := by
  (simp [setClock])

@[simp] theorem putLane_kept (l : Nat) (b : Block) (s : State) :
    (putLane l b s).kept = s.kept := by
  (simp [putLane])

@[simp] theorem newLines_kept (c : Nat) (s : State) :
    (newLines c s).kept = s.kept := by
  (simp [newLines])

@[simp] theorem alignRow_kept (c : Nat) (s : State) :
    (alignRow c s).kept = s.kept := by
  (simp [alignRow])

@[simp] theorem putBlock_kept (c : Nat) (b : Block) (s : State) :
    (putBlock c b s).kept = s.kept := by
  (simp [putBlock])

@[simp] theorem putBlocks_kept (c : Nat) (bs : List Block) (s : State) :
    (putBlocks c bs s).kept = s.kept := by
  (simp [putBlocks])

@[simp] theorem fillRow_kept (c : Nat) (s : State) :
    (fillRow c s).kept = s.kept := by
  (simp [fillRow])

@[simp] theorem idleRow_kept (c : Nat) (s : State) :
    (idleRow c s).kept = s.kept := by
  (simp [idleRow])

@[simp] theorem rowClock_kept (c : Nat) (s : State) :
    (rowClock c s).kept = s.kept := by
  (simp [rowClock])

@[simp] theorem linkClock_kept (s : State) :
    (linkClock s).kept = s.kept := by
  (simp [linkClock])

@[simp] theorem sendMsg_kept (c : Nat) (bad : Option Nat) (m : Msg) (s : State) :
    (sendMsg c bad m s).kept = s.kept := by
  (simp only [sendMsg]; (repeat' split) <;> simp [*])

/-! Sleep. -/

@[simp] theorem manage_kept (d : Nat) (s : State) :
    (manage d s).kept = s.kept := by
  (simp [manage])

@[simp] theorem manageAll_kept (s : State) :
    (manageAll s).kept = s.kept := by
  (simp [manageAll])

/-! Clock. -/

@[simp] theorem residency_kept (s : State) :
    (residency s).kept = s.kept := by
  (simp [residency])

@[simp] theorem pausedTime_kept (s : State) :
    (pausedTime s).kept = s.kept := by
  (simp [pausedTime])

@[simp] theorem thresholds_kept (n : Nat) (s : State) :
    (thresholds n s).kept = s.kept := by
  (simp [thresholds])

@[simp] theorem coreClocks_kept (s : State) :
    (coreClocks s).kept = s.kept := by
  (simp [coreClocks])

/-! Admin. -/

@[simp] theorem atTurn_kept (q : Nat) (idx : Word) (op : Nat) (f : Adm → State → State) (s : State) (h_f : ∀ a x, (f a x).kept = x.kept) :
    (atTurn q idx op f s).kept = s.kept := by
  (unfold atTurn; split <;> simp [*])

@[simp] theorem admRefuse_kept (a : Adm) (st : Nat) (s : State) :
    (admRefuse a st s).kept = s.kept := by
  (simp [admRefuse])

@[simp] theorem admHold_kept (a : Adm) (s : State) :
    (admHold a s).kept = s.kept := by
  (simp [admHold])

@[simp] theorem admRead_kept (a : Adm) (addr len : Nat) (s : State) :
    (admRead a addr len s).kept = s.kept := by
  (simp [admRead])

@[simp] theorem admTurnRead_kept (a : Adm) (s : State) :
    (admTurnRead a s).kept = s.kept := by
  (simp [admTurnRead])

@[simp] theorem admArrive_kept (q : Nat) (idx : Word) (ws : List Word) (s : State) :
    (admArrive q idx ws s).kept = s.kept := by
  (simp only [admArrive]; (repeat' split) <;> simp [*])

@[simp] theorem admDescIn_kept (q : Nat) (idx : Word) (ws : List Word) (s : State) :
    (admDescIn q idx ws s).kept = s.kept := by
  (simp [admDescIn])

/-! Queues. -/

@[simp] theorem startQueue_kept (q : Nat) (c : QCfg) (i : Word) (s : State) :
    (startQueue q c i s).kept = s.kept := by
  (simp [startQueue])

@[simp] theorem queueCreate_kept (a : Adm) (s : State) :
    (queueCreate a s).kept = s.kept := by
  (simp [queueCreate])

@[simp] theorem queueModify_kept (a : Adm) (s : State) :
    (queueModify a s).kept = s.kept := by
  (simp [queueModify])

@[simp] theorem queueEntryIn_kept (a : Adm) (ws : List Word) (s : State) :
    (queueEntryIn a ws s).kept = s.kept := by
  (simp [queueEntryIn])

@[simp] theorem sendAgain_kept (r : Bool) (w : WrReq) (s : State) :
    (sendAgain r w s).kept = s.kept := by
  (simp [sendAgain])

@[simp] theorem dropAgain_kept (q : Nat) (s : State) :
    (dropAgain q s).kept = s.kept := by
  (simp [dropAgain])

@[simp] theorem resumeWrites_kept (q : Nat) (s : State) :
    (resumeWrites q s).kept = s.kept := by
  (simp [resumeWrites])

@[simp] theorem restartQueue_kept (q : Nat) (c : QCfg) (pi ci : Word) (s : State) :
    (restartQueue q c pi ci s).kept = s.kept := by
  (simp [restartQueue])

@[simp] theorem queueIndexIn_kept (a : Adm) (pi ci : Word) (s : State) :
    (queueIndexIn a pi ci s).kept = s.kept := by
  (simp [queueIndexIn])

@[simp] theorem aq0Fail_kept (check : Nat) (s : State) :
    (aq0Fail check s).kept = s.kept := by
  (simp [aq0Fail])

@[simp] theorem aq0Start_kept (s : State) :
    (aq0Start s).kept = s.kept := by
  (simp [aq0Start])

@[simp] theorem aq0IndexIn_kept (q : Nat) (pi ci : Word) (s : State) :
    (aq0IndexIn q pi ci s).kept = s.kept := by
  (unfold aq0IndexIn; (repeat' split) <;> simp [*])

@[simp] theorem indexIn_kept (q : Nat) (pi ci : Word) (s : State) :
    (indexIn q pi ci s).kept = s.kept := by
  (simp only [indexIn]; (repeat' split) <;> simp [*])

@[simp] theorem flushBuf_kept (q : Nat) (b : RxBuf) (s : State) :
    (flushBuf q b s).kept = s.kept := by
  (simp [flushBuf])

@[simp] theorem queueDrain_kept (a : Adm) (s : State) :
    (queueDrain a s).kept = s.kept := by
  (simp [queueDrain])

@[simp] theorem queueDestroy_kept (a : Adm) (s : State) :
    (queueDestroy a s).kept = s.kept := by
  (simp [queueDestroy])

@[simp] theorem bufFetch_kept (q : Nat) (s : State) :
    (bufFetch q s).kept = s.kept := by
  (simp [bufFetch])

@[simp] theorem bufArrive_kept (q : Nat) (idx : Word) (ws : List Word) (s : State) :
    (bufArrive q idx ws s).kept = s.kept := by
  (simp [bufArrive])

@[simp] theorem bufsIn_kept (q : Nat) (l : List (List Word)) (s : State) : (bufsIn q l s).kept = s.kept := by
  induction l generalizing s with
  | nil => simp [bufsIn]
  | cons a r ih => simp only [bufsIn]; (repeat' split) <;> simp [ih]

@[simp] theorem retryRead_kept (q : Nat) (idx : Word) (s : State) :
    (retryRead q idx s).kept = s.kept := by
  (simp [retryRead])

@[simp] theorem retryIn_kept (q : Nat) (idx : Word) (ws : List Word) (s : State) :
    (retryIn q idx ws s).kept = s.kept := by
  (simp [retryIn])

@[simp] theorem tagRetry_kept (q : Nat) (ws : List Word) (s : State) :
    (tagRetry q ws s).kept = s.kept := by
  (simp only [tagRetry]; (repeat' split) <;> simp [*])

/-! Rules. -/

@[simp] theorem ruleInsert_base (a : Adm) (s : State) :
    (ruleInsert a s).kept.base = s.kept.base := by
  (simp [ruleInsert])

@[simp] theorem ruleDelete_base (a : Adm) (s : State) :
    (ruleDelete a s).kept.base = s.kept.base := by
  (simp [ruleDelete])

@[simp] theorem ruleIn_base (a : Adm) (ws : List Word) (s : State) :
    (ruleIn a ws s).kept.base = s.kept.base := by
  (simp [ruleIn])

@[simp] theorem ternaryStage_kept (a : Adm) (s : State) :
    (ternaryStage a s).kept = s.kept := by
  (simp [ternaryStage])

@[simp] theorem ternaryIn_base (a : Adm) (ws : List Word) (s : State) :
    (ternaryIn a ws s).kept.base = s.kept.base := by
  (simp [ternaryIn])

@[simp] theorem parseStage_kept (a : Adm) (s : State) :
    (parseStage a s).kept = s.kept := by
  (simp [parseStage])

@[simp] theorem parseIn_base (a : Adm) (ws : List Word) (s : State) : (parseIn a ws s).kept.base = s.kept.base := by
  unfold parseIn
  dsimp only
  split
  · simp only [admRefuse_kept]
  · simp only [admDone_kept, State.modCls_base]

@[simp] theorem classCommit_kept (a : Adm) (s : State) :
    (classCommit a s).kept = s.kept := by
  (simp [classCommit])

@[simp] theorem restartEngines_kept (s : State) :
    (restartEngines s).kept = s.kept := by
  (simp [restartEngines])

@[simp] theorem commitFlip_base (s : State) :
    (commitFlip s).kept.base = s.kept.base := by
  (unfold commitFlip; split <;> simp [*])

@[simp] theorem indNext_base (s : State) :
    (indNext s).kept.base = s.kept.base := by
  (simp [indNext])

@[simp] theorem indRead_base (s : State) :
    (indRead s).kept.base = s.kept.base := by
  (simp [indRead])

@[simp] theorem indWrite_base (v : Word) (s : State) : (indWrite v s).kept.base = s.kept.base := by
  unfold indWrite
  exact windowWrite_base _ _ _ _ _ fun x => (indNext_base _).trans ((State.modCls_base _ _).trans (setReg_base _ _ _))

/-! Flows. -/

@[simp] theorem flowCreate_kept (a : Adm) (s : State) :
    (flowCreate a s).kept = s.kept := by
  (simp [flowCreate])

@[simp] theorem createStart_kept (f : Nat) (c : Ctx) (why : PageWhy) (s : State) :
    (createStart f c why s).kept = s.kept := by
  (simp [createStart])

@[simp] theorem flowStateIn_kept (a : Adm) (ws : List Word) (s : State) :
    (flowStateIn a ws s).kept = s.kept := by
  (simp [flowStateIn])

@[simp] theorem flowDestroy_kept (a : Adm) (s : State) :
    (flowDestroy a s).kept = s.kept := by
  (simp [flowDestroy])

@[simp] theorem cmdNeed_kept (a : Adm) (f : Nat) (s : State) :
    (cmdNeed a f s).kept = s.kept := by
  (simp only [cmdNeed]; (repeat' split) <;> simp [*])

@[simp] theorem flowPin_kept (a : Adm) (s : State) :
    (flowPin a s).kept = s.kept := by
  (simp [flowPin])

@[simp] theorem flowUnpin_kept (a : Adm) (s : State) :
    (flowUnpin a s).kept = s.kept := by
  (simp [flowUnpin])

@[simp] theorem rekeyFlow_kept (a : Adm) (s : State) :
    (rekeyFlow a s).kept = s.kept := by
  (simp [rekeyFlow])

/-! Terminals. -/

@[simp] theorem setAllocs_kept (a : Adm) (s : State) :
    (setAllocs a s).kept = s.kept := by
  (simp [setAllocs])

@[simp] theorem releaseFlagged_kept (h : Nat) (s : State) :
    (releaseFlagged h s).kept = s.kept := by
  (simp [releaseFlagged])

@[simp] theorem terminalSet_kept (a : Adm) (s : State) :
    (terminalSet a s).kept = s.kept := by
  (simp [terminalSet])

@[simp] theorem rangeArm_kept (a : Adm) (s : State) :
    (rangeArm a s).kept = s.kept := by
  (simp [rangeArm])

@[simp] theorem equaliseSet_kept (a : Adm) (s : State) :
    (equaliseSet a s).kept = s.kept := by
  (simp [equaliseSet])

@[simp] theorem curveLoad_kept (a : Adm) (s : State) :
    (curveLoad a s).kept = s.kept := by
  (simp [curveLoad])

@[simp] theorem curveApply_kept (a : Adm) (ws : List Word) (s : State) :
    (curveApply a ws s).kept = s.kept := by
  (simp [curveApply])

@[simp] theorem curveIn_kept (a : Adm) (ws : List Word) (s : State) :
    (curveIn a ws s).kept = s.kept := by
  (simp [curveIn])

@[simp] theorem curveApplyNext_kept (i : Nat) (s : State) :
    (curveApplyNext i s).kept = s.kept := by
  (simp only [curveApplyNext]; (repeat' split) <;> simp [*])

@[simp] theorem recSelect_base (v : Word) (s : State) :
    (recSelect v s).kept.base = s.kept.base := by
  (simp [recSelect])

/-! Ports. -/

@[simp] theorem checkTiming_kept (p t : Nat) (c : FramerConst) (s : State) :
    (checkTiming p t c s).kept = s.kept := by
  (unfold checkTiming; split <;> simp [*])

@[simp] theorem wakeDom_kept (d : Nat) (s : State) :
    (wakeDom d s).kept = s.kept := by
  (simp [wakeDom])

@[simp] theorem wakePort_kept (p : Nat) (s : State) :
    (wakePort p s).kept = s.kept := by
  (simp [wakePort])

@[simp] theorem sleepPort_kept (p : Nat) (s : State) :
    (sleepPort p s).kept = s.kept := by
  (simp [sleepPort])

@[simp] theorem settleHolds_kept (s : State) :
    (settleHolds s).kept = s.kept := by
  (simp [settleHolds])

@[simp] theorem treeResumes_kept (t : Nat) (s : State) :
    (treeResumes t s).kept = s.kept := by
  (simp [treeResumes])

@[simp] theorem dropRebind_kept (t : Nat) (s : State) :
    (dropRebind t s).kept = s.kept := by
  (simp [dropRebind])

@[simp] theorem rehomeFail_kept (t cause : Nat) (s : State) :
    (rehomeFail t cause s).kept = s.kept := by
  (simp [rehomeFail])

@[simp] theorem portService_kept (p : Nat) (c : FramerConst) (s : State) : (portService p c s).kept = s.kept := by
  unfold portService
  dsimp only
  split
  · simp
  · split
    · simp
    · exact (resumeParked_kept _ _).trans ((checkTiming_kept _ _ _ _).trans ((restartTree_kept _ _).trans
        ((wakePort_kept _ _).trans (modPort_kept _ _ _))))

@[simp] theorem portOff_kept (p : Nat) (s : State) :
    (portOff p s).kept = s.kept := by
  (simp only [portOff]; (repeat' split) <;> simp [*])

@[simp] theorem startReset_kept (p : Nat) (restart : Bool) (cmd : Option (Nat × Word)) (s : State) :
    (startReset p restart cmd s).kept = s.kept := by
  (simp only [startReset]; (repeat' split) <;> simp [*])

@[simp] theorem portEnable_kept (c : FramerConst) (a : Adm) (s : State) :
    (portEnable c a s).kept = s.kept := by
  (simp [portEnable])

@[simp] theorem portDisable_kept (a : Adm) (s : State) :
    (portDisable a s).kept = s.kept := by
  (simp [portDisable])

@[simp] theorem portRestart_kept (a : Adm) (s : State) :
    (portRestart a s).kept = s.kept := by
  (simp [portRestart])

@[simp] theorem flushAck_kept (p : Nat) (s : State) :
    (flushAck p s).kept = s.kept := by
  (unfold flushAck; split <;> simp [*])

@[simp] theorem resetTruncate_kept (p sent : Nat) (s : State) :
    (resetTruncate p sent s).kept = s.kept := by
  (simp [resetTruncate])

@[simp] theorem resetCmd_kept (r : PortReset) (st : Nat) (s : State) :
    (resetCmd r st s).kept = s.kept := by
  (unfold resetCmd; split <;> simp [*])

@[simp] theorem resetOff_kept (p : Nat) (s : State) :
    (resetOff p s).kept = s.kept := by
  (unfold resetOff; split <;> simp [*])

@[simp] theorem resetDone_kept (p : Nat) (c : FramerConst) (s : State) :
    (resetDone p c s).kept = s.kept := by
  (unfold resetDone; split <;> simp [*])

@[simp] theorem clockGone_kept (p cause : Nat) (s : State) :
    (clockGone p cause s).kept = s.kept := by
  (simp only [clockGone]; (repeat' split) <;> simp [*])

@[simp] theorem partnerGone_kept (p : Nat) (s : State) :
    (partnerGone p s).kept = s.kept := by
  (unfold partnerGone; split <;> simp [*])

@[simp] theorem clockLost_kept (p : Nat) (s : State) :
    (clockLost p s).kept = s.kept := by
  (simp [clockLost])

@[simp] theorem clockMeasure_kept (p khz : Nat) (s : State) :
    (clockMeasure p khz s).kept = s.kept := by
  (simp [clockMeasure])

@[simp] theorem degradedRise_kept (p : Nat) (s : State) :
    (degradedRise p s).kept = s.kept := by
  (simp [degradedRise])

@[simp] theorem degradedFall_kept (p : Nat) (s : State) :
    (degradedFall p s).kept = s.kept := by
  (simp [degradedFall])

/-! Protect. -/

@[simp] theorem freeze_kept (t : Nat) (s : State) :
    (freeze t s).kept = s.kept := by
  (simp [freeze])

@[simp] theorem equalise_kept (t : Nat) (d : Int) (side : Bool) (s : State) :
    (equalise t d side s).kept = s.kept := by
  (simp [equalise])

@[simp] theorem migStart_kept (t dest : Nat) (cmd : Option (Nat × Word)) (s : State) :
    (migStart t dest cmd s).kept = s.kept := by
  (simp [migStart])

@[simp] theorem rehomeCheck_kept (t : Nat) (s : State) :
    (rehomeCheck t s).kept = s.kept := by
  (unfold rehomeCheck; split <;> simp [*])

@[simp] theorem protSwitch_kept (p : Nat) (side : Bool) (s : State) :
    (protSwitch p side s).kept = s.kept := by
  (simp only [protSwitch]; (repeat' split) <;> simp [*])

@[simp] theorem rebind_kept (t : Nat) (s : State) :
    (rebind t s).kept = s.kept := by
  (simp [rebind])

@[simp] theorem rehomeRebind_kept (t : Nat) (s : State) :
    (rehomeRebind t s).kept = s.kept := by
  (simp [rehomeRebind])

@[simp] theorem rehomeResume_kept (t : Nat) (s : State) :
    (rehomeResume t s).kept = s.kept := by
  (simp [rehomeResume])

@[simp] theorem migrateOut_kept (a : Adm) (s : State) :
    (migrateOut a s).kept = s.kept := by
  (simp only [migrateOut]; (repeat' split) <;> simp [*])

@[simp] theorem migSend_kept (t : Nat) (s : State) :
    (migSend t s).kept = s.kept := by
  (unfold migSend; split <;> simp [*])

@[simp] theorem listIn_kept (t : Nat) (list : List (Word × Word)) (s : State) :
    (listIn t list s).kept = s.kept := by
  (simp [listIn])

@[simp] theorem drainEnd_kept (t : Nat) (list : List (Word × Word)) (s : State) :
    (drainEnd t list s).kept = s.kept := by
  (simp only [drainEnd]; (repeat' split) <;> simp [*])

@[simp] theorem migCmd_kept (m : MigOut) (st : Nat) (s : State) :
    (migCmd m st s).kept = s.kept := by
  (unfold migCmd; split <;> simp [*])

@[simp] theorem migFail_kept (t arg : Nat) (m : MigOut) (s : State) :
    (migFail t arg m s).kept = s.kept := by
  (simp [migFail])

@[simp] theorem listLost_kept (t : Nat) (s : State) :
    (listLost t s).kept = s.kept := by
  (unfold listLost; split <;> simp [*])

@[simp] theorem dropFlow_kept (f : Nat) (s : State) :
    (dropFlow f s).kept = s.kept := by
  (unfold dropFlow; split <;> simp [*])

@[simp] theorem clearTerm_kept (h : Nat) (s : State) :
    (clearTerm h s).kept = s.kept := by
  (simp [clearTerm])

@[simp] theorem migClose_kept (t st : Nat) (m : MigOut) (s : State) :
    (migClose t st m s).kept = s.kept := by
  (simp [migClose])

@[simp] theorem migDoneIn_kept (origin mid st : Nat) (s : State) :
    (migDoneIn origin mid st s).kept = s.kept := by
  (unfold migDoneIn; split <;> simp [*])

@[simp] theorem migDoneLate_kept (t : Nat) (s : State) :
    (migDoneLate t s).kept = s.kept := by
  (unfold migDoneLate; split <;> simp [*])

@[simp] theorem migrateIn_kept (c : FramerConst) (a : Adm) (s : State) :
    (migrateIn c a s).kept = s.kept := by
  (simp only [migrateIn]; (repeat' split) <;> simp [*])

@[simp] theorem modMigIn_kept (p : Nat) (f : MigIn → MigIn) (s : State) :
    (modMigIn p f s).kept = s.kept := by
  (simp [modMigIn])

@[simp] theorem uninstall_kept (p : Nat) (s : State) :
    (uninstall p s).kept = s.kept := by
  (unfold uninstall; split <;> simp [*])

@[simp] theorem cancelIn_kept (p : Nat) (s : State) :
    (cancelIn p s).kept = s.kept := by
  (unfold cancelIn; split <;> simp [*])

@[simp] theorem answer_kept (origin mid st : Nat) (s : State) :
    (answer origin mid st s).kept = s.kept := by
  (simp [answer])

@[simp] theorem migBeginIn_kept (origin : Nat) (b : MigBegin) (s : State) :
    (migBeginIn origin b s).kept = s.kept := by
  (simp only [migBeginIn]; (repeat' split) <;> simp [*])

@[simp] theorem migTermIn_kept (origin mid term : Nat) (ws : List Word) (s : State) :
    (migTermIn origin mid term ws s).kept = s.kept := by
  (unfold migTermIn; split <;> simp [*])

@[simp] theorem migFlowIn_kept (origin mid flow : Nat) (ws : List Word) (s : State) :
    (migFlowIn origin mid flow ws s).kept = s.kept := by
  (unfold migFlowIn; split <;> simp [*])

@[simp] theorem migService_kept (p : Nat) (s : State) :
    (migService p s).kept = s.kept := by
  (simp only [migService]; (repeat' split) <;> simp [*])

@[simp] theorem settleMigIn_kept (p : Nat) (s : State) :
    (settleMigIn p s).kept = s.kept := by
  (unfold settleMigIn; split <;> simp [*])

@[simp] theorem settleMigIns_kept (s : State) :
    (settleMigIns s).kept = s.kept := by
  (simp [settleMigIns])

@[simp] theorem migEndIn_kept (origin mid terms flows : Nat) (s : State) :
    (migEndIn origin mid terms flows s).kept = s.kept := by
  (simp only [migEndIn]; (repeat' split) <;> simp [*])

@[simp] theorem migEndLate_kept (p : Nat) (s : State) :
    (migEndLate p s).kept = s.kept := by
  (unfold migEndLate; split <;> simp [*])

/-! Link. -/

@[simp] theorem usSent_kept (id : Nat) (s : State) :
    (usSent id s).kept = s.kept := by
  (unfold usSent; split <;> simp [*])

@[simp] theorem timeSent_kept (c sub seqId : Nat) (t : FullStamp) (s : State) :
    (timeSent c sub seqId t s).kept = s.kept := by
  (unfold timeSent; split <;> simp [*])

@[simp] theorem finishMsg_kept (c : Nat) (s : State) :
    (finishMsg c s).kept = s.kept := by
  (unfold finishMsg; (repeat' split) <;> simp [*])

@[simp] theorem startMsg_kept (c sub : Nat) (m : Msg) (s : State) :
    (startMsg c sub m s).kept = s.kept := by
  (simp only [startMsg]; (repeat' split) <;> simp [*])

@[simp] theorem numbered_kept (c : Nat) (m : Msg) (s : State) : (numbered c m s).2.kept = s.kept := by
  simp only [numbered]
  (repeat' split) <;> simp

@[simp] theorem purgeOut_kept (s : State) :
    (purgeOut s).kept = s.kept := by
  (unfold purgeOut; exact foldl_kept _ (fun x a => by (repeat' split) <;> simp) _ _)

@[simp] theorem nextMsg_kept (c sub : Nat) (s : State) :
    (nextMsg c sub s).kept = s.kept := by
  (simp only [nextMsg]; (repeat' split) <;> simp [*])

@[simp] theorem linkTransmit_kept (x : LinkSend) (s : State) :
    (linkTransmit x s).kept = s.kept := by
  (simp only [linkTransmit]; (repeat' split) <;> simp [*])

@[simp] theorem retransmit_kept (c : Nat) (s : State) :
    (retransmit c s).kept = s.kept := by
  (unfold retransmit; split <;> simp [*])

@[simp] theorem ackIn_kept (c : Nat) (next : Word) (gap : Bool) (s : State) :
    (ackIn c next gap s).kept = s.kept := by
  (simp [ackIn])

@[simp] theorem sendAck_kept (c : Nat) (gap : Bool) (s : State) :
    (sendAck c gap s).kept = s.kept := by
  (simp [sendAck])

@[simp] theorem seqTake_kept (c : Nat) (q : Word) (ok : State → State) (s : State) (h_ok : ∀ x, (ok x).kept = x.kept) :
    (seqTake c q ok s).kept = s.kept := by
  (simp [seqTake, h_ok])

@[simp] theorem storeRoom_kept (c cls len : Nat) (ok : State → State) (s : State) (h_ok : ∀ x, (ok x).kept = x.kept) :
    (storeRoom c cls len ok s).kept = s.kept := by
  (simp [storeRoom, h_ok])

@[simp] theorem hold_kept (c : Nat) (cls len : Nat) (m : Msg) (local' : Bool) (s : State) :
    (hold c cls len m local' s).kept = s.kept := by
  (simp [hold])

@[simp] theorem carryOut_kept (c cls len : Nat) (m : Msg) (act : State → State) (s : State) (h_act : ∀ x, (act x).kept = x.kept) :
    (carryOut c cls len m act s).kept = s.kept := by
  (simp [carryOut, h_act])

@[simp] theorem forward_kept (c : Nat) (h : MsgHdr) (b : Body) (s : State) :
    (forward c h b s).kept = s.kept := by
  (simp [forward])

@[simp] theorem countRx_kept (c len : Nat) (s : State) :
    (countRx c len s).kept = s.kept := by
  (simp [countRx])

@[simp] theorem rxOn_kept (c len : Nat) (f : State → State) (s : State) (h_f : ∀ x, (f x).kept = x.kept) :
    (rxOn c len f s).kept = s.kept := by
  (simp [rxOn, h_f])

@[simp] theorem rxIn_kept (c : Nat) (h : MsgHdr) (len : Nat) (f : State → State) (s : State) (h_f : ∀ x, (f x).kept = x.kept) :
    (rxIn c h len f s).kept = s.kept := by
  simp [rxIn, h_f]

@[simp] theorem dataHere_kept (c : Nat) (h : MsgHdr) (d : DataMsg) (s : State) :
    (dataHere c h d s).kept = s.kept := by
  (simp [dataHere])

@[simp] theorem dataIn_kept (c : Nat) (h : MsgHdr) (d : DataMsg) (s : State) :
    (dataIn c h d s).kept = s.kept := by
  (simp [dataIn])

@[simp] theorem msgBad_kept (c : Nat) (bs : List Byte) (s : State) :
    (msgBad c bs s).kept = s.kept := by
  (simp [msgBad])

@[simp] theorem transitLate_kept (c : Nat) (s : State) :
    (transitLate c s).kept = s.kept := by
  (unfold transitLate; split <;> simp [*])

@[simp] theorem pauseIn_kept (c : Nat) (enable : Byte) (quanta : List (BitVec 16)) (s : State) :
    (pauseIn c enable quanta s).kept = s.kept := by
  (simp [pauseIn])

@[simp] theorem pauseAgain_kept (c k : Nat) (s : State) :
    (pauseAgain c k s).kept = s.kept := by
  (simp [pauseAgain])

@[simp] theorem modExch_kept (c : Nat) (x : Option Exch) (s : State) :
    (modExch c x s).kept = s.kept := by
  (simp [modExch])

@[simp] theorem timeStart_kept (c : Nat) (s : State) :
    (timeStart c s).kept = s.kept := by
  (simp [timeStart])

@[simp] theorem timeOn_kept (c : Nat) (ok : Bool) (f : State → State) (s : State) (h_f : ∀ x, (f x).kept = x.kept) :
    (timeOn c ok f s).kept = s.kept := by
  (simp [timeOn, h_f])

@[simp] theorem syncIn_kept (c seqId sub : Nat) (s : State) :
    (syncIn c seqId sub s).kept = s.kept := by
  (simp [syncIn])

@[simp] theorem followUpIn_kept (c seqId : Nat) (t : LinkStamp) (s : State) : (followUpIn c seqId t s).kept = s.kept := by
  unfold followUpIn
  refine timeOn_kept _ _ _ _ (fun x => ?_)
  (repeat' split) <;> rfl

@[simp] theorem delayReqIn_kept (c seqId sub : Nat) (s : State) : (delayReqIn c seqId sub s).kept = s.kept := by
  unfold delayReqIn
  refine timeOn_kept _ _ _ _ (fun x => ?_)
  (repeat' split) <;> first | rfl | simp

@[simp] theorem timeResult_kept (c : Nat) (x : Exch) (t4 : FullStamp) (s : State) :
    (timeResult c x t4 s).kept = s.kept := by
  (simp [timeResult])

@[simp] theorem delayRespIn_kept (c seqId : Nat) (t : LinkStamp) (s : State) : (delayRespIn c seqId t s).kept = s.kept := by
  unfold delayRespIn
  refine timeOn_kept _ _ _ _ (fun x => ?_)
  (repeat' split) <;> first | rfl | simp

@[simp] theorem lpiEnter_kept (c : Nat) (s : State) :
    (lpiEnter c s).kept = s.kept := by
  (simp [lpiEnter])

@[simp] theorem lpiWake_kept (c : Nat) (s : State) :
    (lpiWake c s).kept = s.kept := by
  (simp [lpiWake])

/-! Lanes. -/

@[simp] theorem portStop_kept (c : Nat) (s : State) :
    (portStop c s).kept = s.kept := by
  (simp [portStop])

@[simp] theorem portDown_kept (l : Nat) (s : State) :
    (portDown l s).kept = s.kept := by
  (simp [portDown])

@[simp] theorem laneTo_kept (l st : Nat) (s : State) :
    (laneTo l st s).kept = s.kept := by
  (simp [laneTo])

@[simp] theorem cutMessage_kept (l : Nat) (s : State) :
    (cutMessage l s).kept = s.kept := by
  (simp [cutMessage])

@[simp] theorem laneReset_kept (l : Nat) (s : State) :
    (laneReset l s).kept = s.kept := by
  (simp [laneReset])

@[simp] theorem laneResetDone_kept (l : Nat) (s : State) :
    (laneResetDone l s).kept = s.kept := by
  (simp [laneResetDone])

@[simp] theorem laneSwitched_kept (l : Nat) (was : Bool) (s : State) :
    (laneSwitched l was s).kept = s.kept := by
  (simp [laneSwitched])

@[simp] theorem laneCtrlWrite_base (width : Nat) (v : Word) (s : State) :
    (laneCtrlWrite width v s).kept.base = s.kept.base := by
  (simp [laneCtrlWrite])

@[simp] theorem retrain_kept (a : Adm) (s : State) :
    (retrain a s).kept = s.kept := by
  (simp [retrain])

@[simp] theorem noRefClk_kept (h : Nat) (s : State) :
    (noRefClk h s).kept = s.kept := by
  (simp [noRefClk])

@[simp] theorem probe_kept (l : Nat) (found refClk : Bool) (s : State) :
    (probe l found refClk s).kept = s.kept := by
  (simp [probe])

@[simp] theorem timeLimit_kept (l : Nat) (s : State) :
    (timeLimit l s).kept = s.kept := by
  (simp [timeLimit])

@[simp] theorem symbolLost_kept (x : LaneLoss) (s : State) :
    (symbolLost x s).kept = s.kept := by
  (simp [symbolLost])

@[simp] theorem trainEnd_kept (l : Nat) (s : State) :
    (trainEnd l s).kept = s.kept := by
  (simp [trainEnd])

@[simp] theorem tsIn_kept (l : Nat) (ps : List Byte) (s : State) :
    (tsIn l ps s).kept = s.kept := by
  (simp [tsIn])

@[simp] theorem receiverTrained_kept (l : Nat) (s : State) :
    (receiverTrained l s).kept = s.kept := by
  (simp [receiverTrained])

@[simp] theorem lkIn_kept (l : Nat) (ps : List Byte) (clean : Bool) (s : State) :
    (lkIn l ps clean s).kept = s.kept := by
  (simp [lkIn])

@[simp] theorem capSetIn_kept (l : Nat) (ps : List Byte) (s : State) :
    (capSetIn l ps s).kept = s.kept := by
  (simp [capSetIn])

@[simp] theorem markIn_kept (l : Nat) (ps : List Byte) (s : State) :
    (markIn l ps s).kept = s.kept := by
  (simp [markIn])

@[simp] theorem rateSwitch_kept (l : Nat) (s : State) :
    (rateSwitch l s).kept = s.kept := by
  (simp [rateSwitch])

@[simp] theorem sessionChange_kept (c new : Nat) (s : State) :
    (sessionChange c new s).kept = s.kept := by
  (simp only [sessionChange]; (repeat' split) <;> simp [*])

@[simp] theorem tryUp_kept (c : Nat) (s : State) :
    (tryUp c s).kept = s.kept := by
  (unfold tryUp; (repeat' split) <;> simp [*])

@[simp] theorem blockLock_kept (l : Nat) (s : State) :
    (blockLock l s).kept = s.kept := by
  (simp [blockLock])

@[simp] theorem laneAligned_kept (x : LaneAlign) (s : State) :
    (laneAligned x s).kept = s.kept := by
  (simp [laneAligned])

@[simp] theorem laneLost_kept (l cause : Nat) (s : State) :
    (laneLost l cause s).kept = s.kept := by
  (simp [laneLost])

@[simp] theorem headersLost_kept (x : LaneLoss) (s : State) :
    (headersLost x s).kept = s.kept := by
  (simp [headersLost])

@[simp] theorem invalidBlock_kept (l : Nat) (x : RxBlocks) (s : State) :
    (invalidBlock l x s).kept = s.kept := by
  (simp only [invalidBlock]; (repeat' split) <;> simp [*])

@[simp] theorem sleepIn_kept (c : Nat) (s : State) :
    (sleepIn c s).kept = s.kept := by
  (simp [sleepIn])

@[simp] theorem wakeIn_kept (c : Nat) (s : State) :
    (wakeIn c s).kept = s.kept := by
  (simp [wakeIn])

@[simp] theorem capMsgIn_kept (c : Nat) (ps : List Byte) (s : State) :
    (capMsgIn c ps s).kept = s.kept := by
  (simp [capMsgIn])

/-! Monitor. -/

@[simp] theorem areaRead_kept (addr : Nat) (index : Answer (Word × Word)) (s : State) :
    (areaRead addr index s).kept = s.kept := by
  (unfold areaRead; split <;> simp [*])

@[simp] theorem traceIndexOut_kept (s : State) :
    (traceIndexOut s).kept = s.kept := by
  (simp only [traceIndexOut]; (repeat' split) <;> simp [*])

@[simp] theorem traceStart_kept (index : Answer (Word × Word)) (s : State) :
    (traceStart index s).kept = s.kept := by
  (simp only [traceStart]; (repeat' split) <;> simp [*])

@[simp] theorem traceEnable_base (v : Word) (index : Answer (Word × Word)) (s : State) :
    (traceEnable v index s).kept.base = s.kept.base := by
  (simp [traceEnable])

@[simp] theorem traceCiRead_kept (s : State) :
    (traceCiRead s).kept = s.kept := by
  (simp [traceCiRead])

@[simp] theorem drainTrace_kept (n : Nat) (s : State) : (drainTrace n s).kept = s.kept := by
  induction n generalizing s with
  | zero => rfl
  | succ n ih =>
    simp only [drainTrace]
    (repeat' split) <;> simp [ih]

@[simp] theorem traceCiIn_kept (ci : Word) (s : State) :
    (traceCiIn ci s).kept = s.kept := by
  (simp [traceCiIn])

@[simp] theorem bwStart_kept (s : State) :
    (bwStart s).kept = s.kept := by
  (simp [bwStart])

@[simp] theorem bwEnd_kept (short : Bool) (s : State) :
    (bwEnd short s).kept = s.kept := by
  (simp [bwEnd])

@[simp] theorem bwCtrlWrite_base (width : Nat) (v : Word) (s : State) :
    (bwCtrlWrite width v s).kept.base = s.kept.base := by
  (simp [bwCtrlWrite])

@[simp] theorem bwRead_kept (n : Nat) (s : State) :
    (bwRead n s).kept = s.kept := by
  (simp [bwRead])

@[simp] theorem addFreeze_kept (f : Freeze) (s : State) :
    (addFreeze f s).kept = s.kept := by
  (unfold addFreeze; (repeat' split) <;> simp [*])

@[simp] theorem sendSnap_kept (pick : Nat → Bool) (m : Msg) (s : State) :
    (sendSnap pick m s).kept = s.kept := by
  (simp [sendSnap])

@[simp] theorem snapTake_kept (a : Adm) (s : State) :
    (snapTake a s).kept = s.kept := by
  (simp [snapTake])

@[simp] theorem snapIn_kept (c : Nat) (h : MsgHdr) (number sec ns : Nat) (s : State) :
    (snapIn c h number sec ns s).kept = s.kept := by
  (simp only [snapIn]; (repeat' split) <;> simp [*])

@[simp] theorem freezeNow_kept (s : State) :
    (freezeNow s).kept = s.kept := by
  (unfold freezeNow; split <;> simp [*])

@[simp] theorem endImageWrites_kept (s : State) :
    (endImageWrites s).kept = s.kept := by
  (simp [endImageWrites])

@[simp] theorem writeHeader_kept (m : Image) (s : State) :
    (writeHeader m s).kept = s.kept := by
  (simp [writeHeader])

@[simp] theorem imageEnd_kept (m : Image) (st : Nat) (results : List Word) (s : State) :
    (imageEnd m st results s).kept = s.kept := by
  (unfold imageEnd; split <;> simp [*])

@[simp] theorem imageDone_kept (m : Image) (s : State) :
    (imageDone m s).kept = s.kept := by
  (unfold imageDone; split <;> simp [*])

@[simp] theorem snapDone_kept (s : State) :
    (snapDone s).kept = s.kept := by
  (unfold snapDone; split <;> simp [*])

@[simp] theorem imageAck_kept (header : Bool) (s : State) :
    (imageAck header s).kept = s.kept := by
  (unfold imageAck; split <;> simp [*])

@[simp] theorem imageFail_kept (s : State) :
    (imageFail s).kept = s.kept := by
  (unfold imageFail; split <;> simp [*])

@[simp] theorem seedWrite_base (width : Nat) (v : Word) (s : State) :
    (seedWrite width v s).kept.base = s.kept.base := by
  (simp [seedWrite])

/-! Reset. -/

@[simp] theorem drainRing_kept (r : Nat) (s : State) :
    (drainRing r s).kept = s.kept := by
  (simp [drainRing])

@[simp] theorem drainRings_kept (s : State) :
    (drainRings s).kept = s.kept := by
  (simp [drainRings])

@[simp] theorem flushDescriptors_kept (s : State) :
    (flushDescriptors s).kept = s.kept := by
  (simp [flushDescriptors])

@[simp] theorem flushUpstream_kept (s : State) :
    (flushUpstream s).kept = s.kept := by
  (simp [flushUpstream])

@[simp] theorem quiesceCaddie_kept (s : State) :
    (quiesceCaddie s).kept = s.kept := by
  (simp [quiesceCaddie])

@[simp] theorem refLost_kept (s : State) :
    (refLost s).kept = s.kept := by
  (simp [refLost])

@[simp] theorem refBack_kept (s : State) :
    (refBack s).kept = s.kept := by
  (simp [refBack])

/-! Time. -/

@[simp] theorem tsqIndexOut_kept (s : State) :
    (tsqIndexOut s).kept = s.kept := by
  (simp only [tsqIndexOut]; (repeat' split) <;> simp [*])

@[simp] theorem tsqStart_kept (index : Answer (Word × Word)) (s : State) :
    (tsqStart index s).kept = s.kept := by
  (simp only [tsqStart]; (repeat' split) <;> simp [*])

@[simp] theorem tsqEnable_base (v : Word) (index : Answer (Word × Word)) (s : State) :
    (tsqEnable v index s).kept.base = s.kept.base := by
  (simp [tsqEnable])

@[simp] theorem tsqCiRead_kept (s : State) :
    (tsqCiRead s).kept = s.kept := by
  (simp [tsqCiRead])

@[simp] theorem drainStamps_kept (n : Nat) (s : State) : (drainStamps n s).kept = s.kept := by
  induction n generalizing s with
  | zero => rfl
  | succ n ih =>
    simp only [drainStamps]
    (repeat' split) <;> simp [ih]

@[simp] theorem stampsWait_kept (s : State) :
    (stampsWait s).kept = s.kept := by
  (simp [stampsWait])

@[simp] theorem tsqCiIn_kept (ci : Word) (s : State) :
    (tsqCiIn ci s).kept = s.kept := by
  (simp [tsqCiIn])

@[simp] theorem nowSnap_kept (s : State) :
    (nowSnap s).kept = s.kept := by
  (simp [nowSnap])

@[simp] theorem modWhistle_kept (w : Nat) (f : Whistle → Whistle) (s : State) :
    (modWhistle w f s).kept = s.kept := by
  (simp [modWhistle])

@[simp] theorem whistleSet_kept (a : Adm) (s : State) :
    (whistleSet a s).kept = s.kept := by
  (simp [whistleSet])

@[simp] theorem missPulse_kept (w at' : Nat) (s : State) :
    (missPulse w at' s).kept = s.kept := by
  (simp [missPulse])

@[simp] theorem pulsePast_kept (w : Nat) (s : State) :
    (pulsePast w s).kept = s.kept := by
  (simp [pulsePast])

@[simp] theorem whistleRise_kept (w : Nat) (s : State) :
    (whistleRise w s).kept = s.kept := by
  (simp [whistleRise])

@[simp] theorem whistleFall_kept (w : Nat) (s : State) :
    (whistleFall w s).kept = s.kept := by
  (unfold whistleFall; split <;> simp [*])

@[simp] theorem whistleStep_kept (fwd : Bool) (w : Nat) (s : State) :
    (whistleStep fwd w s).kept = s.kept := by
  (simp [whistleStep])

@[simp] theorem shiftTimes_kept (d : Int) (s : State) :
    (shiftTimes d s).kept = s.kept := by
  (simp [shiftTimes])

@[simp] theorem launchAll_kept (s : State) :
    (launchAll s).kept = s.kept := by
  (simp [launchAll])

/-! Fabric. -/

@[simp] theorem dueIndex_kept (q : Nat) (s : State) :
    (dueIndex q s).kept = s.kept := by
  (simp [dueIndex])

@[simp] theorem rxWriteEnd_kept (id : Nat) (s : State) :
    (rxWriteEnd id s).kept = s.kept := by
  (unfold rxWriteEnd; (repeat' split) <;> simp [*])

@[simp] theorem writeAcked_kept (w : WrReq) (s : State) :
    (writeAcked w s).kept = s.kept := by
  (unfold writeAcked; split <;> simp [*])

@[simp] theorem endWrite_kept (id : Nat) (s : State) :
    (endWrite id s).kept = s.kept := by
  (simp [endWrite])

@[simp] theorem writeAck_kept (id : Nat) (s : State) :
    (writeAck id s).kept = s.kept := by
  (unfold writeAck; split <;> simp [*])

@[simp] theorem reissue_kept (w : WrReq) (s : State) :
    (reissue w s).kept = s.kept := by
  (simp [reissue])

@[simp] theorem stopWith_kept (q : Nat) (w : WrReq) (s : State) :
    (stopWith q w s).kept = s.kept := by
  (simp [stopWith])

@[simp] theorem writeFailed_kept (w : WrReq) (s : State) :
    (writeFailed w s).kept = s.kept := by
  (unfold writeFailed; (repeat' split) <;> simp [*])

@[simp] theorem descFailed_kept (q : Nat) (idxs : List Word) (s : State) :
    (descFailed q idxs s).kept = s.kept := by
  (unfold descFailed; split <;> simp [*])

@[simp] theorem readFailed_kept (r : RdReq) (s : State) :
    (readFailed r s).kept = s.kept := by
  (simp only [readFailed]; (repeat' split) <;> simp [*])

@[simp] theorem fabParity_kept (k : Fin 4) (addr : Nat) (s : State) :
    (fabParity k addr s).kept = s.kept := by
  (simp [fabParity])

@[simp] theorem fabricError_kept (k : FabFail) (id : Nat) (s : State) :
    (fabricError k id s).kept = s.kept := by
  (simp only [fabricError]; (repeat' split) <;> simp [*])

@[simp] theorem fabricTimeout_kept (write : Bool) (id : Nat) (s : State) :
    (fabricTimeout write id s).kept = s.kept := by
  (simp only [fabricTimeout]; (repeat' split) <;> simp [*])

@[simp] theorem reread_kept (r : RdReq) (ws : List Word) (s : State) : (reread r ws s).kept = s.kept := by
  simp only [reread]; (repeat' split) <;> simp

@[simp] theorem lateResponse_kept (b : ReadBack) (s : State) : (lateResponse b s).kept = s.kept := by
  unfold lateResponse; split <;> simp

@[simp] theorem playbookLoad_kept (a : Adm) (s : State) :
    (playbookLoad a s).kept = s.kept := by
  (simp [playbookLoad])

@[simp] theorem pbInstall_base (code : Nat) (e : Word) (s : State) :
    (pbInstall code e s).kept.base = s.kept.base := by
  (simp [pbInstall])

@[simp] theorem playbookIn_base (a : Adm) (ws : List Word) (s : State) :
    (playbookIn a ws s).kept.base = s.kept.base := by
  (simp [playbookIn])

@[simp] theorem bufferIn_base (a : Adm) (ws : List Word) (s : State) :
    (bufferIn a ws s).kept.base = s.kept.base := by
  (unfold bufferIn; split <;> simp [*])

@[simp] theorem adminBufIn_base (q : Nat) (idx : Word) (data : Option (List Word)) (s : State) :
    (adminBufIn q idx data s).kept.base = s.kept.base := by
  (unfold adminBufIn; (repeat' split) <;> simp [*])

/-! Errors. -/

@[simp] theorem spoilUp_kept (id : Nat) (s : State) :
    (spoilUp id s).kept = s.kept := by
  (unfold spoilUp; split <;> simp [*])

@[simp] theorem unqueue_kept (q : Nat) (idx : Word) (s : State) :
    (unqueue q idx s).kept = s.kept := by
  (simp [unqueue])

@[simp] theorem spoilTx_kept (t : Tx) (st fate : Nat) (s : State) :
    (spoilTx t st fate s).kept = s.kept := by
  (simp [spoilTx])

@[simp] theorem spoilDown_kept (t : Tx) (s : State) :
    (spoilDown t s).kept = s.kept := by
  (simp only [spoilDown]; (repeat' split) <;> simp [*])

@[simp] theorem spoilCtrl_kept (k : Nat) (s : State) :
    (spoilCtrl k s).kept = s.kept := by
  (unfold spoilCtrl; split <;> simp [*])

@[simp] theorem spoilCtx_kept (i : Nat) (s : State) :
    (spoilCtx i s).kept = s.kept := by
  (simp [spoilCtx])

@[simp] theorem spoilItem_kept (store item : Nat) (s : State) :
    (spoilItem store item s).kept = s.kept := by
  (simp [spoilItem])

@[simp] theorem spoilLet_kept (q k : Nat) (s : State) :
    (spoilLet q k s).kept = s.kept := by
  (simp [spoilLet])

@[simp] theorem spoilRec_kept (h : Nat) (s : State) :
    (spoilRec h s).kept = s.kept := by
  (simp [spoilRec])

@[simp] theorem spoilMsg_kept (c id : Nat) (s : State) :
    (spoilMsg c id s).kept = s.kept := by
  (simp only [spoilMsg]; (repeat' split) <;> simp [*])

@[simp] theorem spoilLedger_kept (t pos key : Nat) (s : State) :
    (spoilLedger t pos key s).kept = s.kept := by
  (simp [spoilLedger])

@[simp] theorem spoilFlow_kept (f : Nat) (s : State) : (spoilFlow f s).kept = s.kept := by
  unfold spoilFlow; split <;> simp

@[simp] theorem spoilQueue_kept (q : Nat) (s : State) : (spoilQueue q s).kept = s.kept := by
  unfold spoilQueue; split <;> simp

@[simp] theorem spoilAlwaysOn_kept (item : Nat) (s : State) :
    (spoilAlwaysOn item s).kept = s.kept := by
  (simp [spoilAlwaysOn])

@[simp] theorem spoilCtr_kept (off : Nat) (s : State) : (spoilCtr off s).kept = s.kept := by
  simp only [spoilCtr]
  split
  · exact (raise_kept _ _ _ _).trans rfl
  · rfl

@[simp] theorem contain_base (store item : Nat) (s : State) : (contain store item s).kept.base = s.kept.base := by
  unfold contain
  split <;> try simp
  all_goals (repeat' split) <;> first | rfl | simp

@[simp] theorem corrected_kept (store word : Nat) (s : State) :
    (corrected store word s).kept = s.kept := by
  (simp [corrected])

@[simp] theorem uncorrected_base (store word item : Nat) (s : State) :
    (uncorrected store word item s).kept.base = s.kept.base := by
  (simp [uncorrected])

@[simp] theorem scrub_base (store word item err : Nat) (s : State) :
    (scrub store word item err s).kept.base = s.kept.base := by
  (simp [scrub])

/-! Power. -/

@[simp] theorem domainIdle_kept (d sub : Nat) (s : State) :
    (domainIdle d sub s).kept = s.kept := by
  (simp only [domainIdle]; (repeat' split) <;> simp [*])

@[simp] theorem depthEntered_kept (d : Nat) (s : State) :
    (depthEntered d s).kept = s.kept := by
  (simp only [depthEntered]; (repeat' split) <;> simp [*])

@[simp] theorem shadowFault_kept (d : Nat) (s : State) :
    (shadowFault d s).kept = s.kept := by
  (simp [shadowFault])

@[simp] theorem lateWake_kept (d : Nat) (D : Dom) (at' : Int) (s : State) :
    (lateWake d D at' s).kept = s.kept := by
  (unfold lateWake; split <;> simp [*])

@[simp] theorem domainAwake_kept (d late : Nat) (shadowErr : Bool) (s : State) :
    (domainAwake d late shadowErr s).kept = s.kept := by
  (simp [domainAwake])

@[simp] theorem containAll_base (d : Nat) (s : State) : (containAll d s).kept.base = s.kept.base := by
  unfold containAll
  refine (foldl_base _ (fun x k => ?_) _ _).trans (congrArg _ (drawn_kept s))
  exact foldl_base _ (fun y i => contain_base _ _ _) _ _

@[simp] theorem listGone_base (p : Nat) (s : State) : (listGone p s).kept.base = s.kept.base := by
  unfold listGone; split
  · split <;> simp
  · rfl

@[simp] theorem wakeFailed_base (d : Nat) (s : State) :
    (wakeFailed d s).kept.base = s.kept.base := by
  (simp [wakeFailed])

@[simp] theorem wakeAll_kept (pick : State → Nat → Bool) (s : State) :
    (wakeAll pick s).kept = s.kept := by
  (simp [wakeAll])

@[simp] theorem pwrCtrlWrite_base (width : Nat) (v : Word) (s : State) :
    (pwrCtrlWrite width v s).kept.base = s.kept.base := by
  (simp [pwrCtrlWrite])

@[simp] theorem capWrite_base (off width : Nat) (v : Word) (s : State) :
    (capWrite off width v s).kept.base = s.kept.base := by
  (simp [capWrite])

/-! Readout. -/

@[simp] theorem ctrLowRead_kept (off : Nat) (s : State) : (ctrLowRead off s).kept = s.kept := by
  unfold ctrLowRead
  split <;> rfl

@[simp] theorem routeNext_base (s : State) :
    (routeNext s).kept.base = s.kept.base := by
  (simp [routeNext])

@[simp] theorem routeRead_base (s : State) :
    (routeRead s).kept.base = s.kept.base := by
  (simp [routeRead])

@[simp] theorem routeWrite_base (width : Nat) (v : Word) (s : State) :
    (routeWrite width v s).kept.base = s.kept.base := by
  (simp [routeWrite])

@[simp] theorem repairRead_base (s : State) :
    (repairRead s).kept.base = s.kept.base := by
  (simp [repairRead])

@[simp] theorem refusedClear_kept (s : State) :
    (refusedClear s).kept = s.kept := by
  (simp [refusedClear])

@[simp] theorem onBit_kept (v : Word) (i : Nat) (f : State → State) (s : State) (h_f : ∀ x, (f x).kept = x.kept) :
    (onBit v i f s).kept = s.kept := by
  (simp [onBit, h_f])

@[simp] theorem writeEffect_kept (off : Nat) (v : Word) (s : State) : (writeEffect off v s).kept = s.kept := by
  unfold writeEffect
  split <;> (try dsimp only) <;> (repeat' split) <;> first | rfl | simp

end Sys2Proof.Machine
end

