-- ==== Sys2Proof/Laws/State.lean ====
section
/-! SUPPORT. One lemma a field for every update of the state: what a unit's accessor changes, and that it leaves every other
part as it was. -/

namespace Sys2Proof.Machine

/-! The units. -/

@[simp] theorem State.modFab_phase (f : Fab → Fab) (s : State) : (s.modFab f).phase = s.phase := rfl
@[simp] theorem State.modFab_uptime (f : Fab → Fab) (s : State) : (s.modFab f).uptime = s.uptime := rfl
@[simp] theorem State.modFab_regs (f : Fab → Fab) (s : State) : (s.modFab f).regs = s.regs := rfl
@[simp] theorem State.modFab_ctrs (f : Fab → Fab) (s : State) : (s.modFab f).ctrs = s.ctrs := rfl
@[simp] theorem State.modFab_latches (f : Fab → Fab) (s : State) : (s.modFab f).latches = s.latches := rfl
@[simp] theorem State.modFab_fab (f : Fab → Fab) (s : State) : (s.modFab f).fab = f s.fab := rfl
@[simp] theorem State.modFab_hif (f : Fab → Fab) (s : State) : (s.modFab f).hif = s.hif := rfl
@[simp] theorem State.modFab_tpt (f : Fab → Fab) (s : State) : (s.modFab f).tpt = s.tpt := rfl
@[simp] theorem State.modFab_cls (f : Fab → Fab) (s : State) : (s.modFab f).cls = s.cls := rfl
@[simp] theorem State.modFab_gnt (f : Fab → Fab) (s : State) : (s.modFab f).gnt = s.gnt := rfl
@[simp] theorem State.modFab_rng (f : Fab → Fab) (s : State) : (s.modFab f).rng = s.rng := rfl
@[simp] theorem State.modFab_pgr (f : Fab → Fab) (s : State) : (s.modFab f).pgr = s.pgr := rfl
@[simp] theorem State.modFab_tim (f : Fab → Fab) (s : State) : (s.modFab f).tim = s.tim := rfl
@[simp] theorem State.modFab_lnk (f : Fab → Fab) (s : State) : (s.modFab f).lnk = s.lnk := rfl
@[simp] theorem State.modFab_pwr (f : Fab → Fab) (s : State) : (s.modFab f).pwr = s.pwr := rfl
@[simp] theorem State.modFab_err (f : Fab → Fab) (s : State) : (s.modFab f).err = s.err := rfl
@[simp] theorem State.modFab_mon (f : Fab → Fab) (s : State) : (s.modFab f).mon = s.mon := rfl
@[simp] theorem State.modFab_freeCtr (f : Fab → Fab) (s : State) : (s.modFab f).freeCtr = s.freeCtr := rfl
@[simp] theorem State.modFab_pending (f : Fab → Fab) (s : State) : (s.modFab f).pending = s.pending := rfl

@[simp] theorem State.modHif_phase (f : Hif → Hif) (s : State) : (s.modHif f).phase = s.phase := rfl
@[simp] theorem State.modHif_uptime (f : Hif → Hif) (s : State) : (s.modHif f).uptime = s.uptime := rfl
@[simp] theorem State.modHif_regs (f : Hif → Hif) (s : State) : (s.modHif f).regs = s.regs := rfl
@[simp] theorem State.modHif_ctrs (f : Hif → Hif) (s : State) : (s.modHif f).ctrs = s.ctrs := rfl
@[simp] theorem State.modHif_latches (f : Hif → Hif) (s : State) : (s.modHif f).latches = s.latches := rfl
@[simp] theorem State.modHif_fab (f : Hif → Hif) (s : State) : (s.modHif f).fab = s.fab := rfl
@[simp] theorem State.modHif_hif (f : Hif → Hif) (s : State) : (s.modHif f).hif = f s.hif := rfl
@[simp] theorem State.modHif_tpt (f : Hif → Hif) (s : State) : (s.modHif f).tpt = s.tpt := rfl
@[simp] theorem State.modHif_cls (f : Hif → Hif) (s : State) : (s.modHif f).cls = s.cls := rfl
@[simp] theorem State.modHif_gnt (f : Hif → Hif) (s : State) : (s.modHif f).gnt = s.gnt := rfl
@[simp] theorem State.modHif_rng (f : Hif → Hif) (s : State) : (s.modHif f).rng = s.rng := rfl
@[simp] theorem State.modHif_pgr (f : Hif → Hif) (s : State) : (s.modHif f).pgr = s.pgr := rfl
@[simp] theorem State.modHif_tim (f : Hif → Hif) (s : State) : (s.modHif f).tim = s.tim := rfl
@[simp] theorem State.modHif_lnk (f : Hif → Hif) (s : State) : (s.modHif f).lnk = s.lnk := rfl
@[simp] theorem State.modHif_pwr (f : Hif → Hif) (s : State) : (s.modHif f).pwr = s.pwr := rfl
@[simp] theorem State.modHif_err (f : Hif → Hif) (s : State) : (s.modHif f).err = s.err := rfl
@[simp] theorem State.modHif_mon (f : Hif → Hif) (s : State) : (s.modHif f).mon = s.mon := rfl
@[simp] theorem State.modHif_freeCtr (f : Hif → Hif) (s : State) : (s.modHif f).freeCtr = s.freeCtr := rfl
@[simp] theorem State.modHif_pending (f : Hif → Hif) (s : State) : (s.modHif f).pending = s.pending := rfl

@[simp] theorem State.modTpt_phase (f : Tpt → Tpt) (s : State) : (s.modTpt f).phase = s.phase := rfl
@[simp] theorem State.modTpt_uptime (f : Tpt → Tpt) (s : State) : (s.modTpt f).uptime = s.uptime := rfl
@[simp] theorem State.modTpt_regs (f : Tpt → Tpt) (s : State) : (s.modTpt f).regs = s.regs := rfl
@[simp] theorem State.modTpt_ctrs (f : Tpt → Tpt) (s : State) : (s.modTpt f).ctrs = s.ctrs := rfl
@[simp] theorem State.modTpt_latches (f : Tpt → Tpt) (s : State) : (s.modTpt f).latches = s.latches := rfl
@[simp] theorem State.modTpt_fab (f : Tpt → Tpt) (s : State) : (s.modTpt f).fab = s.fab := rfl
@[simp] theorem State.modTpt_hif (f : Tpt → Tpt) (s : State) : (s.modTpt f).hif = s.hif := rfl
@[simp] theorem State.modTpt_tpt (f : Tpt → Tpt) (s : State) : (s.modTpt f).tpt = f s.tpt := rfl
@[simp] theorem State.modTpt_cls (f : Tpt → Tpt) (s : State) : (s.modTpt f).cls = s.cls := rfl
@[simp] theorem State.modTpt_gnt (f : Tpt → Tpt) (s : State) : (s.modTpt f).gnt = s.gnt := rfl
@[simp] theorem State.modTpt_rng (f : Tpt → Tpt) (s : State) : (s.modTpt f).rng = s.rng := rfl
@[simp] theorem State.modTpt_pgr (f : Tpt → Tpt) (s : State) : (s.modTpt f).pgr = s.pgr := rfl
@[simp] theorem State.modTpt_tim (f : Tpt → Tpt) (s : State) : (s.modTpt f).tim = s.tim := rfl
@[simp] theorem State.modTpt_lnk (f : Tpt → Tpt) (s : State) : (s.modTpt f).lnk = s.lnk := rfl
@[simp] theorem State.modTpt_pwr (f : Tpt → Tpt) (s : State) : (s.modTpt f).pwr = s.pwr := rfl
@[simp] theorem State.modTpt_err (f : Tpt → Tpt) (s : State) : (s.modTpt f).err = s.err := rfl
@[simp] theorem State.modTpt_mon (f : Tpt → Tpt) (s : State) : (s.modTpt f).mon = s.mon := rfl
@[simp] theorem State.modTpt_freeCtr (f : Tpt → Tpt) (s : State) : (s.modTpt f).freeCtr = s.freeCtr := rfl
@[simp] theorem State.modTpt_pending (f : Tpt → Tpt) (s : State) : (s.modTpt f).pending = s.pending := rfl

@[simp] theorem State.modCls_phase (f : Cls → Cls) (s : State) : (s.modCls f).phase = s.phase := rfl
@[simp] theorem State.modCls_uptime (f : Cls → Cls) (s : State) : (s.modCls f).uptime = s.uptime := rfl
@[simp] theorem State.modCls_regs (f : Cls → Cls) (s : State) : (s.modCls f).regs = s.regs := rfl
@[simp] theorem State.modCls_ctrs (f : Cls → Cls) (s : State) : (s.modCls f).ctrs = s.ctrs := rfl
@[simp] theorem State.modCls_latches (f : Cls → Cls) (s : State) : (s.modCls f).latches = s.latches := rfl
@[simp] theorem State.modCls_fab (f : Cls → Cls) (s : State) : (s.modCls f).fab = s.fab := rfl
@[simp] theorem State.modCls_hif (f : Cls → Cls) (s : State) : (s.modCls f).hif = s.hif := rfl
@[simp] theorem State.modCls_tpt (f : Cls → Cls) (s : State) : (s.modCls f).tpt = s.tpt := rfl
@[simp] theorem State.modCls_cls (f : Cls → Cls) (s : State) : (s.modCls f).cls = f s.cls := rfl
@[simp] theorem State.modCls_gnt (f : Cls → Cls) (s : State) : (s.modCls f).gnt = s.gnt := rfl
@[simp] theorem State.modCls_rng (f : Cls → Cls) (s : State) : (s.modCls f).rng = s.rng := rfl
@[simp] theorem State.modCls_pgr (f : Cls → Cls) (s : State) : (s.modCls f).pgr = s.pgr := rfl
@[simp] theorem State.modCls_tim (f : Cls → Cls) (s : State) : (s.modCls f).tim = s.tim := rfl
@[simp] theorem State.modCls_lnk (f : Cls → Cls) (s : State) : (s.modCls f).lnk = s.lnk := rfl
@[simp] theorem State.modCls_pwr (f : Cls → Cls) (s : State) : (s.modCls f).pwr = s.pwr := rfl
@[simp] theorem State.modCls_err (f : Cls → Cls) (s : State) : (s.modCls f).err = s.err := rfl
@[simp] theorem State.modCls_mon (f : Cls → Cls) (s : State) : (s.modCls f).mon = s.mon := rfl
@[simp] theorem State.modCls_freeCtr (f : Cls → Cls) (s : State) : (s.modCls f).freeCtr = s.freeCtr := rfl
@[simp] theorem State.modCls_pending (f : Cls → Cls) (s : State) : (s.modCls f).pending = s.pending := rfl

@[simp] theorem State.modGnt_phase (f : Gnt → Gnt) (s : State) : (s.modGnt f).phase = s.phase := rfl
@[simp] theorem State.modGnt_uptime (f : Gnt → Gnt) (s : State) : (s.modGnt f).uptime = s.uptime := rfl
@[simp] theorem State.modGnt_regs (f : Gnt → Gnt) (s : State) : (s.modGnt f).regs = s.regs := rfl
@[simp] theorem State.modGnt_ctrs (f : Gnt → Gnt) (s : State) : (s.modGnt f).ctrs = s.ctrs := rfl
@[simp] theorem State.modGnt_latches (f : Gnt → Gnt) (s : State) : (s.modGnt f).latches = s.latches := rfl
@[simp] theorem State.modGnt_fab (f : Gnt → Gnt) (s : State) : (s.modGnt f).fab = s.fab := rfl
@[simp] theorem State.modGnt_hif (f : Gnt → Gnt) (s : State) : (s.modGnt f).hif = s.hif := rfl
@[simp] theorem State.modGnt_tpt (f : Gnt → Gnt) (s : State) : (s.modGnt f).tpt = s.tpt := rfl
@[simp] theorem State.modGnt_cls (f : Gnt → Gnt) (s : State) : (s.modGnt f).cls = s.cls := rfl
@[simp] theorem State.modGnt_gnt (f : Gnt → Gnt) (s : State) : (s.modGnt f).gnt = f s.gnt := rfl
@[simp] theorem State.modGnt_rng (f : Gnt → Gnt) (s : State) : (s.modGnt f).rng = s.rng := rfl
@[simp] theorem State.modGnt_pgr (f : Gnt → Gnt) (s : State) : (s.modGnt f).pgr = s.pgr := rfl
@[simp] theorem State.modGnt_tim (f : Gnt → Gnt) (s : State) : (s.modGnt f).tim = s.tim := rfl
@[simp] theorem State.modGnt_lnk (f : Gnt → Gnt) (s : State) : (s.modGnt f).lnk = s.lnk := rfl
@[simp] theorem State.modGnt_pwr (f : Gnt → Gnt) (s : State) : (s.modGnt f).pwr = s.pwr := rfl
@[simp] theorem State.modGnt_err (f : Gnt → Gnt) (s : State) : (s.modGnt f).err = s.err := rfl
@[simp] theorem State.modGnt_mon (f : Gnt → Gnt) (s : State) : (s.modGnt f).mon = s.mon := rfl
@[simp] theorem State.modGnt_freeCtr (f : Gnt → Gnt) (s : State) : (s.modGnt f).freeCtr = s.freeCtr := rfl
@[simp] theorem State.modGnt_pending (f : Gnt → Gnt) (s : State) : (s.modGnt f).pending = s.pending := rfl

@[simp] theorem State.modRng_phase (f : Rng → Rng) (s : State) : (s.modRng f).phase = s.phase := rfl
@[simp] theorem State.modRng_uptime (f : Rng → Rng) (s : State) : (s.modRng f).uptime = s.uptime := rfl
@[simp] theorem State.modRng_regs (f : Rng → Rng) (s : State) : (s.modRng f).regs = s.regs := rfl
@[simp] theorem State.modRng_ctrs (f : Rng → Rng) (s : State) : (s.modRng f).ctrs = s.ctrs := rfl
@[simp] theorem State.modRng_latches (f : Rng → Rng) (s : State) : (s.modRng f).latches = s.latches := rfl
@[simp] theorem State.modRng_fab (f : Rng → Rng) (s : State) : (s.modRng f).fab = s.fab := rfl
@[simp] theorem State.modRng_hif (f : Rng → Rng) (s : State) : (s.modRng f).hif = s.hif := rfl
@[simp] theorem State.modRng_tpt (f : Rng → Rng) (s : State) : (s.modRng f).tpt = s.tpt := rfl
@[simp] theorem State.modRng_cls (f : Rng → Rng) (s : State) : (s.modRng f).cls = s.cls := rfl
@[simp] theorem State.modRng_gnt (f : Rng → Rng) (s : State) : (s.modRng f).gnt = s.gnt := rfl
@[simp] theorem State.modRng_rng (f : Rng → Rng) (s : State) : (s.modRng f).rng = f s.rng := rfl
@[simp] theorem State.modRng_pgr (f : Rng → Rng) (s : State) : (s.modRng f).pgr = s.pgr := rfl
@[simp] theorem State.modRng_tim (f : Rng → Rng) (s : State) : (s.modRng f).tim = s.tim := rfl
@[simp] theorem State.modRng_lnk (f : Rng → Rng) (s : State) : (s.modRng f).lnk = s.lnk := rfl
@[simp] theorem State.modRng_pwr (f : Rng → Rng) (s : State) : (s.modRng f).pwr = s.pwr := rfl
@[simp] theorem State.modRng_err (f : Rng → Rng) (s : State) : (s.modRng f).err = s.err := rfl
@[simp] theorem State.modRng_mon (f : Rng → Rng) (s : State) : (s.modRng f).mon = s.mon := rfl
@[simp] theorem State.modRng_freeCtr (f : Rng → Rng) (s : State) : (s.modRng f).freeCtr = s.freeCtr := rfl
@[simp] theorem State.modRng_pending (f : Rng → Rng) (s : State) : (s.modRng f).pending = s.pending := rfl

@[simp] theorem State.modPgr_phase (f : Pgr → Pgr) (s : State) : (s.modPgr f).phase = s.phase := rfl
@[simp] theorem State.modPgr_uptime (f : Pgr → Pgr) (s : State) : (s.modPgr f).uptime = s.uptime := rfl
@[simp] theorem State.modPgr_regs (f : Pgr → Pgr) (s : State) : (s.modPgr f).regs = s.regs := rfl
@[simp] theorem State.modPgr_ctrs (f : Pgr → Pgr) (s : State) : (s.modPgr f).ctrs = s.ctrs := rfl
@[simp] theorem State.modPgr_latches (f : Pgr → Pgr) (s : State) : (s.modPgr f).latches = s.latches := rfl
@[simp] theorem State.modPgr_fab (f : Pgr → Pgr) (s : State) : (s.modPgr f).fab = s.fab := rfl
@[simp] theorem State.modPgr_hif (f : Pgr → Pgr) (s : State) : (s.modPgr f).hif = s.hif := rfl
@[simp] theorem State.modPgr_tpt (f : Pgr → Pgr) (s : State) : (s.modPgr f).tpt = s.tpt := rfl
@[simp] theorem State.modPgr_cls (f : Pgr → Pgr) (s : State) : (s.modPgr f).cls = s.cls := rfl
@[simp] theorem State.modPgr_gnt (f : Pgr → Pgr) (s : State) : (s.modPgr f).gnt = s.gnt := rfl
@[simp] theorem State.modPgr_rng (f : Pgr → Pgr) (s : State) : (s.modPgr f).rng = s.rng := rfl
@[simp] theorem State.modPgr_pgr (f : Pgr → Pgr) (s : State) : (s.modPgr f).pgr = f s.pgr := rfl
@[simp] theorem State.modPgr_tim (f : Pgr → Pgr) (s : State) : (s.modPgr f).tim = s.tim := rfl
@[simp] theorem State.modPgr_lnk (f : Pgr → Pgr) (s : State) : (s.modPgr f).lnk = s.lnk := rfl
@[simp] theorem State.modPgr_pwr (f : Pgr → Pgr) (s : State) : (s.modPgr f).pwr = s.pwr := rfl
@[simp] theorem State.modPgr_err (f : Pgr → Pgr) (s : State) : (s.modPgr f).err = s.err := rfl
@[simp] theorem State.modPgr_mon (f : Pgr → Pgr) (s : State) : (s.modPgr f).mon = s.mon := rfl
@[simp] theorem State.modPgr_freeCtr (f : Pgr → Pgr) (s : State) : (s.modPgr f).freeCtr = s.freeCtr := rfl
@[simp] theorem State.modPgr_pending (f : Pgr → Pgr) (s : State) : (s.modPgr f).pending = s.pending := rfl

@[simp] theorem State.modTim_phase (f : Tim → Tim) (s : State) : (s.modTim f).phase = s.phase := rfl
@[simp] theorem State.modTim_uptime (f : Tim → Tim) (s : State) : (s.modTim f).uptime = s.uptime := rfl
@[simp] theorem State.modTim_regs (f : Tim → Tim) (s : State) : (s.modTim f).regs = s.regs := rfl
@[simp] theorem State.modTim_ctrs (f : Tim → Tim) (s : State) : (s.modTim f).ctrs = s.ctrs := rfl
@[simp] theorem State.modTim_latches (f : Tim → Tim) (s : State) : (s.modTim f).latches = s.latches := rfl
@[simp] theorem State.modTim_fab (f : Tim → Tim) (s : State) : (s.modTim f).fab = s.fab := rfl
@[simp] theorem State.modTim_hif (f : Tim → Tim) (s : State) : (s.modTim f).hif = s.hif := rfl
@[simp] theorem State.modTim_tpt (f : Tim → Tim) (s : State) : (s.modTim f).tpt = s.tpt := rfl
@[simp] theorem State.modTim_cls (f : Tim → Tim) (s : State) : (s.modTim f).cls = s.cls := rfl
@[simp] theorem State.modTim_gnt (f : Tim → Tim) (s : State) : (s.modTim f).gnt = s.gnt := rfl
@[simp] theorem State.modTim_rng (f : Tim → Tim) (s : State) : (s.modTim f).rng = s.rng := rfl
@[simp] theorem State.modTim_pgr (f : Tim → Tim) (s : State) : (s.modTim f).pgr = s.pgr := rfl
@[simp] theorem State.modTim_tim (f : Tim → Tim) (s : State) : (s.modTim f).tim = f s.tim := rfl
@[simp] theorem State.modTim_lnk (f : Tim → Tim) (s : State) : (s.modTim f).lnk = s.lnk := rfl
@[simp] theorem State.modTim_pwr (f : Tim → Tim) (s : State) : (s.modTim f).pwr = s.pwr := rfl
@[simp] theorem State.modTim_err (f : Tim → Tim) (s : State) : (s.modTim f).err = s.err := rfl
@[simp] theorem State.modTim_mon (f : Tim → Tim) (s : State) : (s.modTim f).mon = s.mon := rfl
@[simp] theorem State.modTim_freeCtr (f : Tim → Tim) (s : State) : (s.modTim f).freeCtr = s.freeCtr := rfl
@[simp] theorem State.modTim_pending (f : Tim → Tim) (s : State) : (s.modTim f).pending = s.pending := rfl

@[simp] theorem State.modLnk_phase (f : Lnk → Lnk) (s : State) : (s.modLnk f).phase = s.phase := rfl
@[simp] theorem State.modLnk_uptime (f : Lnk → Lnk) (s : State) : (s.modLnk f).uptime = s.uptime := rfl
@[simp] theorem State.modLnk_regs (f : Lnk → Lnk) (s : State) : (s.modLnk f).regs = s.regs := rfl
@[simp] theorem State.modLnk_ctrs (f : Lnk → Lnk) (s : State) : (s.modLnk f).ctrs = s.ctrs := rfl
@[simp] theorem State.modLnk_latches (f : Lnk → Lnk) (s : State) : (s.modLnk f).latches = s.latches := rfl
@[simp] theorem State.modLnk_fab (f : Lnk → Lnk) (s : State) : (s.modLnk f).fab = s.fab := rfl
@[simp] theorem State.modLnk_hif (f : Lnk → Lnk) (s : State) : (s.modLnk f).hif = s.hif := rfl
@[simp] theorem State.modLnk_tpt (f : Lnk → Lnk) (s : State) : (s.modLnk f).tpt = s.tpt := rfl
@[simp] theorem State.modLnk_cls (f : Lnk → Lnk) (s : State) : (s.modLnk f).cls = s.cls := rfl
@[simp] theorem State.modLnk_gnt (f : Lnk → Lnk) (s : State) : (s.modLnk f).gnt = s.gnt := rfl
@[simp] theorem State.modLnk_rng (f : Lnk → Lnk) (s : State) : (s.modLnk f).rng = s.rng := rfl
@[simp] theorem State.modLnk_pgr (f : Lnk → Lnk) (s : State) : (s.modLnk f).pgr = s.pgr := rfl
@[simp] theorem State.modLnk_tim (f : Lnk → Lnk) (s : State) : (s.modLnk f).tim = s.tim := rfl
@[simp] theorem State.modLnk_lnk (f : Lnk → Lnk) (s : State) : (s.modLnk f).lnk = f s.lnk := rfl
@[simp] theorem State.modLnk_pwr (f : Lnk → Lnk) (s : State) : (s.modLnk f).pwr = s.pwr := rfl
@[simp] theorem State.modLnk_err (f : Lnk → Lnk) (s : State) : (s.modLnk f).err = s.err := rfl
@[simp] theorem State.modLnk_mon (f : Lnk → Lnk) (s : State) : (s.modLnk f).mon = s.mon := rfl
@[simp] theorem State.modLnk_freeCtr (f : Lnk → Lnk) (s : State) : (s.modLnk f).freeCtr = s.freeCtr := rfl
@[simp] theorem State.modLnk_pending (f : Lnk → Lnk) (s : State) : (s.modLnk f).pending = s.pending := rfl

@[simp] theorem State.modPwr_phase (f : Pwr → Pwr) (s : State) : (s.modPwr f).phase = s.phase := rfl
@[simp] theorem State.modPwr_uptime (f : Pwr → Pwr) (s : State) : (s.modPwr f).uptime = s.uptime := rfl
@[simp] theorem State.modPwr_regs (f : Pwr → Pwr) (s : State) : (s.modPwr f).regs = s.regs := rfl
@[simp] theorem State.modPwr_ctrs (f : Pwr → Pwr) (s : State) : (s.modPwr f).ctrs = s.ctrs := rfl
@[simp] theorem State.modPwr_latches (f : Pwr → Pwr) (s : State) : (s.modPwr f).latches = s.latches := rfl
@[simp] theorem State.modPwr_fab (f : Pwr → Pwr) (s : State) : (s.modPwr f).fab = s.fab := rfl
@[simp] theorem State.modPwr_hif (f : Pwr → Pwr) (s : State) : (s.modPwr f).hif = s.hif := rfl
@[simp] theorem State.modPwr_tpt (f : Pwr → Pwr) (s : State) : (s.modPwr f).tpt = s.tpt := rfl
@[simp] theorem State.modPwr_cls (f : Pwr → Pwr) (s : State) : (s.modPwr f).cls = s.cls := rfl
@[simp] theorem State.modPwr_gnt (f : Pwr → Pwr) (s : State) : (s.modPwr f).gnt = s.gnt := rfl
@[simp] theorem State.modPwr_rng (f : Pwr → Pwr) (s : State) : (s.modPwr f).rng = s.rng := rfl
@[simp] theorem State.modPwr_pgr (f : Pwr → Pwr) (s : State) : (s.modPwr f).pgr = s.pgr := rfl
@[simp] theorem State.modPwr_tim (f : Pwr → Pwr) (s : State) : (s.modPwr f).tim = s.tim := rfl
@[simp] theorem State.modPwr_lnk (f : Pwr → Pwr) (s : State) : (s.modPwr f).lnk = s.lnk := rfl
@[simp] theorem State.modPwr_pwr (f : Pwr → Pwr) (s : State) : (s.modPwr f).pwr = f s.pwr := rfl
@[simp] theorem State.modPwr_err (f : Pwr → Pwr) (s : State) : (s.modPwr f).err = s.err := rfl
@[simp] theorem State.modPwr_mon (f : Pwr → Pwr) (s : State) : (s.modPwr f).mon = s.mon := rfl
@[simp] theorem State.modPwr_freeCtr (f : Pwr → Pwr) (s : State) : (s.modPwr f).freeCtr = s.freeCtr := rfl
@[simp] theorem State.modPwr_pending (f : Pwr → Pwr) (s : State) : (s.modPwr f).pending = s.pending := rfl

@[simp] theorem State.modErr_phase (f : Err → Err) (s : State) : (s.modErr f).phase = s.phase := rfl
@[simp] theorem State.modErr_uptime (f : Err → Err) (s : State) : (s.modErr f).uptime = s.uptime := rfl
@[simp] theorem State.modErr_regs (f : Err → Err) (s : State) : (s.modErr f).regs = s.regs := rfl
@[simp] theorem State.modErr_ctrs (f : Err → Err) (s : State) : (s.modErr f).ctrs = s.ctrs := rfl
@[simp] theorem State.modErr_latches (f : Err → Err) (s : State) : (s.modErr f).latches = s.latches := rfl
@[simp] theorem State.modErr_fab (f : Err → Err) (s : State) : (s.modErr f).fab = s.fab := rfl
@[simp] theorem State.modErr_hif (f : Err → Err) (s : State) : (s.modErr f).hif = s.hif := rfl
@[simp] theorem State.modErr_tpt (f : Err → Err) (s : State) : (s.modErr f).tpt = s.tpt := rfl
@[simp] theorem State.modErr_cls (f : Err → Err) (s : State) : (s.modErr f).cls = s.cls := rfl
@[simp] theorem State.modErr_gnt (f : Err → Err) (s : State) : (s.modErr f).gnt = s.gnt := rfl
@[simp] theorem State.modErr_rng (f : Err → Err) (s : State) : (s.modErr f).rng = s.rng := rfl
@[simp] theorem State.modErr_pgr (f : Err → Err) (s : State) : (s.modErr f).pgr = s.pgr := rfl
@[simp] theorem State.modErr_tim (f : Err → Err) (s : State) : (s.modErr f).tim = s.tim := rfl
@[simp] theorem State.modErr_lnk (f : Err → Err) (s : State) : (s.modErr f).lnk = s.lnk := rfl
@[simp] theorem State.modErr_pwr (f : Err → Err) (s : State) : (s.modErr f).pwr = s.pwr := rfl
@[simp] theorem State.modErr_err (f : Err → Err) (s : State) : (s.modErr f).err = f s.err := rfl
@[simp] theorem State.modErr_mon (f : Err → Err) (s : State) : (s.modErr f).mon = s.mon := rfl
@[simp] theorem State.modErr_freeCtr (f : Err → Err) (s : State) : (s.modErr f).freeCtr = s.freeCtr := rfl
@[simp] theorem State.modErr_pending (f : Err → Err) (s : State) : (s.modErr f).pending = s.pending := rfl

@[simp] theorem State.modMon_phase (f : Mon → Mon) (s : State) : (s.modMon f).phase = s.phase := rfl
@[simp] theorem State.modMon_uptime (f : Mon → Mon) (s : State) : (s.modMon f).uptime = s.uptime := rfl
@[simp] theorem State.modMon_regs (f : Mon → Mon) (s : State) : (s.modMon f).regs = s.regs := rfl
@[simp] theorem State.modMon_ctrs (f : Mon → Mon) (s : State) : (s.modMon f).ctrs = s.ctrs := rfl
@[simp] theorem State.modMon_latches (f : Mon → Mon) (s : State) : (s.modMon f).latches = s.latches := rfl
@[simp] theorem State.modMon_fab (f : Mon → Mon) (s : State) : (s.modMon f).fab = s.fab := rfl
@[simp] theorem State.modMon_hif (f : Mon → Mon) (s : State) : (s.modMon f).hif = s.hif := rfl
@[simp] theorem State.modMon_tpt (f : Mon → Mon) (s : State) : (s.modMon f).tpt = s.tpt := rfl
@[simp] theorem State.modMon_cls (f : Mon → Mon) (s : State) : (s.modMon f).cls = s.cls := rfl
@[simp] theorem State.modMon_gnt (f : Mon → Mon) (s : State) : (s.modMon f).gnt = s.gnt := rfl
@[simp] theorem State.modMon_rng (f : Mon → Mon) (s : State) : (s.modMon f).rng = s.rng := rfl
@[simp] theorem State.modMon_pgr (f : Mon → Mon) (s : State) : (s.modMon f).pgr = s.pgr := rfl
@[simp] theorem State.modMon_tim (f : Mon → Mon) (s : State) : (s.modMon f).tim = s.tim := rfl
@[simp] theorem State.modMon_lnk (f : Mon → Mon) (s : State) : (s.modMon f).lnk = s.lnk := rfl
@[simp] theorem State.modMon_pwr (f : Mon → Mon) (s : State) : (s.modMon f).pwr = s.pwr := rfl
@[simp] theorem State.modMon_err (f : Mon → Mon) (s : State) : (s.modMon f).err = s.err := rfl
@[simp] theorem State.modMon_mon (f : Mon → Mon) (s : State) : (s.modMon f).mon = f s.mon := rfl
@[simp] theorem State.modMon_freeCtr (f : Mon → Mon) (s : State) : (s.modMon f).freeCtr = s.freeCtr := rfl
@[simp] theorem State.modMon_pending (f : Mon → Mon) (s : State) : (s.modMon f).pending = s.pending := rfl

/-! The keyed parts of a unit: every part but the unit stays. -/

@[simp] theorem modQueue_phase (q : Nat) (f : Queue → Queue) (s : State) : (modQueue q f s).phase = s.phase := rfl
@[simp] theorem modQueue_uptime (q : Nat) (f : Queue → Queue) (s : State) : (modQueue q f s).uptime = s.uptime := rfl
@[simp] theorem modQueue_regs (q : Nat) (f : Queue → Queue) (s : State) : (modQueue q f s).regs = s.regs := rfl
@[simp] theorem modQueue_ctrs (q : Nat) (f : Queue → Queue) (s : State) : (modQueue q f s).ctrs = s.ctrs := rfl
@[simp] theorem modQueue_latches (q : Nat) (f : Queue → Queue) (s : State) : (modQueue q f s).latches = s.latches := rfl
@[simp] theorem modQueue_fab (q : Nat) (f : Queue → Queue) (s : State) : (modQueue q f s).fab = s.fab := rfl
@[simp] theorem modQueue_tpt (q : Nat) (f : Queue → Queue) (s : State) : (modQueue q f s).tpt = s.tpt := rfl
@[simp] theorem modQueue_cls (q : Nat) (f : Queue → Queue) (s : State) : (modQueue q f s).cls = s.cls := rfl
@[simp] theorem modQueue_gnt (q : Nat) (f : Queue → Queue) (s : State) : (modQueue q f s).gnt = s.gnt := rfl
@[simp] theorem modQueue_rng (q : Nat) (f : Queue → Queue) (s : State) : (modQueue q f s).rng = s.rng := rfl
@[simp] theorem modQueue_pgr (q : Nat) (f : Queue → Queue) (s : State) : (modQueue q f s).pgr = s.pgr := rfl
@[simp] theorem modQueue_tim (q : Nat) (f : Queue → Queue) (s : State) : (modQueue q f s).tim = s.tim := rfl
@[simp] theorem modQueue_lnk (q : Nat) (f : Queue → Queue) (s : State) : (modQueue q f s).lnk = s.lnk := rfl
@[simp] theorem modQueue_pwr (q : Nat) (f : Queue → Queue) (s : State) : (modQueue q f s).pwr = s.pwr := rfl
@[simp] theorem modQueue_err (q : Nat) (f : Queue → Queue) (s : State) : (modQueue q f s).err = s.err := rfl
@[simp] theorem modQueue_mon (q : Nat) (f : Queue → Queue) (s : State) : (modQueue q f s).mon = s.mon := rfl
@[simp] theorem modQueue_freeCtr (q : Nat) (f : Queue → Queue) (s : State) : (modQueue q f s).freeCtr = s.freeCtr := rfl
@[simp] theorem modQueue_pending (q : Nat) (f : Queue → Queue) (s : State) : (modQueue q f s).pending = s.pending := rfl

@[simp] theorem modPort_phase (n : Nat) (f : Port → Port) (s : State) : (modPort n f s).phase = s.phase := rfl
@[simp] theorem modPort_uptime (n : Nat) (f : Port → Port) (s : State) : (modPort n f s).uptime = s.uptime := rfl
@[simp] theorem modPort_regs (n : Nat) (f : Port → Port) (s : State) : (modPort n f s).regs = s.regs := rfl
@[simp] theorem modPort_ctrs (n : Nat) (f : Port → Port) (s : State) : (modPort n f s).ctrs = s.ctrs := rfl
@[simp] theorem modPort_latches (n : Nat) (f : Port → Port) (s : State) : (modPort n f s).latches = s.latches := rfl
@[simp] theorem modPort_fab (n : Nat) (f : Port → Port) (s : State) : (modPort n f s).fab = s.fab := rfl
@[simp] theorem modPort_hif (n : Nat) (f : Port → Port) (s : State) : (modPort n f s).hif = s.hif := rfl
@[simp] theorem modPort_cls (n : Nat) (f : Port → Port) (s : State) : (modPort n f s).cls = s.cls := rfl
@[simp] theorem modPort_gnt (n : Nat) (f : Port → Port) (s : State) : (modPort n f s).gnt = s.gnt := rfl
@[simp] theorem modPort_rng (n : Nat) (f : Port → Port) (s : State) : (modPort n f s).rng = s.rng := rfl
@[simp] theorem modPort_pgr (n : Nat) (f : Port → Port) (s : State) : (modPort n f s).pgr = s.pgr := rfl
@[simp] theorem modPort_tim (n : Nat) (f : Port → Port) (s : State) : (modPort n f s).tim = s.tim := rfl
@[simp] theorem modPort_lnk (n : Nat) (f : Port → Port) (s : State) : (modPort n f s).lnk = s.lnk := rfl
@[simp] theorem modPort_pwr (n : Nat) (f : Port → Port) (s : State) : (modPort n f s).pwr = s.pwr := rfl
@[simp] theorem modPort_err (n : Nat) (f : Port → Port) (s : State) : (modPort n f s).err = s.err := rfl
@[simp] theorem modPort_mon (n : Nat) (f : Port → Port) (s : State) : (modPort n f s).mon = s.mon := rfl
@[simp] theorem modPort_freeCtr (n : Nat) (f : Port → Port) (s : State) : (modPort n f s).freeCtr = s.freeCtr := rfl
@[simp] theorem modPort_pending (n : Nat) (f : Port → Port) (s : State) : (modPort n f s).pending = s.pending := rfl

@[simp] theorem modProt_phase (t : Nat) (f : Prot → Prot) (s : State) : (modProt t f s).phase = s.phase := rfl
@[simp] theorem modProt_uptime (t : Nat) (f : Prot → Prot) (s : State) : (modProt t f s).uptime = s.uptime := rfl
@[simp] theorem modProt_regs (t : Nat) (f : Prot → Prot) (s : State) : (modProt t f s).regs = s.regs := rfl
@[simp] theorem modProt_ctrs (t : Nat) (f : Prot → Prot) (s : State) : (modProt t f s).ctrs = s.ctrs := rfl
@[simp] theorem modProt_latches (t : Nat) (f : Prot → Prot) (s : State) : (modProt t f s).latches = s.latches := rfl
@[simp] theorem modProt_fab (t : Nat) (f : Prot → Prot) (s : State) : (modProt t f s).fab = s.fab := rfl
@[simp] theorem modProt_hif (t : Nat) (f : Prot → Prot) (s : State) : (modProt t f s).hif = s.hif := rfl
@[simp] theorem modProt_cls (t : Nat) (f : Prot → Prot) (s : State) : (modProt t f s).cls = s.cls := rfl
@[simp] theorem modProt_gnt (t : Nat) (f : Prot → Prot) (s : State) : (modProt t f s).gnt = s.gnt := rfl
@[simp] theorem modProt_rng (t : Nat) (f : Prot → Prot) (s : State) : (modProt t f s).rng = s.rng := rfl
@[simp] theorem modProt_pgr (t : Nat) (f : Prot → Prot) (s : State) : (modProt t f s).pgr = s.pgr := rfl
@[simp] theorem modProt_tim (t : Nat) (f : Prot → Prot) (s : State) : (modProt t f s).tim = s.tim := rfl
@[simp] theorem modProt_lnk (t : Nat) (f : Prot → Prot) (s : State) : (modProt t f s).lnk = s.lnk := rfl
@[simp] theorem modProt_pwr (t : Nat) (f : Prot → Prot) (s : State) : (modProt t f s).pwr = s.pwr := rfl
@[simp] theorem modProt_err (t : Nat) (f : Prot → Prot) (s : State) : (modProt t f s).err = s.err := rfl
@[simp] theorem modProt_mon (t : Nat) (f : Prot → Prot) (s : State) : (modProt t f s).mon = s.mon := rfl
@[simp] theorem modProt_freeCtr (t : Nat) (f : Prot → Prot) (s : State) : (modProt t f s).freeCtr = s.freeCtr := rfl
@[simp] theorem modProt_pending (t : Nat) (f : Prot → Prot) (s : State) : (modProt t f s).pending = s.pending := rfl

@[simp] theorem modGTree_phase (t : Nat) (f : GTree → GTree) (s : State) : (modGTree t f s).phase = s.phase := rfl
@[simp] theorem modGTree_uptime (t : Nat) (f : GTree → GTree) (s : State) : (modGTree t f s).uptime = s.uptime := rfl
@[simp] theorem modGTree_regs (t : Nat) (f : GTree → GTree) (s : State) : (modGTree t f s).regs = s.regs := rfl
@[simp] theorem modGTree_ctrs (t : Nat) (f : GTree → GTree) (s : State) : (modGTree t f s).ctrs = s.ctrs := rfl
@[simp] theorem modGTree_latches (t : Nat) (f : GTree → GTree) (s : State) : (modGTree t f s).latches = s.latches := rfl
@[simp] theorem modGTree_fab (t : Nat) (f : GTree → GTree) (s : State) : (modGTree t f s).fab = s.fab := rfl
@[simp] theorem modGTree_hif (t : Nat) (f : GTree → GTree) (s : State) : (modGTree t f s).hif = s.hif := rfl
@[simp] theorem modGTree_tpt (t : Nat) (f : GTree → GTree) (s : State) : (modGTree t f s).tpt = s.tpt := rfl
@[simp] theorem modGTree_cls (t : Nat) (f : GTree → GTree) (s : State) : (modGTree t f s).cls = s.cls := rfl
@[simp] theorem modGTree_rng (t : Nat) (f : GTree → GTree) (s : State) : (modGTree t f s).rng = s.rng := rfl
@[simp] theorem modGTree_pgr (t : Nat) (f : GTree → GTree) (s : State) : (modGTree t f s).pgr = s.pgr := rfl
@[simp] theorem modGTree_tim (t : Nat) (f : GTree → GTree) (s : State) : (modGTree t f s).tim = s.tim := rfl
@[simp] theorem modGTree_lnk (t : Nat) (f : GTree → GTree) (s : State) : (modGTree t f s).lnk = s.lnk := rfl
@[simp] theorem modGTree_pwr (t : Nat) (f : GTree → GTree) (s : State) : (modGTree t f s).pwr = s.pwr := rfl
@[simp] theorem modGTree_err (t : Nat) (f : GTree → GTree) (s : State) : (modGTree t f s).err = s.err := rfl
@[simp] theorem modGTree_mon (t : Nat) (f : GTree → GTree) (s : State) : (modGTree t f s).mon = s.mon := rfl
@[simp] theorem modGTree_freeCtr (t : Nat) (f : GTree → GTree) (s : State) : (modGTree t f s).freeCtr = s.freeCtr := rfl
@[simp] theorem modGTree_pending (t : Nat) (f : GTree → GTree) (s : State) : (modGTree t f s).pending = s.pending := rfl

@[simp] theorem modRec_phase (h : Nat) (f : TermRec → TermRec) (s : State) : (modRec h f s).phase = s.phase := rfl
@[simp] theorem modRec_uptime (h : Nat) (f : TermRec → TermRec) (s : State) : (modRec h f s).uptime = s.uptime := rfl
@[simp] theorem modRec_regs (h : Nat) (f : TermRec → TermRec) (s : State) : (modRec h f s).regs = s.regs := rfl
@[simp] theorem modRec_ctrs (h : Nat) (f : TermRec → TermRec) (s : State) : (modRec h f s).ctrs = s.ctrs := rfl
@[simp] theorem modRec_latches (h : Nat) (f : TermRec → TermRec) (s : State) : (modRec h f s).latches = s.latches := rfl
@[simp] theorem modRec_fab (h : Nat) (f : TermRec → TermRec) (s : State) : (modRec h f s).fab = s.fab := rfl
@[simp] theorem modRec_hif (h : Nat) (f : TermRec → TermRec) (s : State) : (modRec h f s).hif = s.hif := rfl
@[simp] theorem modRec_tpt (h : Nat) (f : TermRec → TermRec) (s : State) : (modRec h f s).tpt = s.tpt := rfl
@[simp] theorem modRec_cls (h : Nat) (f : TermRec → TermRec) (s : State) : (modRec h f s).cls = s.cls := rfl
@[simp] theorem modRec_rng (h : Nat) (f : TermRec → TermRec) (s : State) : (modRec h f s).rng = s.rng := rfl
@[simp] theorem modRec_pgr (h : Nat) (f : TermRec → TermRec) (s : State) : (modRec h f s).pgr = s.pgr := rfl
@[simp] theorem modRec_tim (h : Nat) (f : TermRec → TermRec) (s : State) : (modRec h f s).tim = s.tim := rfl
@[simp] theorem modRec_lnk (h : Nat) (f : TermRec → TermRec) (s : State) : (modRec h f s).lnk = s.lnk := rfl
@[simp] theorem modRec_pwr (h : Nat) (f : TermRec → TermRec) (s : State) : (modRec h f s).pwr = s.pwr := rfl
@[simp] theorem modRec_err (h : Nat) (f : TermRec → TermRec) (s : State) : (modRec h f s).err = s.err := rfl
@[simp] theorem modRec_mon (h : Nat) (f : TermRec → TermRec) (s : State) : (modRec h f s).mon = s.mon := rfl
@[simp] theorem modRec_freeCtr (h : Nat) (f : TermRec → TermRec) (s : State) : (modRec h f s).freeCtr = s.freeCtr := rfl
@[simp] theorem modRec_pending (h : Nat) (f : TermRec → TermRec) (s : State) : (modRec h f s).pending = s.pending := rfl

@[simp] theorem modCurve_phase (i : Nat) (f : Curve → Curve) (s : State) : (modCurve i f s).phase = s.phase := rfl
@[simp] theorem modCurve_uptime (i : Nat) (f : Curve → Curve) (s : State) : (modCurve i f s).uptime = s.uptime := rfl
@[simp] theorem modCurve_regs (i : Nat) (f : Curve → Curve) (s : State) : (modCurve i f s).regs = s.regs := rfl
@[simp] theorem modCurve_ctrs (i : Nat) (f : Curve → Curve) (s : State) : (modCurve i f s).ctrs = s.ctrs := rfl
@[simp] theorem modCurve_latches (i : Nat) (f : Curve → Curve) (s : State) : (modCurve i f s).latches = s.latches := rfl
@[simp] theorem modCurve_fab (i : Nat) (f : Curve → Curve) (s : State) : (modCurve i f s).fab = s.fab := rfl
@[simp] theorem modCurve_hif (i : Nat) (f : Curve → Curve) (s : State) : (modCurve i f s).hif = s.hif := rfl
@[simp] theorem modCurve_tpt (i : Nat) (f : Curve → Curve) (s : State) : (modCurve i f s).tpt = s.tpt := rfl
@[simp] theorem modCurve_cls (i : Nat) (f : Curve → Curve) (s : State) : (modCurve i f s).cls = s.cls := rfl
@[simp] theorem modCurve_rng (i : Nat) (f : Curve → Curve) (s : State) : (modCurve i f s).rng = s.rng := rfl
@[simp] theorem modCurve_pgr (i : Nat) (f : Curve → Curve) (s : State) : (modCurve i f s).pgr = s.pgr := rfl
@[simp] theorem modCurve_tim (i : Nat) (f : Curve → Curve) (s : State) : (modCurve i f s).tim = s.tim := rfl
@[simp] theorem modCurve_lnk (i : Nat) (f : Curve → Curve) (s : State) : (modCurve i f s).lnk = s.lnk := rfl
@[simp] theorem modCurve_pwr (i : Nat) (f : Curve → Curve) (s : State) : (modCurve i f s).pwr = s.pwr := rfl
@[simp] theorem modCurve_err (i : Nat) (f : Curve → Curve) (s : State) : (modCurve i f s).err = s.err := rfl
@[simp] theorem modCurve_mon (i : Nat) (f : Curve → Curve) (s : State) : (modCurve i f s).mon = s.mon := rfl
@[simp] theorem modCurve_freeCtr (i : Nat) (f : Curve → Curve) (s : State) : (modCurve i f s).freeCtr = s.freeCtr := rfl
@[simp] theorem modCurve_pending (i : Nat) (f : Curve → Curve) (s : State) : (modCurve i f s).pending = s.pending := rfl

@[simp] theorem modRTree_phase (t : Nat) (f : RTree → RTree) (s : State) : (modRTree t f s).phase = s.phase := rfl
@[simp] theorem modRTree_uptime (t : Nat) (f : RTree → RTree) (s : State) : (modRTree t f s).uptime = s.uptime := rfl
@[simp] theorem modRTree_regs (t : Nat) (f : RTree → RTree) (s : State) : (modRTree t f s).regs = s.regs := rfl
@[simp] theorem modRTree_ctrs (t : Nat) (f : RTree → RTree) (s : State) : (modRTree t f s).ctrs = s.ctrs := rfl
@[simp] theorem modRTree_latches (t : Nat) (f : RTree → RTree) (s : State) : (modRTree t f s).latches = s.latches := rfl
@[simp] theorem modRTree_fab (t : Nat) (f : RTree → RTree) (s : State) : (modRTree t f s).fab = s.fab := rfl
@[simp] theorem modRTree_hif (t : Nat) (f : RTree → RTree) (s : State) : (modRTree t f s).hif = s.hif := rfl
@[simp] theorem modRTree_tpt (t : Nat) (f : RTree → RTree) (s : State) : (modRTree t f s).tpt = s.tpt := rfl
@[simp] theorem modRTree_cls (t : Nat) (f : RTree → RTree) (s : State) : (modRTree t f s).cls = s.cls := rfl
@[simp] theorem modRTree_gnt (t : Nat) (f : RTree → RTree) (s : State) : (modRTree t f s).gnt = s.gnt := rfl
@[simp] theorem modRTree_pgr (t : Nat) (f : RTree → RTree) (s : State) : (modRTree t f s).pgr = s.pgr := rfl
@[simp] theorem modRTree_tim (t : Nat) (f : RTree → RTree) (s : State) : (modRTree t f s).tim = s.tim := rfl
@[simp] theorem modRTree_lnk (t : Nat) (f : RTree → RTree) (s : State) : (modRTree t f s).lnk = s.lnk := rfl
@[simp] theorem modRTree_pwr (t : Nat) (f : RTree → RTree) (s : State) : (modRTree t f s).pwr = s.pwr := rfl
@[simp] theorem modRTree_err (t : Nat) (f : RTree → RTree) (s : State) : (modRTree t f s).err = s.err := rfl
@[simp] theorem modRTree_mon (t : Nat) (f : RTree → RTree) (s : State) : (modRTree t f s).mon = s.mon := rfl
@[simp] theorem modRTree_freeCtr (t : Nat) (f : RTree → RTree) (s : State) : (modRTree t f s).freeCtr = s.freeCtr := rfl
@[simp] theorem modRTree_pending (t : Nat) (f : RTree → RTree) (s : State) : (modRTree t f s).pending = s.pending := rfl

@[simp] theorem modFlow_phase (k : Nat) (f : Flow → Flow) (s : State) : (modFlow k f s).phase = s.phase := rfl
@[simp] theorem modFlow_uptime (k : Nat) (f : Flow → Flow) (s : State) : (modFlow k f s).uptime = s.uptime := rfl
@[simp] theorem modFlow_regs (k : Nat) (f : Flow → Flow) (s : State) : (modFlow k f s).regs = s.regs := rfl
@[simp] theorem modFlow_ctrs (k : Nat) (f : Flow → Flow) (s : State) : (modFlow k f s).ctrs = s.ctrs := rfl
@[simp] theorem modFlow_latches (k : Nat) (f : Flow → Flow) (s : State) : (modFlow k f s).latches = s.latches := rfl
@[simp] theorem modFlow_fab (k : Nat) (f : Flow → Flow) (s : State) : (modFlow k f s).fab = s.fab := rfl
@[simp] theorem modFlow_hif (k : Nat) (f : Flow → Flow) (s : State) : (modFlow k f s).hif = s.hif := rfl
@[simp] theorem modFlow_tpt (k : Nat) (f : Flow → Flow) (s : State) : (modFlow k f s).tpt = s.tpt := rfl
@[simp] theorem modFlow_cls (k : Nat) (f : Flow → Flow) (s : State) : (modFlow k f s).cls = s.cls := rfl
@[simp] theorem modFlow_gnt (k : Nat) (f : Flow → Flow) (s : State) : (modFlow k f s).gnt = s.gnt := rfl
@[simp] theorem modFlow_rng (k : Nat) (f : Flow → Flow) (s : State) : (modFlow k f s).rng = s.rng := rfl
@[simp] theorem modFlow_tim (k : Nat) (f : Flow → Flow) (s : State) : (modFlow k f s).tim = s.tim := rfl
@[simp] theorem modFlow_lnk (k : Nat) (f : Flow → Flow) (s : State) : (modFlow k f s).lnk = s.lnk := rfl
@[simp] theorem modFlow_pwr (k : Nat) (f : Flow → Flow) (s : State) : (modFlow k f s).pwr = s.pwr := rfl
@[simp] theorem modFlow_err (k : Nat) (f : Flow → Flow) (s : State) : (modFlow k f s).err = s.err := rfl
@[simp] theorem modFlow_mon (k : Nat) (f : Flow → Flow) (s : State) : (modFlow k f s).mon = s.mon := rfl
@[simp] theorem modFlow_freeCtr (k : Nat) (f : Flow → Flow) (s : State) : (modFlow k f s).freeCtr = s.freeCtr := rfl
@[simp] theorem modFlow_pending (k : Nat) (f : Flow → Flow) (s : State) : (modFlow k f s).pending = s.pending := rfl

@[simp] theorem modSlot_phase (i : Nat) (f : CSlot → CSlot) (s : State) : (modSlot i f s).phase = s.phase := rfl
@[simp] theorem modSlot_uptime (i : Nat) (f : CSlot → CSlot) (s : State) : (modSlot i f s).uptime = s.uptime := rfl
@[simp] theorem modSlot_regs (i : Nat) (f : CSlot → CSlot) (s : State) : (modSlot i f s).regs = s.regs := rfl
@[simp] theorem modSlot_ctrs (i : Nat) (f : CSlot → CSlot) (s : State) : (modSlot i f s).ctrs = s.ctrs := rfl
@[simp] theorem modSlot_latches (i : Nat) (f : CSlot → CSlot) (s : State) : (modSlot i f s).latches = s.latches := rfl
@[simp] theorem modSlot_fab (i : Nat) (f : CSlot → CSlot) (s : State) : (modSlot i f s).fab = s.fab := rfl
@[simp] theorem modSlot_hif (i : Nat) (f : CSlot → CSlot) (s : State) : (modSlot i f s).hif = s.hif := rfl
@[simp] theorem modSlot_tpt (i : Nat) (f : CSlot → CSlot) (s : State) : (modSlot i f s).tpt = s.tpt := rfl
@[simp] theorem modSlot_cls (i : Nat) (f : CSlot → CSlot) (s : State) : (modSlot i f s).cls = s.cls := rfl
@[simp] theorem modSlot_gnt (i : Nat) (f : CSlot → CSlot) (s : State) : (modSlot i f s).gnt = s.gnt := rfl
@[simp] theorem modSlot_rng (i : Nat) (f : CSlot → CSlot) (s : State) : (modSlot i f s).rng = s.rng := rfl
@[simp] theorem modSlot_tim (i : Nat) (f : CSlot → CSlot) (s : State) : (modSlot i f s).tim = s.tim := rfl
@[simp] theorem modSlot_lnk (i : Nat) (f : CSlot → CSlot) (s : State) : (modSlot i f s).lnk = s.lnk := rfl
@[simp] theorem modSlot_pwr (i : Nat) (f : CSlot → CSlot) (s : State) : (modSlot i f s).pwr = s.pwr := rfl
@[simp] theorem modSlot_err (i : Nat) (f : CSlot → CSlot) (s : State) : (modSlot i f s).err = s.err := rfl
@[simp] theorem modSlot_mon (i : Nat) (f : CSlot → CSlot) (s : State) : (modSlot i f s).mon = s.mon := rfl
@[simp] theorem modSlot_freeCtr (i : Nat) (f : CSlot → CSlot) (s : State) : (modSlot i f s).freeCtr = s.freeCtr := rfl
@[simp] theorem modSlot_pending (i : Nat) (f : CSlot → CSlot) (s : State) : (modSlot i f s).pending = s.pending := rfl

@[simp] theorem modLane_phase (l : Nat) (f : Lane → Lane) (s : State) : (modLane l f s).phase = s.phase := rfl
@[simp] theorem modLane_uptime (l : Nat) (f : Lane → Lane) (s : State) : (modLane l f s).uptime = s.uptime := rfl
@[simp] theorem modLane_regs (l : Nat) (f : Lane → Lane) (s : State) : (modLane l f s).regs = s.regs := rfl
@[simp] theorem modLane_ctrs (l : Nat) (f : Lane → Lane) (s : State) : (modLane l f s).ctrs = s.ctrs := rfl
@[simp] theorem modLane_latches (l : Nat) (f : Lane → Lane) (s : State) : (modLane l f s).latches = s.latches := rfl
@[simp] theorem modLane_fab (l : Nat) (f : Lane → Lane) (s : State) : (modLane l f s).fab = s.fab := rfl
@[simp] theorem modLane_hif (l : Nat) (f : Lane → Lane) (s : State) : (modLane l f s).hif = s.hif := rfl
@[simp] theorem modLane_tpt (l : Nat) (f : Lane → Lane) (s : State) : (modLane l f s).tpt = s.tpt := rfl
@[simp] theorem modLane_cls (l : Nat) (f : Lane → Lane) (s : State) : (modLane l f s).cls = s.cls := rfl
@[simp] theorem modLane_gnt (l : Nat) (f : Lane → Lane) (s : State) : (modLane l f s).gnt = s.gnt := rfl
@[simp] theorem modLane_rng (l : Nat) (f : Lane → Lane) (s : State) : (modLane l f s).rng = s.rng := rfl
@[simp] theorem modLane_pgr (l : Nat) (f : Lane → Lane) (s : State) : (modLane l f s).pgr = s.pgr := rfl
@[simp] theorem modLane_tim (l : Nat) (f : Lane → Lane) (s : State) : (modLane l f s).tim = s.tim := rfl
@[simp] theorem modLane_pwr (l : Nat) (f : Lane → Lane) (s : State) : (modLane l f s).pwr = s.pwr := rfl
@[simp] theorem modLane_err (l : Nat) (f : Lane → Lane) (s : State) : (modLane l f s).err = s.err := rfl
@[simp] theorem modLane_mon (l : Nat) (f : Lane → Lane) (s : State) : (modLane l f s).mon = s.mon := rfl
@[simp] theorem modLane_freeCtr (l : Nat) (f : Lane → Lane) (s : State) : (modLane l f s).freeCtr = s.freeCtr := rfl
@[simp] theorem modLane_pending (l : Nat) (f : Lane → Lane) (s : State) : (modLane l f s).pending = s.pending := rfl

@[simp] theorem modCPort_phase (c : Nat) (f : CPort → CPort) (s : State) : (modCPort c f s).phase = s.phase := rfl
@[simp] theorem modCPort_uptime (c : Nat) (f : CPort → CPort) (s : State) : (modCPort c f s).uptime = s.uptime := rfl
@[simp] theorem modCPort_regs (c : Nat) (f : CPort → CPort) (s : State) : (modCPort c f s).regs = s.regs := rfl
@[simp] theorem modCPort_ctrs (c : Nat) (f : CPort → CPort) (s : State) : (modCPort c f s).ctrs = s.ctrs := rfl
@[simp] theorem modCPort_latches (c : Nat) (f : CPort → CPort) (s : State) : (modCPort c f s).latches = s.latches := rfl
@[simp] theorem modCPort_fab (c : Nat) (f : CPort → CPort) (s : State) : (modCPort c f s).fab = s.fab := rfl
@[simp] theorem modCPort_hif (c : Nat) (f : CPort → CPort) (s : State) : (modCPort c f s).hif = s.hif := rfl
@[simp] theorem modCPort_tpt (c : Nat) (f : CPort → CPort) (s : State) : (modCPort c f s).tpt = s.tpt := rfl
@[simp] theorem modCPort_cls (c : Nat) (f : CPort → CPort) (s : State) : (modCPort c f s).cls = s.cls := rfl
@[simp] theorem modCPort_gnt (c : Nat) (f : CPort → CPort) (s : State) : (modCPort c f s).gnt = s.gnt := rfl
@[simp] theorem modCPort_rng (c : Nat) (f : CPort → CPort) (s : State) : (modCPort c f s).rng = s.rng := rfl
@[simp] theorem modCPort_pgr (c : Nat) (f : CPort → CPort) (s : State) : (modCPort c f s).pgr = s.pgr := rfl
@[simp] theorem modCPort_tim (c : Nat) (f : CPort → CPort) (s : State) : (modCPort c f s).tim = s.tim := rfl
@[simp] theorem modCPort_pwr (c : Nat) (f : CPort → CPort) (s : State) : (modCPort c f s).pwr = s.pwr := rfl
@[simp] theorem modCPort_err (c : Nat) (f : CPort → CPort) (s : State) : (modCPort c f s).err = s.err := rfl
@[simp] theorem modCPort_mon (c : Nat) (f : CPort → CPort) (s : State) : (modCPort c f s).mon = s.mon := rfl
@[simp] theorem modCPort_freeCtr (c : Nat) (f : CPort → CPort) (s : State) : (modCPort c f s).freeCtr = s.freeCtr := rfl
@[simp] theorem modCPort_pending (c : Nat) (f : CPort → CPort) (s : State) : (modCPort c f s).pending = s.pending := rfl

@[simp] theorem modDom_phase (d : Nat) (f : Dom → Dom) (s : State) : (modDom d f s).phase = s.phase := rfl
@[simp] theorem modDom_uptime (d : Nat) (f : Dom → Dom) (s : State) : (modDom d f s).uptime = s.uptime := rfl
@[simp] theorem modDom_regs (d : Nat) (f : Dom → Dom) (s : State) : (modDom d f s).regs = s.regs := rfl
@[simp] theorem modDom_ctrs (d : Nat) (f : Dom → Dom) (s : State) : (modDom d f s).ctrs = s.ctrs := rfl
@[simp] theorem modDom_latches (d : Nat) (f : Dom → Dom) (s : State) : (modDom d f s).latches = s.latches := rfl
@[simp] theorem modDom_fab (d : Nat) (f : Dom → Dom) (s : State) : (modDom d f s).fab = s.fab := rfl
@[simp] theorem modDom_hif (d : Nat) (f : Dom → Dom) (s : State) : (modDom d f s).hif = s.hif := rfl
@[simp] theorem modDom_tpt (d : Nat) (f : Dom → Dom) (s : State) : (modDom d f s).tpt = s.tpt := rfl
@[simp] theorem modDom_cls (d : Nat) (f : Dom → Dom) (s : State) : (modDom d f s).cls = s.cls := rfl
@[simp] theorem modDom_gnt (d : Nat) (f : Dom → Dom) (s : State) : (modDom d f s).gnt = s.gnt := rfl
@[simp] theorem modDom_rng (d : Nat) (f : Dom → Dom) (s : State) : (modDom d f s).rng = s.rng := rfl
@[simp] theorem modDom_pgr (d : Nat) (f : Dom → Dom) (s : State) : (modDom d f s).pgr = s.pgr := rfl
@[simp] theorem modDom_tim (d : Nat) (f : Dom → Dom) (s : State) : (modDom d f s).tim = s.tim := rfl
@[simp] theorem modDom_lnk (d : Nat) (f : Dom → Dom) (s : State) : (modDom d f s).lnk = s.lnk := rfl
@[simp] theorem modDom_err (d : Nat) (f : Dom → Dom) (s : State) : (modDom d f s).err = s.err := rfl
@[simp] theorem modDom_mon (d : Nat) (f : Dom → Dom) (s : State) : (modDom d f s).mon = s.mon := rfl
@[simp] theorem modDom_freeCtr (d : Nat) (f : Dom → Dom) (s : State) : (modDom d f s).freeCtr = s.freeCtr := rfl
@[simp] theorem modDom_pending (d : Nat) (f : Dom → Dom) (s : State) : (modDom d f s).pending = s.pending := rfl

@[simp] theorem modVec_phase (v : Nat) (f : Vec → Vec) (s : State) : (modVec v f s).phase = s.phase := rfl
@[simp] theorem modVec_uptime (v : Nat) (f : Vec → Vec) (s : State) : (modVec v f s).uptime = s.uptime := rfl
@[simp] theorem modVec_regs (v : Nat) (f : Vec → Vec) (s : State) : (modVec v f s).regs = s.regs := rfl
@[simp] theorem modVec_ctrs (v : Nat) (f : Vec → Vec) (s : State) : (modVec v f s).ctrs = s.ctrs := rfl
@[simp] theorem modVec_latches (v : Nat) (f : Vec → Vec) (s : State) : (modVec v f s).latches = s.latches := rfl
@[simp] theorem modVec_fab (v : Nat) (f : Vec → Vec) (s : State) : (modVec v f s).fab = s.fab := rfl
@[simp] theorem modVec_hif (v : Nat) (f : Vec → Vec) (s : State) : (modVec v f s).hif = s.hif := rfl
@[simp] theorem modVec_tpt (v : Nat) (f : Vec → Vec) (s : State) : (modVec v f s).tpt = s.tpt := rfl
@[simp] theorem modVec_cls (v : Nat) (f : Vec → Vec) (s : State) : (modVec v f s).cls = s.cls := rfl
@[simp] theorem modVec_gnt (v : Nat) (f : Vec → Vec) (s : State) : (modVec v f s).gnt = s.gnt := rfl
@[simp] theorem modVec_rng (v : Nat) (f : Vec → Vec) (s : State) : (modVec v f s).rng = s.rng := rfl
@[simp] theorem modVec_pgr (v : Nat) (f : Vec → Vec) (s : State) : (modVec v f s).pgr = s.pgr := rfl
@[simp] theorem modVec_tim (v : Nat) (f : Vec → Vec) (s : State) : (modVec v f s).tim = s.tim := rfl
@[simp] theorem modVec_lnk (v : Nat) (f : Vec → Vec) (s : State) : (modVec v f s).lnk = s.lnk := rfl
@[simp] theorem modVec_pwr (v : Nat) (f : Vec → Vec) (s : State) : (modVec v f s).pwr = s.pwr := rfl
@[simp] theorem modVec_mon (v : Nat) (f : Vec → Vec) (s : State) : (modVec v f s).mon = s.mon := rfl
@[simp] theorem modVec_freeCtr (v : Nat) (f : Vec → Vec) (s : State) : (modVec v f s).freeCtr = s.freeCtr := rfl
@[simp] theorem modVec_pending (v : Nat) (f : Vec → Vec) (s : State) : (modVec v f s).pending = s.pending := rfl

/-! Registers, counters and draws. -/

@[simp] theorem setReg_phase (off : Nat) (v : Word) (s : State) : (setReg off v s).phase = s.phase := rfl
@[simp] theorem setReg_uptime (off : Nat) (v : Word) (s : State) : (setReg off v s).uptime = s.uptime := rfl
@[simp] theorem setReg_ctrs (off : Nat) (v : Word) (s : State) : (setReg off v s).ctrs = s.ctrs := rfl
@[simp] theorem setReg_latches (off : Nat) (v : Word) (s : State) : (setReg off v s).latches = s.latches := rfl
@[simp] theorem setReg_fab (off : Nat) (v : Word) (s : State) : (setReg off v s).fab = s.fab := rfl
@[simp] theorem setReg_hif (off : Nat) (v : Word) (s : State) : (setReg off v s).hif = s.hif := rfl
@[simp] theorem setReg_tpt (off : Nat) (v : Word) (s : State) : (setReg off v s).tpt = s.tpt := rfl
@[simp] theorem setReg_cls (off : Nat) (v : Word) (s : State) : (setReg off v s).cls = s.cls := rfl
@[simp] theorem setReg_gnt (off : Nat) (v : Word) (s : State) : (setReg off v s).gnt = s.gnt := rfl
@[simp] theorem setReg_rng (off : Nat) (v : Word) (s : State) : (setReg off v s).rng = s.rng := rfl
@[simp] theorem setReg_pgr (off : Nat) (v : Word) (s : State) : (setReg off v s).pgr = s.pgr := rfl
@[simp] theorem setReg_tim (off : Nat) (v : Word) (s : State) : (setReg off v s).tim = s.tim := rfl
@[simp] theorem setReg_lnk (off : Nat) (v : Word) (s : State) : (setReg off v s).lnk = s.lnk := rfl
@[simp] theorem setReg_pwr (off : Nat) (v : Word) (s : State) : (setReg off v s).pwr = s.pwr := rfl
@[simp] theorem setReg_err (off : Nat) (v : Word) (s : State) : (setReg off v s).err = s.err := rfl
@[simp] theorem setReg_mon (off : Nat) (v : Word) (s : State) : (setReg off v s).mon = s.mon := rfl
@[simp] theorem setReg_freeCtr (off : Nat) (v : Word) (s : State) : (setReg off v s).freeCtr = s.freeCtr := rfl
@[simp] theorem setReg_pending (off : Nat) (v : Word) (s : State) : (setReg off v s).pending = s.pending := rfl

@[simp] theorem addCtr_phase (off n : Nat) (s : State) : (addCtr off n s).phase = s.phase := rfl
@[simp] theorem addCtr_uptime (off n : Nat) (s : State) : (addCtr off n s).uptime = s.uptime := rfl
@[simp] theorem addCtr_regs (off n : Nat) (s : State) : (addCtr off n s).regs = s.regs := rfl
@[simp] theorem addCtr_latches (off n : Nat) (s : State) : (addCtr off n s).latches = s.latches := rfl
@[simp] theorem addCtr_fab (off n : Nat) (s : State) : (addCtr off n s).fab = s.fab := rfl
@[simp] theorem addCtr_hif (off n : Nat) (s : State) : (addCtr off n s).hif = s.hif := rfl
@[simp] theorem addCtr_tpt (off n : Nat) (s : State) : (addCtr off n s).tpt = s.tpt := rfl
@[simp] theorem addCtr_cls (off n : Nat) (s : State) : (addCtr off n s).cls = s.cls := rfl
@[simp] theorem addCtr_gnt (off n : Nat) (s : State) : (addCtr off n s).gnt = s.gnt := rfl
@[simp] theorem addCtr_rng (off n : Nat) (s : State) : (addCtr off n s).rng = s.rng := rfl
@[simp] theorem addCtr_pgr (off n : Nat) (s : State) : (addCtr off n s).pgr = s.pgr := rfl
@[simp] theorem addCtr_tim (off n : Nat) (s : State) : (addCtr off n s).tim = s.tim := rfl
@[simp] theorem addCtr_lnk (off n : Nat) (s : State) : (addCtr off n s).lnk = s.lnk := rfl
@[simp] theorem addCtr_pwr (off n : Nat) (s : State) : (addCtr off n s).pwr = s.pwr := rfl
@[simp] theorem addCtr_err (off n : Nat) (s : State) : (addCtr off n s).err = s.err := rfl
@[simp] theorem addCtr_mon (off n : Nat) (s : State) : (addCtr off n s).mon = s.mon := rfl
@[simp] theorem addCtr_freeCtr (off n : Nat) (s : State) : (addCtr off n s).freeCtr = s.freeCtr := rfl
@[simp] theorem addCtr_pending (off n : Nat) (s : State) : (addCtr off n s).pending = s.pending := rfl

@[simp] theorem drawn_phase (s : State) : (drawn s).phase = s.phase := rfl
@[simp] theorem drawn_uptime (s : State) : (drawn s).uptime = s.uptime := rfl
@[simp] theorem drawn_regs (s : State) : (drawn s).regs = s.regs := rfl
@[simp] theorem drawn_ctrs (s : State) : (drawn s).ctrs = s.ctrs := rfl
@[simp] theorem drawn_latches (s : State) : (drawn s).latches = s.latches := rfl
@[simp] theorem drawn_fab (s : State) : (drawn s).fab = s.fab := rfl
@[simp] theorem drawn_hif (s : State) : (drawn s).hif = s.hif := rfl
@[simp] theorem drawn_tpt (s : State) : (drawn s).tpt = s.tpt := rfl
@[simp] theorem drawn_cls (s : State) : (drawn s).cls = s.cls := rfl
@[simp] theorem drawn_gnt (s : State) : (drawn s).gnt = s.gnt := rfl
@[simp] theorem drawn_rng (s : State) : (drawn s).rng = s.rng := rfl
@[simp] theorem drawn_pgr (s : State) : (drawn s).pgr = s.pgr := rfl
@[simp] theorem drawn_tim (s : State) : (drawn s).tim = s.tim := rfl
@[simp] theorem drawn_lnk (s : State) : (drawn s).lnk = s.lnk := rfl
@[simp] theorem drawn_pwr (s : State) : (drawn s).pwr = s.pwr := rfl
@[simp] theorem drawn_err (s : State) : (drawn s).err = s.err := rfl
@[simp] theorem drawn_mon (s : State) : (drawn s).mon = s.mon := rfl
@[simp] theorem drawn_pending (s : State) : (drawn s).pending = s.pending := rfl

end Sys2Proof.Machine
end

