-- ==== Sys2Proof/Laws/Tables.lean ====
section
/-! SUPPORT. Sparse tables: a read after a write, of the same key and of another, and the canonical form, which every write keeps. -/

namespace Sys2Proof.Machine

section Tables
variable {α : Type} [DecidableEq α]

omit [DecidableEq α] in
theorem tfind_tins_same (t : Table α) (k : Nat) (x : α) : tfind (tins t k x) k = some x := by
  induction t with
  | nil => simp [tins, tfind]
  | cons e r ih =>
    obtain ⟨j, a⟩ := e
    unfold tins
    split
    · simp [tfind]
    · split
      · simp [tfind]
      · rename_i h
        simp [tfind, ih, Ne.symm h]

omit [DecidableEq α] in
theorem tfind_tins_ne {k j : Nat} (h : j ≠ k) (t : Table α) (x : α) : tfind (tins t k x) j = tfind t j := by
  induction t with
  | nil => simp [tins, tfind, Ne.symm h]
  | cons e r ih =>
    obtain ⟨i, a⟩ := e
    unfold tins
    split
    · simp [tfind, Ne.symm h]
    · split
      · rename_i hk
        simp [tfind, Ne.symm h, ← hk]
      · simp [tfind, ih]

omit [DecidableEq α] in
theorem tfind_filter_same (t : Table α) (k : Nat) : tfind (t.filter fun e => e.1 ≠ k) k = none := by
  induction t with
  | nil => rfl
  | cons e r ih =>
    by_cases h : e.1 = k
    · simpa [List.filter_cons, h] using ih
    · simpa [List.filter_cons, h, tfind] using ih

omit [DecidableEq α] in
theorem tfind_filter_ne {k j : Nat} (h : j ≠ k) (t : Table α) : tfind (t.filter fun e => e.1 ≠ k) j = tfind t j := by
  induction t with
  | nil => rfl
  | cons e r ih =>
    by_cases hk : e.1 = k
    · simpa [List.filter_cons, hk, tfind, Ne.symm h] using ih
    · by_cases hj : e.1 = j
      · simp [tfind, hj, h]
      · simpa [List.filter_cons, hk, tfind, hj] using ih

omit [DecidableEq α] in
@[simp] theorem tfind_tput_same (t : Table α) (k : Nat) (v : Option α) : tfind (tput t k v) k = v := by
  cases v with
  | none => exact tfind_filter_same t k
  | some x => exact tfind_tins_same t k x

omit [DecidableEq α] in
theorem tfind_tput_ne {k j : Nat} (h : j ≠ k) (t : Table α) (v : Option α) : tfind (tput t k v) j = tfind t j := by
  cases v with
  | none => exact tfind_filter_ne h t
  | some x => exact tfind_tins_ne h t x

/-- A read after a write of the same key. -/
@[simp] theorem tget_tset_same (t : Table α) (d : α) (k : Nat) (v : α) : tget (tset t d k v) k d = v := by
  unfold tget tset
  by_cases h : v = d <;> simp [h]

/-- A write leaves every other key as it was. -/
theorem tget_tset_ne {k j : Nat} (h : j ≠ k) (t : Table α) (d : α) (v : α) : tget (tset t d k v) j d = tget t j d := by
  simp [tget, tset, tfind_tput_ne h]

/-- A read after a write, of any key. -/
theorem tget_tset (t : Table α) (d : α) (k j : Nat) (v : α) :
    tget (tset t d k v) j d = if j = k then v else tget t j d := by
  split
  · rename_i h
    rw [h, tget_tset_same]
  · rename_i h
    exact tget_tset_ne h t d v

theorem twfFrom_mono {d : α} {a b : Nat} (h : a ≤ b) {t : Table α} (ht : twfFrom d b t = true) : twfFrom d a t = true := by
  cases t with
  | nil => rfl
  | cons e r =>
    simp only [twfFrom, Bool.and_eq_true, decide_eq_true_eq] at ht ⊢
    exact ⟨⟨le_trans h ht.1.1, ht.1.2⟩, ht.2⟩

theorem twfFrom_filter {d : α} {lo k : Nat} {t : Table α} (ht : twfFrom d lo t = true) :
    twfFrom d lo (t.filter fun e => e.1 ≠ k) = true := by
  induction t generalizing lo with
  | nil => rfl
  | cons e r ih =>
    simp only [twfFrom, Bool.and_eq_true, decide_eq_true_eq] at ht
    by_cases h : e.1 = k
    · simpa [List.filter_cons, h] using twfFrom_mono (le_trans ht.1.1 (by omega)) (ih ht.2)
    · simpa [List.filter_cons, h, twfFrom, ht.1.1, ht.1.2] using ih ht.2

theorem twfFrom_tins {d x : α} (hx : x ≠ d) {lo k : Nat} (hk : lo ≤ k) {t : Table α} (ht : twfFrom d lo t = true) :
    twfFrom d lo (tins t k x) = true := by
  induction t generalizing lo with
  | nil => simp [tins, twfFrom, hx, hk]
  | cons e r ih =>
    obtain ⟨j, a⟩ := e
    simp only [twfFrom, Bool.and_eq_true, decide_eq_true_eq] at ht
    unfold tins
    split
    · rename_i h
      simp [twfFrom, hx, hk, ht.2, ht.1.2, Nat.succ_le_of_lt h]
    · split
      · rename_i h
        subst h
        simp [twfFrom, hx, hk, ht.2]
      · rename_i h1 h2
        simp [twfFrom, ht.1.1, ht.1.2, ih (by omega) ht.2]

/-- Every write keeps the canonical form. -/
theorem twf_tset {d : α} {t : Table α} (k : Nat) (v : α) (ht : twf d t = true) : twf d (tset t d k v) = true := by
  unfold tset
  by_cases h : v = d
  · simpa [h, tput, twf] using twfFrom_filter ht
  · simpa [h, tput, twf] using twfFrom_tins h (Nat.zero_le k) ht

end Tables

/-! The keyed parts of the units. -/

@[simp] theorem getQueue_modQueue (q : Nat) (f : Queue → Queue) (s : State) : getQueue (modQueue q f s) q = f (getQueue s q) :=
  tget_tset_same _ _ _ _
@[simp] theorem getPort_modPort (n : Nat) (f : Port → Port) (s : State) : getPort (modPort n f s) n = f (getPort s n) :=
  tget_tset_same _ _ _ _
@[simp] theorem getProt_modProt (t : Nat) (f : Prot → Prot) (s : State) : getProt (modProt t f s) t = f (getProt s t) :=
  tget_tset_same _ _ _ _
@[simp] theorem getGTree_modGTree (t : Nat) (f : GTree → GTree) (s : State) : getGTree (modGTree t f s) t = f (getGTree s t) :=
  tget_tset_same _ _ _ _
@[simp] theorem getRec_modRec (h : Nat) (f : TermRec → TermRec) (s : State) : getRec (modRec h f s) h = f (getRec s h) :=
  tget_tset_same _ _ _ _
@[simp] theorem getCurve_modCurve (i : Nat) (f : Curve → Curve) (s : State) : getCurve (modCurve i f s) i = f (getCurve s i) :=
  tget_tset_same _ _ _ _
@[simp] theorem getRTree_modRTree (t : Nat) (f : RTree → RTree) (s : State) : getRTree (modRTree t f s) t = f (getRTree s t) :=
  tget_tset_same _ _ _ _
@[simp] theorem getFlow_modFlow (k : Nat) (f : Flow → Flow) (s : State) : getFlow (modFlow k f s) k = f (getFlow s k) :=
  tget_tset_same _ _ _ _
@[simp] theorem getSlot_modSlot (i : Nat) (f : CSlot → CSlot) (s : State) : getSlot (modSlot i f s) i = f (getSlot s i) :=
  tget_tset_same _ _ _ _
@[simp] theorem getLane_modLane (l : Nat) (f : Lane → Lane) (s : State) : getLane (modLane l f s) l = f (getLane s l) :=
  tget_tset_same _ _ _ _
@[simp] theorem getCPort_modCPort (c : Nat) (f : CPort → CPort) (s : State) : getCPort (modCPort c f s) c = f (getCPort s c) :=
  tget_tset_same _ _ _ _
@[simp] theorem getDom_modDom (d : Nat) (f : Dom → Dom) (s : State) : getDom (modDom d f s) d = f (getDom s d) :=
  tget_tset_same _ _ _ _
@[simp] theorem getVec_modVec (v : Nat) (f : Vec → Vec) (s : State) : getVec (modVec v f s) v = f (getVec s v) :=
  tget_tset_same _ _ _ _
@[simp] theorem getCtr_addCtr (off n : Nat) (s : State) : getCtr (addCtr off n s) off = getCtr s off + BitVec.ofNat 48 n :=
  tget_tset_same _ _ _ _
@[simp] theorem reg_setReg (off : Nat) (v : Word) (s : State) : reg (setReg off v s) off = v := tget_tset_same _ _ _ _

theorem getQueue_modQueue_ne {q r : Nat} (h : r ≠ q) (f : Queue → Queue) (s : State) : getQueue (modQueue q f s) r = getQueue s r :=
  tget_tset_ne h _ _ _
theorem getPort_modPort_ne {n r : Nat} (h : r ≠ n) (f : Port → Port) (s : State) : getPort (modPort n f s) r = getPort s r :=
  tget_tset_ne h _ _ _
theorem getProt_modProt_ne {t r : Nat} (h : r ≠ t) (f : Prot → Prot) (s : State) : getProt (modProt t f s) r = getProt s r :=
  tget_tset_ne h _ _ _
theorem getRec_modRec_ne {h r : Nat} (hr : r ≠ h) (f : TermRec → TermRec) (s : State) : getRec (modRec h f s) r = getRec s r :=
  tget_tset_ne hr _ _ _
theorem getFlow_modFlow_ne {k r : Nat} (h : r ≠ k) (f : Flow → Flow) (s : State) : getFlow (modFlow k f s) r = getFlow s r :=
  tget_tset_ne h _ _ _
theorem getSlot_modSlot_ne {i r : Nat} (h : r ≠ i) (f : CSlot → CSlot) (s : State) : getSlot (modSlot i f s) r = getSlot s r :=
  tget_tset_ne h _ _ _
theorem getLane_modLane_ne {l r : Nat} (h : r ≠ l) (f : Lane → Lane) (s : State) : getLane (modLane l f s) r = getLane s r :=
  tget_tset_ne h _ _ _
theorem getCPort_modCPort_ne {c r : Nat} (h : r ≠ c) (f : CPort → CPort) (s : State) : getCPort (modCPort c f s) r = getCPort s r :=
  tget_tset_ne h _ _ _
theorem getDom_modDom_ne {d r : Nat} (h : r ≠ d) (f : Dom → Dom) (s : State) : getDom (modDom d f s) r = getDom s r :=
  tget_tset_ne h _ _ _
theorem getCtr_addCtr_ne {off r : Nat} (h : r ≠ off) (n : Nat) (s : State) : getCtr (addCtr off n s) r = getCtr s r :=
  tget_tset_ne h _ _ _

/-- A register set leaves every other register as it was. -/
theorem reg_setReg_ne {off r : Nat} (h : r ≠ off) (v : Word) (s : State) : reg (setReg off v s) r = reg s r := by
  simp [reg, setReg, tget, tset, tfind_tput_ne h]

end Sys2Proof.Machine
end

