-- ==== Sys2Proof/WellFormed.lean ====
section
/-! DEFINITION. Which commands are well formed: every operand lies in the range that the manual gives its field, every block
of words has the length of the structure it brings, and a register write is one that no other row covers. `exec` is total and
does not ask for this; it says which commands the manual lets come. -/

namespace Sys2Proof

/-- Framer constants as words of the framer's table; their own ranges are checked when they are read (R17, R142, R143). -/
def FramerConst.fits (c : FramerConst) : Bool :=
  decide (c.profile < 2 ^ 32 ∧ c.cap < 2 ^ 32 ∧ c.guardBytes < 2 ^ 32 ∧ c.preamble < 2 ^ 32 ∧ c.delim < 2 ^ 32 ∧ c.encap < 2 ^ 32 ∧
    c.report < 2 ^ 32 ∧ c.byteTime < 2 ^ 32 ∧ c.dsLat < 2 ^ 32 ∧ c.usLat < 2 ^ 32)

/-- A message header within its fields (R242). -/
def MsgHdr.fits (h : MsgHdr) : Bool := decide (h.hops < 64 ∧ h.dest < 16384 ∧ h.origin < 16384)

/-- A DATA body within its fields (R244). -/
def DataMsg.fits (d : DataMsg) : Bool :=
  decide (d.colour ≤ 2 ∧ d.terminal < 32768 ∧ d.flow < 262144 ∧ 0 < d.bytes.length ∧ d.bytes.length ≤ 16124)

/-- A stamp within its fields (R222). -/
def LinkStamp.fits (t : LinkStamp) : Bool := decide (t.sec < 2 ^ 48 ∧ t.ns < 1000000000 ∧ t.qns < 4)

/-- A MIG_BEGIN within its fields (R252, R276). -/
def MigBegin.fits (m : MigBegin) : Bool := decide (m.terms ≤ 512 ∧ m.flows ≤ 16384)

/-- The payload of an ordered set (R232). -/
def osFits (ps : List Byte) : Bool := decide (ps.length = 12)

/-- Registers whose write at an enable brings an index area, and has a row of its own (R221, R325). -/
def ownEnable (off : BitVec 20) (v : Word) : Bool := decide ((off = 0x70020 ∨ off = 0xB0010) ∧ v.toNat % 2 = 1)

/-- The check of a command. -/
def Instr.wellFormed : Instr → Bool
  | .coldReset _ => true
  | .coldResetRelease => true
  | .resetInitialisationDone => true
  | .warmResetByPin => true
  | .warmReset _ => true
  | .quiesceEnd _ => true
  | .portFlushAck _ => true
  | .portResetTruncate _ => true
  | .portResetDone _ fc => fc.fits
  | .laneResetDone _ => true
  | .portClockLost _ => true
  | .portClockMeasure _ khz => decide (khz < 1024000)
  | .timeRefLost => true
  | .timeRefRestored => true
  | .captureCalibration => true
  | .registerWrite a width v => decide (1 ≤ width ∧ width ≤ 8) && !(decide (width = 4) && ownEnable a.off v)
  | .aq0Enable _ => true
  | .caddieEnable _ => true
  | .caddieEnableDone _ entries => decide (entries.length ≤ 262144) && entries.all fun e => decide (e.1 < 262144)
  | .tsqEnable v _ => decide (v.toNat % 2 = 1)
  | .traceRingEnable v _ => decide (v.toNat % 2 = 1)
  | .timNowSnap => true
  | .refusedWriteClear => true
  | .cancelIn _ => true
  | .statCounterLowRead off => decide (off.toNat % 8 = 0)
  | .bwLatchRead _ => true
  | .indDataRead => true
  | .indDataWrite _ => true
  | .recSelWrite _ => true
  | .routeDataRead => true
  | .routeDataWrite _ => true
  | .repairDataRead => true
  | .markSeedWrite _ => true
  | .laneEnable _ => true
  | .laneDisable _ => true
  | .powerEnable _ => true
  | .powerCapWrite off _ => decide (off = 0x90010 ∨ (0x90100 ≤ off.toNat ∧ off.toNat < 0x90200 ∧ off.toNat % 4 = 0))
  | .bwWindowChange _ => true
  | .doorbell b => decide ((b.width = 1 ∨ b.width = 2 ∨ b.width = 4 ∨ b.width = 8) ∧ b.off.toNat % b.width = 0)
  | .doorbellService _ => true
  | .poll _ _ => true
  | .pollResponse _ _ _ => true
  | .pollOverrunEpisodeEnd => true
  | .indexReadResponse _ _ _ => true
  | .indexWriteTimer _ => true
  | .seqTagRetry _ none => true
  | .seqTagRetry _ (some ws) => decide (ws.length = 4 ∨ ws.length = 8 ∨ ws.length = 16)
  | .txFetch => true
  | .adminFetch => true
  | .txDescriptorArrive _ _ ws => decide (ws.length = 8)
  | .adminDescriptorArrive _ _ ws => decide (ws.length = 16)
  | .segmentListArrive _ _ ws => decide (0 < ws.length ∧ ws.length % 4 = 0 ∧ ws.length ≤ 64)
  | .cellReserve => true
  | .launchReadStart _ _ => true
  | .launchTimeReached _ _ => true
  | .payloadReadDone _ _ bytes => decide (0 < bytes.length ∧ bytes.length ≤ 16124)
  | .frameDispatch _ _ => true
  | .classifyDone _ _ => true
  | .frameHandoff _ _ _ => true
  | .dsFrameEnd _ => true
  | .completionWrite _ => true
  | .cqRecoveryRead _ => true
  | .rateTokenRefill _ => true
  | .fabricWriteAck _ => true
  | .vectorTimer _ => true
  | .interruptAck _ => true
  | .fabricErrorResponse _ _ => true
  | .fabricTimeout _ _ => true
  | .lateResponse _ => true
  | .cipherTimeout _ => true
  | .cipherLateResult => true
  | .rxBufferFetch _ => true
  | .rxBufferArrive _ ws => ws.all fun w => decide (w.length = 4)
  | .usFrameArrival _ f => decide (0 < f.bytes.length)
  | .rxBuffersTake _ => true
  | .rxNoBufferTimeout _ => true
  | .cycleStart _ _ => true
  | .cycleLost _ => true
  | .garbled _ _ => true
  | .sdDegradedRise _ => true
  | .sdDegradedFall _ => true
  | .grantReadPoint _ => true
  | .planPublish _ => true
  | .grantComputeDeadline _ => true
  | .glCommit _ _ => true
  | .grantListDeadline _ => true
  | .burstMissed _ => true
  | .rangingSlotJudge _ => true
  | .jbWindowJudge _ => true
  | .protSwitch _ _ => true
  | .rehomeRebind _ => true
  | .rehomeResume _ => true
  | .prefetchIssue _ => true
  | .pageInIssue => true
  | .pageInReadDone _ ws => decide (ws.length = 32)
  | .pageInDone _ _ ws => decide (ws.length = 32)
  | .pageOutEncrypted _ _ ws => decide (ws.length = 32)
  | .pageOutDone _ => true
  | .cleaningPageOut => true
  | .pageRetry _ => true
  | .faultHoldEnd _ => true
  | .victimBarEnd _ => true
  | .protectionEnd _ => true
  | .cachePressureEpisodeEnd => true
  | .prefetchLateEpisodeEnd => true
  | .whistleRise _ => true
  | .whistleFall _ => true
  | .tsqCiRead => true
  | .tsqCiResponse _ => true
  | .traceCiRead => true
  | .laneProbe _ _ _ => true
  | .laneTimeLimit _ => true
  | .characterAlignment _ => true
  | .symbolLockLost _ => true
  | .tsReceived _ ps _ => osFits ps
  | .lkReceived _ ps _ _ => osFits ps
  | .capSetReceived _ ps _ => osFits ps
  | .markReceived _ ps _ => osFits ps
  | .rateSwitch _ => true
  | .blockLock _ => true
  | .blockLockLost _ => true
  | .alignmentLost _ => true
  | .invalidBlock _ _ => true
  | .sleepReceived _ => true
  | .wakeReceived _ => true
  | .lpiEnter _ => true
  | .lpiWake _ => true
  | .lpiWakeTimeout _ => true
  | .linkTransmit _ => true
  | .dataReceived _ h d => h.fits && d.fits
  | .ackReceived _ _ _ => true
  | .pauseReceived _ _ quanta => decide (quanta.length = 8)
  | .capReceived _ h ps => h.fits && osFits ps
  | .snapReceived _ h _ sec ns => h.fits && decide (sec < 2 ^ 48 ∧ ns < 1000000000)
  | .syncReceived _ _ _ => true
  | .followUpReceived _ _ t => t.fits
  | .delayReqReceived _ _ _ => true
  | .delayRespReceived _ _ t => t.fits
  | .timeExchangeStart _ => true
  | .timeExchangeTimeout _ => true
  | .migBeginReceived _ h m => h.fits && m.fits
  | .migTerminalReceived _ h _ _ ws => h.fits && decide (ws.length = 16)
  | .migFlowReceived _ h _ _ ws => h.fits && decide (ws.length = 32)
  | .migEndReceived _ h _ terms flows => h.fits && decide (terms ≤ 512 ∧ flows ≤ 16384)
  | .migDoneReceived _ h _ _ => h.fits
  | .migrationDrainEnd _ list => decide ((list.getD []).length ≤ 16384)
  | .migDoneTimeout _ => true
  | .migEndTimeout _ => true
  | .transitTimeout _ => true
  | .retransmitTimeout _ => true
  | .retxEpisodeEnd _ => true
  | .ackTimer _ => true
  | .pauseExpiry _ _ => true
  | .pauseRefresh _ _ => true
  | .bwWindowEnd => true
  | .snapshotFreeze => true
  | .snapshotImageDone => true
  | .patrolScrub _ _ _ _ => true
  | .domainIdle _ _ => true
  | .depthEntered _ => true
  | .wakeStart _ => true
  | .domainAwake _ _ _ => true
  | .wakeFailed _ => true
  | .commitFlip => true
  | .commitCopyDone => true
  | .curveLoadApply _ => true
  | .queueCreate _ _ => true
  | .queueModify _ _ => true
  | .queueDrain _ _ => true
  | .queueDestroy _ _ => true
  | .flowCreate _ _ => true
  | .flowDestroy _ _ => true
  | .flowPin _ _ => true
  | .flowUnpin _ _ => true
  | .rekeyFlow _ _ => true
  | .terminalSetState _ _ => true
  | .rangeArm _ _ => true
  | .equaliseSet _ _ => true
  | .ruleInsert _ _ => true
  | .ruleDelete _ _ => true
  | .ternaryStage _ _ => true
  | .parseStage _ _ => true
  | .classCommit _ _ => true
  | .curveLoad _ _ => true
  | .playbookLoad _ _ => true
  | .snapshot _ _ => true
  | .timeStep _ _ => true
  | .timeRate _ _ => true
  | .whistleSet _ _ => true
  | .linkRetrain _ _ => true
  | .migrateOut _ _ => true
  | .migrateIn _ _ fc => fc.fits
  | .portEnable _ _ fc => fc.fits
  | .portDisable _ _ => true
  | .portRestart _ _ => true
  | .traceCiResponse _ => true
  | .adminBufferReadDone _ _ _ => true
  | .listTime _ => true
  | .laneRecoveredClockLost _ => true
  | .blockSupplyOff => true
  | .receiverTrained _ => true
  | .laneAligned _ => true
  | .invalidMessageReceived _ _ => true

end Sys2Proof
end

