-- ==== Sys2Proof/Tests/Slice0.lean ====
section
/-! SUPPORT. Tests: ill-formed commands that the check refuses, worked examples of the manual, and, for every statement that has
hypotheses, a state that meets the hypotheses of each of its clauses. -/

namespace Sys2Proof.Tests

set_option Elab.async false

open Sys2Proof.Machine

/-! The states that the tests start from. -/

/-- A running block with nothing in it. -/
def run : State := { phase := .running }

/-- A state with one queue. -/
def withQ (q : Nat) (Q : Queue) (s : State) : State := modQueue q (fun _ => Q) s

/-- An admin command that waits for its turn on admin queue 5,120. -/
def cmd (op t p : Nat) (d : List Word) : Adm :=
  { q := 5120, idx := 0, stage := .waiting, ws := [wordOf (op * 65536), 7, wordOf t, wordOf p, 0, 0, 0] ++ d }

/-- The command is the block's only one. -/
def withCmd (op t p : Nat) (d : List Word) (s : State) : State := s.modHif fun h => { h with adm := [cmd op t p d] }

/-- Its buffer is being read: `len` bytes. -/
def withBuf (op t p len : Nat) (s : State) : State :=
  { s with
    hif := { s.hif with adm := [{ cmd op t p [] with ws := [wordOf (op * 65536), 7, wordOf t, wordOf p, 0, 0, wordOf len] }] }
    fab := { s.fab with reads := [{ id := 0, use := .adminBuf 5120 0, addr := 0, len := len }] } }

/-- A read for a use is outstanding. -/
def withRead (u : RdUse) (s : State) : State := { s with fab := { s.fab with reads := [{ id := 0, use := u, addr := 0, len := 8 }] } }

/-- A write for a use is outstanding. -/
def withWrite (u : WrUse) (retried : Bool) (s : State) : State :=
  { s with fab := { s.fab with writes := [{ id := 0, use := u, addr := 0, len := 4, ws := [], retried := retried }] } }

/-- One descriptor in flight on queue 1. -/
def withTx (t : Tx) (s : State) : State := s.modHif fun h => { h with tx := [t] }

/-- One upstream frame. -/
def withUs (u : Us) (s : State) : State := s.modTpt fun t => { t with us := [u] }

/-- An active queue, empty, whose ring has 16 entries. -/
def act : Queue := { st := .active, cfg := { log2 := 4, pollIvl := 1, weight := 16, burst := 1, cq := 6145 } }

/-- An enabled port with a good clock. -/
def on : Port := { enabled := true, good := true, present := true }

/-- A cluster port that is up. -/
def up : CPort := { up := true }

/-- A small upstream frame. -/
def frame : Us := { id := 0, port := 3, tree := 3, stage := .dispatch, kept := [], len := 64 }

/-- Constants of a port in profile G (R143). -/
def consts : FramerConst :=
  { profile := 2, cap := 1120000, guardBytes := 64, preamble := 64, delim := 4, encap := 8, report := 72, byteTime := 7314,
    dsLat := 0, usLat := 0 }

/-! Witnesses: the whole machine, resets and ports. -/

theorem witness_IdleStepIsOneClockEdge :
    run.pending = [] ∧ timeAlive run = true ∧ LegalTime run.tim ∧
    LegalTime { sec := 281474976710655, ns := 999999999, frac := 4294967295, rate := -4294967 } ∧
    timeAlive { run with phase := .off } = false := by decide +kernel

theorem witness_PhaseMovesOnlyByResets :
    exec .coldResetRelease { run with phase := .coldHeld } = .next { run with phase := .coldInit } := rfl

theorem witness_TimeBaseMovesOnlyByItsCommands :
    exec .refusedWriteClear { run with phase := .off } = .next { run with phase := .off } ∧
    (∀ short, Instr.refusedWriteClear ≠ .coldReset short) ∧ (∀ q idx, Instr.refusedWriteClear ≠ .timeStep q idx) ∧
    (∀ q idx, Instr.refusedWriteClear ≠ .timeRate q idx) := ⟨rfl, nofun, nofun, nofun⟩

theorem witness_ResetRecordMovesOnlyByResets :
    exec .coldResetRelease { run with phase := .coldHeld } = .next { run with phase := .coldInit } ∧
    (∀ short, Instr.coldResetRelease ≠ .coldReset short) ∧ (∀ b, Instr.coldResetRelease ≠ .quiesceEnd b) ∧
    Instr.coldResetRelease ≠ .resetInitialisationDone := ⟨rfl, nofun, nofun, nofun⟩

theorem witness_StepKeepsInv : Inv run ∧ step run = .next (tick run) :=
  ⟨⟨by decide +kernel, by decide +kernel, by decide +kernel, by decide +kernel, by decide +kernel, by decide +kernel⟩, rfl⟩

theorem witness_ColdReset : ({ run with phase := .coldHeld } : State).phase = .coldHeld ∧
    ({ run with phase := .coldInit } : State).phase = .coldInit ∧
    ({ run with phase := .warmInit } : State).phase = .warmInit := by decide +kernel

theorem witness_WarmResetAndSupply : run.phase = .running ∧ (0xA5C2 : BitVec 16) ≠ 0xA5C3 ∧
    quiesceDone { run with phase := .quiesce } = true ∧
    quiesceDone (withWrite .snapshot false { run with phase := .quiesce }) = false ∧ run.pending = [] := by decide +kernel

theorem witness_TimeIsland_reference : run.phase = .running := rfl

theorem witness_PortClock :
    let off := run
    let s := modPort 3 (fun _ => on) run
    let moved := modProt 3 (fun _ => { home := some 5 }) s
    let last := modProt 3 (fun p => { p with phase := 2 }) s
    let partner := modProt 9 (fun p => { p with phase := 1 }) (setReg (0x10070 + 9 * 0x400) 0xD run)
    let gone := fun (s : State) => raise 0x216 (wordOf 3) 0 (modPort 3 (fun P => { P with clockLost := true, burst := none })
      (modPort 3 (fun P => { P with freqMhz := 0, present := false, good := false, lostSeen := P.lostSeen || P.good }) s))
    let lost := modPort 3 (fun _ => { on with good := false, clockLost := true }) run
    rebindTree run 3 = none ∧ rebindTree partner 3 = some 9 ∧
    (getPort off 3).enabled = false ∧ (getPort s 3).enabled = true ∧ (getPort s 3).clockLost = false ∧ (getPort s 3).xfer = none ∧
    treeOn (gone moved) 3 = none ∧ treeOn (gone s) 3 = some 3 ∧ (getProt (flushQueues 3 7 (gone s)) 3).phase ≠ 2 ∧
    treeOn (gone last) 3 = some 3 ∧ (getProt (flushQueues 3 7 (gone last)) 3).phase = 2 ∧
    248000 ≤ 248000 ∧ 324000 ≤ 324000 ∧ (getPort lost 3).clockLost = true ∧ (getPort lost 3).good = false ∧ 0 < 1 ∧
    324000 < 324001 := by decide +kernel

theorem witness_PortClock_degraded :
    let s := modPort 3 (fun _ => on) run
    let bad := modPort 3 (fun _ => { enabled := true, degraded := true }) run
    reads (getPort s 3) = true ∧ (getPort s 3).degraded = false ∧ reads (getPort bad 3) = true ∧
    (getPort bad 3).degraded = true := by decide +kernel

theorem witness_PortResetSteps :
    let r : PortReset := { restart := true, cmd := none, flushed := true }
    let s := modPort 3 (fun _ => { on with reset := some r }) (modDom 3 (fun d => { d with depth := 0 })
      (modDom 67 (fun d => { d with depth := 0 }) run))
    s.phase = .running ∧ (getPort s 3).reset = some r ∧ (getPort s 3).xfer = none ∧ portAwake s 3 = true ∧ r.flushed = true ∧
    constsOk s 3 consts = true ∧ constsOk s 3 { consts with cap := 0 } = false := by decide +kernel

/-! Witnesses: the register window and the rings. -/

theorem witness_EmptyOffset :
    RegsOk run.regs ∧ (0xFFFFC : BitVec 20).toNat % 4 = 0 ∧ rowOf (0xFFFFC : BitVec 20).toNat = none := by decide +kernel

theorem witness_MaxFrame :
    bitsOf (1517 : Word) 0 14 < 1518 ∧ 16128 < bitsOf (16129 : Word) 0 14 ∧ portUp (getPort (modPort 3 (fun _ => on) run) 3) = true ∧
    exec .coldResetRelease (modPort 3 (fun _ => on) run) = .next (modPort 3 (fun _ => on) run) ∧
    (∀ short, Instr.coldResetRelease ≠ .coldReset short) :=
  ⟨by decide +kernel, by decide +kernel, by decide +kernel, rfl, nofun⟩

theorem witness_RegisterWrite_inReset : ({ run with phase := .warmInit } : State).phase ≠ .running := by decide

theorem witness_RegisterWrite :
    let ring := { run with tim := { run.tim with tsqEn := true } }
    PlainOffset (0x00108 : BitVec 20).toNat ∧ refusal run (0x00108 : BitVec 20).toNat 4 1 = some 2 ∧
    PlainOffset (0x000A0 : BitVec 20).toNat ∧ (rowOf (0x000A0 : BitVec 20).toNat).isSome = true ∧
    refusal run (0x000A0 : BitVec 20).toNat 4 0x3FF = none ∧ (0x00001 : BitVec 20).toNat % 4 ≠ 0 ∧
    bitOf (0xA5C30001 : Word) 0 = true ∧ bitsOf (0xA5C30001 : Word) 16 16 = 0xA5C3 ∧ bitsOf (1 : Word) 16 16 ≠ 0xA5C3 ∧
    isCap (0x90104 : BitVec 20).toNat = true ∧ refusal run 0x80004 4 1 = none ∧
    (false = run.tim.tsqEn ∧ false = run.mon.trEn) ∧ true = ring.tim.tsqEn ∧ bitOf (0 : Word) 0 = false ∧
    refusal run (0x70020 : BitVec 20).toNat 4 0 = none ∧ refusal ring (0x70020 : BitVec 20).toNat 4 1 = none ∧
    refusal run (0x70020 : BitVec 20).toNat 4 0x80000000 = none ∧
    refusal run (0xB0010 : BitVec 20).toNat 4 0 = some 3 := by
  decide +kernel

theorem witness_CounterRead : isCtr (0x20000 : BitVec 20).toNat = true ∧ (0x20000 : BitVec 20).toNat % 8 = 0 ∧
    isCtr (0 : BitVec 20).toNat = false := by decide +kernel

theorem witness_AddressedWindows : run.phase = .running ∧ bitOf (0x11 : Word) (bitsOf (0x11 : Word) 4 2) = false ∧
    bitOf (0x12 : Word) (bitsOf (0x12 : Word) 4 2) = true ∧ ({ run with phase := .off } : State).phase ≠ .running := by decide +kernel

theorem witness_Doorbells :
    let s := withQ 7183 { st := .active, bell := true } run
    let b : BellWrite := ⟨BitVec.ofNat 16 (7183 * 8 + 5), 1⟩
    b.off.toNat / 8 = 7183 ∧ qType 7183 ≠ 7 ∧ (getQueue s 7183).st ≠ .notCreated ∧ qType 5184 = 7 ∧ (getQueue s 0).st = .notCreated ∧
    (getQueue s 7183).bell = true ∧ (getQueue s 7183).st = .active ∧ (getQueue s 0).bell = false := by decide +kernel

theorem witness_Polling :
    let s := withQ 1 act run
    let r := withRead (.poll 1) s
    let u := returnReads (fun x => x = .poll 1) r
    let c := withRead (.poll 6144) (withQ 6144 act run)
    (getQueue s 1).st = .active ∧ (getQueue s 1).cfg.pollIvl ≠ 0 ∧ fetching s 1 = false ∧ asked s (.poll 1) = false ∧
    (getQueue run 1).st ≠ .active ∧ asked r (.poll 1) = true ∧ reading r (.poll 1) = true ∧ qType 1 < 3 ∧ (getQueue u 1).st = .active ∧
    (0 : BitVec 16).toNat = tagOf (getQueue u 1).cfg.log2 (getQueue u 1).f ∧
    gap (getQueue u 1).f (getQueue u 1).ci < ringSize (getQueue u 1).cfg ∧ reading c (.poll 6144) = true ∧ 3 ≤ qType 6144 := by
  decide +kernel

theorem witness_Indices :
    let s := withRead (.index 1) (withQ 1 { act with unreported := 1 } run)
    let u := returnFirst (.index 1) s
    let k := withRead (.index 1) (withQ 1 { act with pi := 3, f := 3 } run)
    let v := returnFirst (.index 1) k
    let c := withRead (.index 6144) (withQ 6144 act run)
    let w := returnFirst (.index 6144) c
    let e := returnFirst (.index 7168) (withRead (.index 7168) (withQ 7168 act run))
    let o := withWrite (.cpl 6144 {}) false (withQ 6144 { act with pi := 1, unreported := 1 } run)
    let n := withQ 6144 { act with pi := 1, unreported := 1 } run
    (s.fab.reads.any fun r => r.use = .index 1) = true ∧ (getQueue u 1).st = .active ∧ qType 1 < 3 ∧
    gap 16 (getQueue u 1).ci ≤ ringSize (getQueue u 1).cfg ∧ gap (firmF u 1) (getQueue u 1).ci ≤ gap 16 (getQueue u 1).ci ∧
    ringSize (getQueue u 1).cfg < gap 17 (getQueue u 1).ci ∧ gap 2 (getQueue v 1).ci < gap (firmF v 1) (getQueue v 1).ci ∧
    (c.fab.reads.any fun r => r.use = .index 6144) = true ∧ (getQueue w 6144).st = .active ∧ qType 6144 = 3 ∧
    ringSize (getQueue w 6144).cfg < gap (getQueue w 6144).pi 1 ∧ gap (getQueue w 6144).pi 0 ≤ ringSize (getQueue w 6144).cfg ∧
    3 < qType 7168 ∧ (getQueue e 7168).st = .active ∧ gap (getQueue e 7168).pi 0 ≤ ringSize (getQueue e 7168).cfg ∧
    (getQueue s 1).unreported ≠ 0 ∧ (getQueue n 6144).unreported ≠ 0 ∧ (getQueue n 6144).idxAt = none ∧ ringBack n 6144 = 0 ∧
    (getQueue o 6144).idxAt = none ∧ ringBack o 6144 ≠ 0 := by decide +kernel

/-- Two entries of queue 1 are on their way, read together. -/
def coming (pi : Word) : State := withRead (.txDesc 1 [0]) (withTx { q := 1, idx := 0 } (withQ 1 { act with pi := pi } run))

theorem witness_SequenceTags :
    let a := fun pi => withRead (.adminDesc 5120 [0]) ((withQ 5120 { act with pi := pi } run).modHif fun h =>
      { h with adm := [{ q := 5120, idx := 0 }] })
    let r := withQ 1 { act with pi := 1, tagRetry := some 0 } run
    let b := withRead (entryUse 1 [0]) r
    let u := modQueue 1 (fun Q => { Q with tagRetry := none }) (takeEntry 1 0 b)
    nextEntry (coming 1) 1 = some 0 ∧ dTag [0] = tagOf (getQueue (coming 1) 1).cfg.log2 0 ∧
    dTag [1] ≠ tagOf (getQueue (coming 1) 1).cfg.log2 0 ∧ beforePi (getQueue (coming 1) 1) 0 = true ∧
    nextEntry (coming 0) 1 = some 0 ∧ beforePi (getQueue (coming 0) 1) 0 = false ∧
    nextEntry (a 1) 5120 = some 0 ∧ dTag [0] = tagOf (getQueue (a 1) 5120).cfg.log2 0 ∧ beforePi (getQueue (a 1) 5120) 0 = true ∧
    nextEntry (a 0) 5120 = some 0 ∧ beforePi (getQueue (a 0) 5120) 0 = false ∧
    (getQueue r 1).tagRetry = some 0 ∧ (readsOf r fun u => u = entryUse 1 [0]) = [] ∧ reading b (entryUse 1 [0]) = true ∧
    dTag [0] = tagOf (getQueue u 1).cfg.log2 0 ∧ dTag [1] ≠ tagOf (getQueue u 1).cfg.log2 0 := by decide +kernel

theorem witness_RoundRobins :
    let s := withQ 5120 { act with pi := 1 } run
    let t := withQ 4095 { act with pi := 1 } run
    adminFirst s = true ∧ nextQueue s 5120 5184 s.hif.admPtr = some 5120 ∧ adminFirst t = false ∧
    nextQueue t 0 4096 t.hif.txPtr = some 4095 := by decide +kernel

theorem witness_TransmitPath_segmentList :
    let l := withRead (.segList 1 0) (withTx { q := 1, idx := 0, stage := .listRead, ws := [0x10000] } run)
    reading l (.segList 1 0) = true ∧ (findTx l 1 0).map (fun t => txNseg t.ws) = some 1 ∧
    bitsOf (wAt [0, 0, 1] 2) 0 16 ≠ 0 ∧ bitsOf (wAt [0, 0xFFFFF, 1] 1) 20 12 = 0 ∧ bitsOf (wAt [0, 0, 0x10000] 2) 0 16 = 0 := by
  decide +kernel

theorem witness_TransmitPath_cells :
    let c := (withTx { q := 1, idx := 0, stage := .cells, len := 60 } (modPort 0 (fun _ => on) run)).modHif fun h =>
      { h with cellWait := [(1, 0)] }
    let n := withTx { q := 1, idx := 0, stage := .launch } run
    let o := withTx { q := 1, idx := 0, stage := .waitOrder } run
    cellTaker c = some (1, 0) ∧ (findTx c 1 0).isSome = true ∧ dsTake c 0 (cellsOf (txFrameLen { q := 1, idx := 0, len := 60 })) = some 0 ∧
    cellTaker run = none ∧ cellTaker c ≠ some (1, 1) ∧
    (findTx n 1 0).map (fun t => (t.stage, t.launched, t.stage.over)) = some (.launch, false, false) ∧
    (findTx o 1 0).map (fun t => (t.launched, t.stage, t.stage.over)) = some (false, .waitOrder, false) := by decide +kernel

theorem witness_TransmitPath_payload :
    let p := withTx { q := 1, idx := 0, stage := .reading, len := 1 } run
    let k := withTx { q := 1, idx := 0, stage := .reading, len := 1, ws := [0x1000000] } run
    (findTx p 1 0).map (fun t => (t.stage, t.len, txPoly t.ws)) = some (.reading, [(0 : Byte)].length, 0) ∧
    (findTx k 1 0).map (fun t => (t.stage, t.len, txPoly t.ws)) = some (.reading, [(0 : Byte)].length, 1) ∧
    checkValue 1 [0] ≠ txExpect [0x1000000] := by decide +kernel

/-! Witnesses: frames, the fabric and the caddie. -/

theorem witness_DispatchAndClassify :
    let h := run.modCls fun c => { c with hold := some (5120, 0) }
    let s := withUs frame run
    let d := modPort 3 (fun P => { P with dsDisp := [(1, 0)] }) (withTx { q := 1, idx := 0, stage := .classify, port := 3 } run)
    let e := withUs { frame with stage := .engine } run
    let k := modPort 3 (fun P => { P with dsDisp := [(1, 0)] }) (withTx { q := 1, idx := 0, stage := .engine, port := 3 } run)
    h.cls.hold.isSome = true ∧ s.cls.hold = none ∧ engineUse s < 1280 ∧ rrNext s.cls.rrUs (usWaiting s) = some 3 ∧
    s.tpt.us.find? (fun u => u.port = 3 && u.stage = .dispatch) = some frame ∧
    d.cls.hold = none ∧ engineUse d < 1280 ∧ (∀ n < 64, usWaiting d n = false) ∧
    rrNext d.cls.rrDs (fun n => (dsWaitHead d n).isSome) = some 3 ∧ (dsWaitHead d 3).isSome = true ∧
    e.tpt.us.find? (fun u => u.port = 3 && (u.stage = .dispatch || u.stage = .engine)) = some { frame with stage := .engine } ∧
    (getPort k 3).dsDisp.head? = some (1, 0) ∧ (findTx k 1 0).map (fun t => t.stage) = some .engine := by decide +kernel

theorem witness_Handoff :
    let c : DsItem := { tree := 3, prio := 0, src := none, bytes := [], term := 0 }
    let d := { c with src := some (1, (0 : Word)) }
    let awake := modDom 3 (fun _ => { depth := 0 }) (modPort 3 (fun _ => on) run)
    let s := awake.modTpt fun t => { t with dsq := [c] }
    let x := withTx { q := 1, idx := 0, stage := .queued, ws := [0, 0, 7] } (awake.modTpt fun t => { t with dsq := [d] })
    let r := modSlot 5 (fun _ => { st := .clean, flow := 7 }) (modFlow 7 (fun _ => { live := true, slot := some 5 }) x)
    let u := modPort 3 (fun P => { P with xfer := some { item := d, nonce := 0, keyIdx := 0, clear := false, stamp := 0 } }) r
    treeOn s 3 = some 3 ∧ handable s 3 3 = true ∧ nextDown s 3 = some c ∧ c.src = none ∧
    treeOn r 3 = some 3 ∧ handable r 3 3 = true ∧ nextDown r 3 = some d ∧ d.src = some (1, 0) ∧ (findTx r 1 0).isSome = true ∧
    slotOfFlow r (txFlow [0, 0, 7]) = some 5 ∧ (findTx u 1 0).isSome = true ∧ nextDown x 3 = some d ∧
    slotOfFlow x (txFlow [0, 0, 7]) = none ∧ (findTx x 1 0).isSome = true ∧ treeOn awake 3 = some 3 ∧ nextDown awake 3 = none ∧
    (0 : Fin 3) ≠ 2 ∧ (getFlow r (txFlow [0, 0, 7])).slot = some 5 ∧ (getSlot r 5).ctx.clear = false ∧
    (getSlot r 5).ctx.nonce + 1 < nonceEnd - 1048575 := by decide +kernel

theorem witness_DownstreamFrameEnd :
    let c : DsItem := { tree := 3, prio := 0, src := none, bytes := [], term := 0 }
    let x : Xfer := { item := c, nonce := 0, keyIdx := 0, clear := true, stamp := 0 }
    let s := modPort 3 (fun _ => { on with xfer := some x }) run
    let y := { x with item := { c with src := some (1, (0 : Word)) }, truncated := true }
    let t := fun w => modPort 3 (fun _ => { on with xfer := some y }) (withTx { q := 1, idx := 0, stage := .transfer, tsWait := w } run)
    let out := cutBytes [] 0
    let n := fun w => stat 3 12 1 (perf (256 + 4 * 3) (out.length - min beatBytes 0)
      (modPort 3 (fun P => { P with xfer := none, lastOut := out }) (t w)))
    (getPort s 3).xfer = some x ∧ x.item.src = none ∧ (getPort (t false) 3).xfer = some y ∧ y.item.src = some (1, 0) ∧
    (findTx (n false) 1 0).map (fun t => t.tsWait) = some false ∧ (findTx (n true) 1 0).map (fun t => t.tsWait) = some true ∧
    (getPort run 3).xfer = none ∧ 68 ≤ (List.replicate 68 (0 : Byte)).length ∧ 64 ≤ 64 ∧
    64 ≤ (List.replicate 68 (0 : Byte)).length - 4 := by decide +kernel

theorem witness_CompletionRings :
    let s := withQ 6144 { act with ready := [{}] } run
    let f := withQ 6144 { act with ready := [{}], pi := 16, pend := List.replicate 31 {} } run
    (getQueue s 6144).st = .active ∧ hasSpace (getQueue s 6144) = true ∧ (getQueue s 6144).pend = [] ∧
    (getQueue s 6144).ready = [{}] ∧ hasSpace (getQueue f 6144) = false ∧ (getQueue f 6144).ready = [{}] ∧
    (getQueue f 6144).st = .active ∧ (getQueue f 6144).pend ≠ [] ∧ asked f (.index 6144) = false := by decide +kernel

theorem witness_InterruptMessages :
    let s := modVec 63 (fun _ => { unacked := true, due := true, timer := true, count := 1 }) run
    let t := modVec 63 (fun _ => { unacked := true }) run
    (getVec s 63).unacked = true ∧ (getVec s 63).due = true ∧ (getVec t 63).unacked = true ∧ (getVec t 63).due = false ∧
    (getVec s 63).timer = true ∧ 0 < (getVec s 63).count ∧ (getVec t 63).timer = false ∧ (getVec run 63).unacked = false := by
  decide +kernel

theorem witness_ReportsTouchOnlyTheirPath_tokens :
    pbRate (pbEntry run 0x110) ≠ 0 ∧ pbRate (pbEntry run 0x113) = 0 ∧ (takeToken 0x110 run).isSome = true := by decide +kernel

theorem witness_ReportsTouchOnlyTheirPath : qType 7184 ≠ 4 := by decide +kernel

theorem witness_WriteAcknowledge :
    let f := fun u => ((withWrite u false run).fab.writes.find? fun w => w.id = 0).map fun w => w.use
    f (.index 1) = some (.index 1) ∧ f (.cpl 6144 {}) = some (.cpl 6144 {}) ∧ f (.event 7168 1) = some (.event 7168 1) ∧
    f (.rxData 1) = some (.rxData 1) ∧ f (.ftable 1) = some (.ftable 1) ∧ run.phase = .running ∧
    (run.fab.writes.find? fun w => w.id = 0) = none := by decide +kernel

/-- A page operation of flow 7 in slot 5, its request with the cipher engine under tag 0. -/
def paged (why : PageWhy) (ph : PagePh) (s : State) : State :=
  modFlow 7 (fun _ => { live := true, slot := some 5 }) (modSlot 5 (fun _ => { st := .evicting, flow := 7 })
    (s.modPgr fun p => { p with ready := true, ops := [{ flow := 7, slot := 5, why := why, ph := ph,
                                                         req := some { tag := 0, decrypt := false, key := 0, tweak := 0, unit := [] } }] }))

theorem witness_FabricFailures :
    let p := withRead (.payload 1 0) run
    let l := withRead (.segList 1 0) run
    let e := withRead (.flowEntry 7) run
    let w := fun r => withWrite (.cpl 6144 {}) r run
    let b : ReadBack := ⟨0, []⟩
    (p.fab.reads.find? fun r => r.id = 0).map (fun r => r.use) = some (.payload 1 0) ∧
    (l.fab.reads.find? fun r => r.id = 0).map (fun r => r.use) = some (.segList 1 0) ∧
    ((w false).fab.writes.find? fun w => w.id = 0).map (fun w => (w.use, w.retried)) = some (.cpl 6144 {}, false) ∧
    ((w true).fab.writes.find? fun w => w.id = 0).map (fun w => (w.use, w.retried)) = some (.cpl 6144 {}, true) ∧
    (p.fab.reads.find? fun r => r.id = b.id && r.use.plain) = none ∧
    (e.fab.reads.find? fun r => r.id = b.id && r.use.plain).isSome = true := by decide +kernel

theorem witness_FabricFailures_cipher : run.phase = .running ∧ (cipherOp (paged .pageOut .encrypt run) 7).isSome = true ∧
    cipherOp run 7 = none := by decide +kernel

theorem witness_CaddieEnableAndTimers_enable :
    let z := storeFields 0x60000 1 (setReg 0x6000C 1 run)
    let s := run.modPgr fun p => { p with starting := true }
    let r := withRead (.restore false) s
    let w := withWrite .clearTable false s
    let u := enableRestore [] (tableRead r)
    let v := enableRestore [] (tableRead (r.modPgr fun p => { p with repair := [(7, 2)] }))
    refusal run 0x60000 4 0xFFFFFFFC = none ∧ refusal (setReg 0x60000 0 run) 0x60000 4 1 = none ∧ bitOf (1 : Word) 0 = true ∧
    bitOf (2 : Word) 0 = false ∧ run.pgr.enabled = false ∧ bitsOf (reg (storeFields 0x60000 1 run) 0x6000C) 0 12 = 0 ∧
    bitsOf (reg z 0x6000C) 0 12 ≠ 0 ∧ s.pgr.starting = true ∧ readsOf s RdUse.enables = [] ∧ readsOf r RdUse.enables ≠ [] ∧
    u.pgr.starting = true ∧ writing u WrUse.enables = false ∧ v.pgr.starting = true ∧
    (w.fab.writes.find? fun w => w.use.enables).isSome = true ∧ readsOf w RdUse.enables = [] ∧ run.pgr.starting = false := by
  decide +kernel

theorem witness_CaddieEnableAndTimers_timers :
    let f := (modFlow 7 (fun _ => { live := true }) run).modPgr fun p =>
      { p with ready := true, sched := [{ flow := 7, tree := 3, cycle := 0, a0 := 0, a1 := 0 }] }
    let g := modFlow 7 (fun x => { x with slot := some 5 }) f
    let h := modFlow 7 (fun _ => { hFault := true, pinned := true }) run
    (f.pgr.sched.find? fun x => x.flow = 7).isSome = true ∧ flowLive f 7 = true ∧ heldBoth f 7 = false ∧
    (getFlow f 7).slot = none ∧ (f.pgr.rank1.any fun e => e.1 = 7) = false ∧ flowLive (modFlow 7 (fun _ => {}) f) 7 = false ∧
    (getFlow g 7).slot ≠ none ∧ flowLive g 7 = true ∧ heldBoth g 7 = false ∧ (getFlow (paged .pageOut .write run) 7).slot = some 5 ∧
    (getFlow (modFlow 7 (fun _ => { hFault := true }) run) 7).hFault = true ∧
    (getFlow (modFlow 7 (fun _ => { hFault := true }) run) 7).pinned = false ∧
    (getFlow (modFlow 7 (fun x => { x with hFault := false }) h) 7).pinned = true ∧
    heldBoth (modFlow 7 (fun x => { x with hFault := false }) h) 7 = false ∧
    (getFlow (modFlow 7 (fun x => { x with hFault := false }) h) 7).slot = none ∧
    freeTarget run ≤ freeSlots run + cleanVictims run := by decide +kernel

/-- A page of flow 7 whose check value is right (R189). -/
def goodPage : List Word := [7] ++ List.replicate 30 0 ++ [0x9E92CE28]

theorem witness_PageIns :
    let turn := fun s : State => if (s.pgr.rank1.isEmpty && !rank3Turn s.pgr) = true then dropExpired s else s
    let s := (modFlow 7 (fun _ => { live := true }) run).modPgr fun p => { p with ready := true, rank1 := [(7, 0)] }
    let t := (modFlow 7 (fun _ => { live := true }) run).modPgr fun p =>
      { p with ready := true, rank2 := [{ flow := 7, tree := 3, cycle := 0, a0 := 1000000, a1 := 2000000 }] }
    let r := withRead (.page 7) (paged (.pageIn 1) .read run)
    let d := paged (.pageIn 1) .decrypt run
    let w := paged (.pageIn 1) .retryWait run
    let page := List.replicate 32 (0 : Word)
    nextPageIn (turn run).pgr = none ∧ (nextPageIn (turn s).pgr).map (fun n => (n.1, n.2.1)) = some (1, 7) ∧
    pageable (turn s) 7 1 = true ∧ (getFlow (turn s) 7).slot = none ∧ (findSlot (turn s)).2 = some 0 ∧
    (nextPageIn (turn t).pgr).map (fun n => (n.1, n.2.1)) = some (2, 7) ∧ pageable (turn t) 7 2 = true ∧
    (getFlow (turn t) 7).slot = none ∧ (findSlot (turn t)).2 = some 0 ∧
    page.length = 32 ∧ (opOf r 7).map (fun o => o.ph) = some .read ∧ reading r (.page 7) = true ∧
    (cipherOp d 7).map (fun o => o.ph) = some .decrypt ∧ pageCheck 7 page ≠ 0 ∧ pageCheck 7 goodPage = 0 ∧
    (opOf w 7).map (fun o => (o.ph, o.why)) = some (.retryWait, .pageIn 1) ∧
    (opOf (paged .pageOut .retryWait run) 7).map (fun o => (o.ph, o.why)) = some (.retryWait, .pageOut) := by decide +kernel

/-- A cache whose first `n` slots are DIRTY. -/
def full (n : Nat) : State :=
  setReg 0x60004 0x2000 (run.modPgr fun p => { p with slots := List.replicate n (0, { st := .dirty }) })

theorem full_free (n : Nat) : freeSlots (full n) + cleanVictims (full n) = 49152 - n := by
  have e : (full n).pgr.slots = List.replicate n (0, { st := .dirty }) := rfl
  rw [freeSlots, cleanVictims, e]
  simp [cacheSlots]

theorem full_clean (n : Nat) (h : n ≠ 0) : cleanable (full n) = some 0 := by
  have e : (full n).pgr.slots = List.replicate n (0, { st := .dirty }) := rfl
  have g : getFlow (full n) 0 = {} := rfl
  rw [cleanable, e]
  simp [evictable, g, h]

theorem witness_PageOuts :
    let o := paged .pageOut .encrypt run
    let w := fun why => withWrite (.page 7) false (paged why .write run)
    freeSlots (full 49152) + cleanVictims (full 49152) < freeTarget (full 49152) ∧ cleanable (full 49152) = some 0 ∧
    freeTarget run ≤ freeSlots run + cleanVictims run ∧
    (cipherOp o 7).map (fun o => (o.ph, o.why)) = some (.encrypt, .pageOut) ∧ writing (w .pageOut) (fun u => u = .page 7) = true ∧
    (opOf (w .pageOut) 7).map (fun o => (o.ph, o.why, o.slot)) = some (.write, .pageOut, 5) ∧
    (getSlot (w .pageOut) 5).changed = false ∧ (getSlot (w .pageOut) 5).victim = false ∧
    writing (w (.destroy 5120 0 0)) (fun u => u = .page 7) = true ∧
    (opOf (w (.destroy 5120 0 0)) 7).map (fun o => (o.ph, o.why)) = some (.write, .destroy 5120 0 0) ∧
    (opOf (w (.create 5120 0)) 7).map (fun o => (o.ph, o.why)) = some (.write, .create 5120 0) ∧
    writing run (fun u => u = .page 7) = false := by
  refine ⟨?_, full_clean _ (by decide), ?_⟩
  · rw [full_free]
    decide +kernel
  · decide +kernel

/-! Witnesses: the receive path. -/

/-- A frame of 64 bytes as a framer presents it. -/
def presented : UsPresented :=
  { bytes := List.replicate 64 0, bad := false, first := false, stamp := 0, term := 511, alloc := 3, delimOfs := 0, fecCorr := 0,
    fecUncorr := 0, sub := 15, poison := 0 }

theorem witness_ReceiveBuffers :
    let s := withQ 5119 { act with pi := 16 } run
    let r := withRead (.rxDesc 5119 [0]) (withQ 5119 act run)
    let d := withQ 5119 { act with st := .draining, pi := 2 } run
    (getQueue s 5119).st = .active ∧ (getQueue s 5119).cache.length + (bufsComing s 5119).length ≤ 16 ∧
    (getQueue s 5119).tagRetry = none ∧ tagsUsed s < 1024 ∧ entryThere (getQueue s 5119) = true ∧
    nextEntry r 5119 = some 0 ∧ dTag [0] = tagOf (getQueue r 5119).cfg.log2 0 ∧
    rxBufOk [0, 0, 63] = false ∧ rxBufOk [0, 0, 64] = true ∧ (getQueue (copied 5119 0 s) 5119).st ≠ .draining ∧
    (getQueue (copied 5119 0 d) 5119).st = .draining := by decide +kernel

theorem witness_UpstreamArrival :
    let lost := modPort 3 (fun _ => { on with clockLost := true }) run
    let reset := modPort 3 (fun _ => { on with reset := some { restart := true, cmd := none } }) run
    let held := modPort 3 (fun _ => { on with held := true }) run
    let asleep := modPort 3 (fun _ => on) run
    let s := modDom 3 (fun _ => { depth := 0 }) asleep
    let away := modProt 3 (fun _ => { home := some 5 }) s
    let waits := modProt 9 (fun p => { p with phase := 1 }) (setReg (0x10070 + 9 * 0x400) 0xD away)
    let counted := fun s => stat 3 42 0 (stat 3 41 0 (perf 271 1 (perf 270 64 s)))
    portState (getPort lost 3) = 3 ∧ portState (getPort reset 3) = 2 ∧ portState (getPort run 3) = 0 ∧
    portState (getPort held 3) = 4 ∧ usTree (counted held) 3 = some 3 ∧ portState (getPort asleep 3) = 1 ∧
    2 ≤ (getDom (counted asleep) 3).depth ∧ usTree (counted asleep) 3 = some 3 ∧
    marking (counted run) true = false ∧ usTree (counted s) 3 = some 3 ∧ (getDom (counted s) 3).depth < 2 ∧
    usTree (counted away) 3 = none ∧ rebindTree (counted away) 3 = none ∧ rebindTree (counted waits) 3 = some 9 ∧
    portState (getPort waits 3) = 1 ∧ usTree (counted waits) 3 = none ∧
    usTake (counted s) 3 (cellsOf (min 64 (bitsOf (reg s (0x10010 + 3 * 0x400)) 0 14))) = some 0 ∧
    usTake (modPort 3 (fun P => { P with usCells := 4096 }) s) 3 1 = none := by decide +kernel

theorem witness_ReceiveDelivery :
    let u := { frame with stage := .buffers, kept := [0] }
    let s := withQ 4096 { act with cache := [⟨0, 0⟩] } (withUs u run)
    let n := withQ 4096 act (withUs u run)
    let l := withUs { u with stage := .link } run
    let g := modCPort 3 (fun _ => { up with cur := some { body := .cap [], us := some 0 } }) l
    let far := withUs { u with stage := .link, link := some (3, 5) } run
    findUs s 0 = some u ∧ u.stage = .buffers ∧ aheadAt6 s u = false ∧ (getQueue s 4096).st ≠ .notCreated ∧
    (getQueue s (getQueue s 4096).cfg.cq).episode = false ∧ bufsNeeded s u.ring u.kept.length ≤ (getQueue s 4096).cache.length ∧
    (getQueue n 4096).cache.length < bufsNeeded n u.ring u.kept.length ∧ findUs n 0 = some u ∧ u.link = none ∧ u.err = false ∧
    (findUs (withUs { u with err := true } run) 0).map (fun u => (u.link, u.err)) = some (none, true) ∧
    (findUs far 0).map (fun u => u.link) = some (some (3, 5)) ∧ leaving far 0 = false ∧
    (findUs g 0).map (fun u => u.stage) = some .link ∧ leaving g 0 = true := by
  decide +kernel

/-! Witnesses: cycles, grants and ranging. -/

theorem witness_CyclePulses :
    let s := modPort 3 (fun _ => on) run
    let again := modPort 3 (fun _ => { on with sPulse := some 0, cycLost := true }) run
    let near := modPort 3 (fun _ => { on with sPulse := some (15 - cycle16 - 32000) }) run
    let far := modPort 3 (fun _ => { on with sPulse := some (15 - cycle16 - 32001) }) run
    let u := modPort 3 (fun P => { P with sPulse := some (now16 near + 15), cycLost := false }) near
    let v := modPort 3 (fun P => { P with sPulse := some (now16 far + 15), cycLost := false }) far
    hears (getPort s 3) = true ∧ (getPort s 3).sPulse = none ∧ treeOn s 3 = some 3 ∧ hears (getPort again 3) = true ∧
    (getPort again 3).cycLost = true ∧ treeOn again 3 = some 3 ∧ hears (getPort near 3) = true ∧
    (getPort near 3).sPulse = some (15 - cycle16 - 32000) ∧ (getPort near 3).cycLost = false ∧
    (now16 near + 15 - ((15 - cycle16 - 32000) + cycle16)).natAbs ≤ 32000 ∧ treeOn u 3 = some 3 ∧
    32000 < (now16 far + 15 - ((15 - cycle16 - 32001) + cycle16)).natAbs ∧
    treeOn (raise 0x211 (wordOf 3) (wordOfInt ((now16 far + 15 - ((15 - cycle16 - 32001) + cycle16)) / 16)) v) 3 = some 3 ∧
    hears (getPort run 3) = false ∧ reads (getPort s 3) = true ∧ reads (getPort run 3) = false ∧ (getPort s 3).cycLost = false := by
  decide +kernel

/-- A curve image of a straight line: 64 bytes of backlog for each 4 bytes. -/
def line : List Word := [0, 0, 0, 0] ++ (List.range 16).flatMap fun i => [wordOf (64 * (i + 1)), wordOf (4 * (i + 1))]

theorem witness_CurveMapsBacklog :
    curveOk line = true ∧ 1024 ≤ 1024 ∧ (((0, 0) :: curvePts line).getD 16 (0, 0)).1 = 1024 ∧
    1023 < (((0, 0) :: curvePts line).getD 16 (0, 0)).1 ∧ (∀ j < 16, (((0, 0) :: curvePts line).getD j (0, 0)).1 ≤ 1023) ∧
    0 < (((0, 0) :: curvePts line).getD 1 (0, 0)).1 := by decide +kernel

/-- Tree 3 on its own port, counting cycles. -/
def tree (g : GTree) : State := modGTree 3 (fun _ => g) (modPort 3 (fun _ => { on with consts := some consts }) run)

theorem witness_GrantCycle :
    let s := tree { counting := true }
    let c : Comp := { cycle := 1 }
    let e : GEntry := { term := 0, alloc := 0, kind := .window, start := 0, len := 1 }
    let k := { c with entries := [e] }
    let p := tree { counting := true, comp := some c }
    let w := tree { counting := true, comp := some c, published := true }
    let b := tree { counting := true, standby := some c }
    let r := modPort 3 (fun P => { P with reset := some { restart := true, cmd := none } }) s
    let h := modPort 3 (fun P => { P with held := true }) s
    canGrant s 3 = true ∧ (getGTree s 3).comp = none ∧ (getGTree s 3).published = false ∧ (getGTree s 3).committed = false ∧
    (compute s 3 (((getGTree s 3).cycle + 1) % 4294967296)).2 = 0 ∧ canGrant run 3 = false ∧
    (getGTree p 3).comp = some c ∧ (getGTree p 3).published = false ∧ (c.entries.find? fun e => e.kind = .window) = none ∧
    (k.entries.find? fun e => e.kind = .window) = some e ∧ (getGTree (tree { counting := true, comp := some k }) 3).comp = some k ∧
    (getGTree w 3).comp = some c ∧ (getGTree w 3).published = true ∧ (getGTree w 3).committed = false ∧
    (getGTree w 3).standby = none ∧ (getGTree b 3).standby = some c ∧ (getGTree b 3).committed = false ∧ (2 : Fin 3) ≠ 0 ∧
    (getPort r (homeOf r 3)).reset.isSome = true ∧ (getPort s (homeOf s 3)).reset = none ∧
    (getPort s (homeOf s 3)).enabled = true ∧ (getPort s (homeOf s 3)).cycLost = false ∧ canGrant h 3 = false ∧
    (getPort h (homeOf h 3)).reset = none ∧ (getPort h (homeOf h 3)).enabled = true := by decide +kernel

theorem witness_RangingJudgements :
    let x : Exp := { cycle := 0, term := 511, e := 0, base := 0, eqd := 0, rtt := some 0 }
    let e := modRTree 63 (fun _ => { exps := [x] }) run
    let f := modRec (63 * 512 + 511) (fun r => { r with miss := losMisses run - 1 }) e
    let g := modRec (63 * 512 + 511) (fun r => { r with flagged := true }) e
    let y : Slot := { cycle := 0, term := 511, lo := 0, hi := 1, base := 0, eqd := 0, burst := some (16777215, 0, 0) }
    let s := fun y => modRec (63 * 512 + 511) (fun r => { r with rangePend := true }) (modRTree 63 (fun _ => { slots := [y] }) run)
    let w := fun y => modRTree 63 (fun _ => { wins := [y] }) run
    earliest (getRTree e 63).exps = some x ∧ (getRec e 32767).flagged = false ∧ (getRec e 32767).miss < 15 ∧
    (getRec e 32767).miss + 1 ≠ losMisses e ∧ (getRec f 32767).miss + 1 = losMisses f ∧ (getRec f 32767).miss < 15 ∧
    (getRec g 32767).flagged = true ∧
    (getRTree (s y) 63).slots = [y] ∧ (getRec (s y) 32767).flagged = false ∧ (getRec (s y) 32767).rangePend = true ∧
    y.garbled = 0 ∧ 0 ≤ 16777215 - y.base - y.eqd ∧ 16777215 - y.base - y.eqd ≤ 16777215 ∧
    ({ y with burst := none } : Slot).burst = none ∧ (getRec (s { y with burst := none }) 32767).tries + 1 < rangeTries run ∧
    (getRec (modRTree 63 (fun _ => { slots := [y] }) run) 32767).rangePend = false ∧
    earliest (getRTree run 63).exps = none ∧ (getRTree run 63).slots = [] ∧ (getRTree run 63).wins = [] ∧
    (getRTree (w y) 63).wins = [y] ∧ 1 ≤ ({ y with garbled := 1 } : Slot).garbled := by decide +kernel
/-! Witnesses: the link. -/

/-- Lane 15 as given. -/
def lane (L : Lane) : State := modLane 15 (fun _ => L) run

/-- Cluster port 3 as given. -/
def cport (C : CPort) : State := modCPort 3 (fun _ => C) run

/-- The tail of a set of a type whose CRC is right. -/
def tail (type : Byte) (ps : List Byte) : SetTail :=
  { type := type, crc := BitVec.ofNat 16 (crc16 (type :: (List.range 12).map fun i => ps.getD i 0)), errors := 0 }

theorem witness_LaneTraining :
    let e := setReg 0x80004 0x8000 run
    let slow := lane { st := 2, symLock := true, tsSeen := 8, trained := true }
    let lock := lane { st := 3, symLock := true, lkSeen := 7 }
    laneOn run 15 = false ∧ (getLane run 15).resetting = false ∧ laneOn e 15 = true ∧
    (getLane (lane { resetting := true }) 15).resetting = true ∧ (getLane (lane { st := 1 }) 15).st = 1 ∧
    (getLane (lane { st := 4 }) 15).st = 4 ∧ (getLane (lane { st := 4 }) 15).sawBad = false ∧
    (getLane (lane { st := 4, sawBad := true }) 15).sawBad = true ∧ (getLane (lane { st := 4, sawBad := true }) 15).cap = [] ∧
    (getLane slow 15).st = 2 ∧ (getLane lock 15).st = 3 ∧ isSlow (getLane slow 15) = true ∧ (getLane slow 15).symLock = true ∧
    (getLane slow 15).req = 0 ∧ (getLane (lane { st := 2, req := 1 }) 15).req ≠ 0 ∧
    isSlow (getLane lock 15) = true ∧ (getLane lock 15).symLock = true ∧
    setOk [] ⟨0xB5, 0, 1⟩ = false ∧ setOk [] ⟨0xB5, 0, 0⟩ = false ∧ (0xC6 : Byte) ≠ 0xB5 ∧ setOk [1] (tail 0xB5 [1]) = true ∧
    setOk [0, 1] (tail 0xC6 [0, 1]) = true ∧
    8 ≤ (if psAt [0, 1] 1 % 2 = 1 then sat 8 ((getLane lock 15).lkSeen + 1) else 0) := by decide +kernel

theorem witness_LaneToActive :
    let x := lane { st := 4, symLock := true, markLeft := some 0 }
    let f := lane { st := 4, full := true }
    let a := modCPort 3 (fun _ => up) (lane { st := 5 })
    let good := lineBlock 0 { ctl := false, bytes := List.replicate 8 0 }
    isSlow (getLane x 15) = true ∧ (getLane x 15).symLock = true ∧ (getLane x 15).st = 4 ∧ psAt [0, 0x11] 1 = 0x11 ∧
    setOk [0, 0x11] (tail 0xD7 [0, 0x11]) = true ∧ setOk [0, 0x10] (tail 0xD7 [0, 0x10]) = true ∧
    psAt [0, 0x10] 1 ≠ 0x11 ∧ setOk [] (tail 0xE8 []) = true ∧ (getLane x 15).markLeft.isSome = true ∧ (getLane f 15).st = 4 ∧
    (getLane f 15).full = true ∧ (getLane a 15).st = 5 ∧ (getCPort a (lanePort 15)).rxAsleep = false ∧ 2 ≤ (getLane a 15).st ∧
    (getCPort a (lanePort 15)).up = true ∧ (readLine 0 [⟨0, 0⟩]).1 = some none ∧ badBlock none = true ∧
    (readLine 0 [good.1]).1.isSome = true ∧ (readLine 0 [good.1]).1.any (fun b => !badBlock b) = true ∧
    (getCPort (lane { st := 5 }) (lanePort 15)).up = false := by decide +kernel

theorem witness_PinStates_lines : ({ ctl := false, bytes := List.replicate 8 1 } : Block).bytes.length = 8 ∧
    7 ≤ (List.replicate 7 (0 : Byte)).length := by decide

theorem witness_LinkSending :
    let k : Msg := { body := .ack 0 false }
    let t : Msg := { body := .time 0 0 {} }
    let cap : Msg := { body := .cap [] }
    let d := cport { up with txq := [t, k] }
    let e := cport { up with txq := [t] }
    let n := cport { up with txq := [cap] }
    let r := cport { up with retx := [t], unacked := [t], accepted := 1 }
    let o := (cport { up with farClasses := 255, paused := [(3, 5)] }).modLnk fun l =>
      { l with out := [{ body := .migDone 0 0, cls := 7, dest := 5, hops := 1 }],
               routes := [(5, 0x80000038)] }
    (getCPort run 3).up = false ∧ (getCPort (cport { up with asleep := true }) 3).asleep = true ∧
    (getCPort d 3).up = true ∧ (getCPort d 3).asleep = false ∧ (getCPort d 3).cur = none ∧
    (getCPort (cport { up with cur := some t }) 3).cur = some t ∧
    (getCPort d 3).txq.find? (fun m => isUrgent m.body) = some k ∧
    (getCPort e 3).txq.find? (fun m => isUrgent m.body) = none ∧ (getCPort e 3).txq.find? (fun m => isTime m.body) = some t ∧
    (getCPort n 3).txq.find? (fun m => isUrgent m.body) = none ∧ (getCPort n 3).txq.find? (fun m => isTime m.body) = none ∧
    held (getCPort n 3) cap = false ∧ (getCPort n 3).retx = [] ∧ (getCPort n 3).txq = [cap] ∧ (getCPort n 3).unacked.length < 128 ∧
    held (getCPort r 3) t = false ∧ pickOut (purgeOut r) 3 = none ∧ (pickOut (purgeOut o) 3).isSome = true ∧
    (getCPort o 3).txq = [] ∧ (getCPort o 3).retx = [] ∧
    (getCPort r 3).up = true ∧ (getCPort r 3).cur = none ∧ (getCPort r 3).txq = [] ∧ (getCPort r 3).retx = [t] ∧
    (getCPort r 3).unacked = [t] ∧ (getCPort r 3).retxEp = false ∧ 0 < (getCPort r 3).accepted ∧
    (getCPort (cport { up with unacked := [t], retxEp := true }) 3).retxEp = true ∧ (getCPort e 3).accepted = 0 := by decide +kernel

/-- A header of a message from instance 2, for an instance, with hops left. -/
def hdr (dest hops : Nat) : MsgHdr := { cls := 7, hops := hops, dest := dest, origin := 2, seq := 0, len := 12 }

/-- The port after a message with a body of `len` bytes was counted and accepted. -/
def taken (len : Nat) : State :=
  modCPort 3 (fun C => { C with expect := (C.expect + 1) % 4294967296, accepted := C.accepted + 1 })
    (countRx 3 len (access 213 (cport up)))

theorem accepted (dest : Nat) : Accepted 3 (hdr dest 1) 12 (cport up) (taken 12) :=
  ⟨by decide +kernel, (by decide +kernel : bitOf (portCfg (cport up) 3) 7 = true), by decide +kernel,
    (by decide +kernel : seqGap 0 (getCPort (countRx 3 12 (access 213 (cport up))) 3).expect = 0), by decide +kernel, rfl⟩

theorem witness_LinkReceiving :
    let s := cport up
    let held : Stored := { id := 0, cls := 0, cells := 8191, msg := { body := .cap [] }, local_ := false }
    let f := cport { up with store := [held] }
    let w := f.modLnk fun l => { l with out := [{ body := .cap [], store := some (3, 0) }] }
    let u := countRx 3 44 (access 213 s)
    let crc := lstat 3 8 1 (cport { up with crcAt := some 0 })
    let bare := msgWire { body := .other 0 }
    (getCPort s 3).up = true ∧ bitOf (portCfg (setReg 0x8001C 0x7F s) 3) 7 = false ∧ bitOf (portCfg s 3) 7 = true ∧
    8192 < storeUsed (getCPort (countRx 3 76 (access 213 f)) 3) + cellsOf (36 + 60) ∧
    storeUsed (getCPort u 3) + cellsOf (36 + 28) ≤ 8192 ∧ (hdr 0 0).dest = ownInstance u ∧
    (hdr 1 0).dest ≠ ownInstance u ∧ (hdr 1 0).hops = 0 ∧ (hdr 1 1).hops ≠ 0 ∧
    (getCPort (lstat 3 8 1 s) 3).crcAt = none ∧ (getCPort crc 3).crcAt = some 0 ∧ crc.uptime < 0 + 1000000 ∧
    msgFault (msgWire { body := .ack 0 false }) = 0 ∧ msgFault (List.replicate 20 1) = 1 ∧ msgFault bare = 3 ∧
    msgFault ((bare.take 4 ++ List.replicate 9 0 ++ [1, 0, 0]) ++ wordBytes (wordOf (crc32 (bare.take 4 ++ List.replicate 9 0 ++ [1, 0, 0])))) = 2 ∧
    (getCPort w 3).store.find? (fun e => !e.local_ && w.lnk.out.any fun m => m.store = some (3, e.id)) = some held ∧
    (getCPort s 3).store.find? (fun e => !e.local_ && s.lnk.out.any fun m => m.store = some (3, e.id)) = none := by
  decide +kernel

theorem witness_LinkReceiving_accepted : Accepted 3 (hdr 0 1) 12 (cport up) (taken 12) := accepted 0

theorem witness_LinkPausesAndSleep :
    let x := setReg 0x8017C 0x10000 (cport { up with xoffs := [7], store := [⟨0, 7, 1, { body := .cap [] }, true⟩] })
    let i := setReg 0x8001C 0x100 (cport up)
    let z := cport { up with asleep := true, rxAsleep := true, txq := [{ body := .cap [] }] }
    let y := cport { up with asleep := true }
    let l := lane { st := 5, wakeLock := true }
    (getCPort x 3).up = true ∧ (getCPort run 3).up = false ∧ (getCPort x 3).xoffs.contains 7 = true ∧
    xonOf x 3 7 ≤ occupancy (getCPort x 3) 7 ∧
    (getCPort z 3).rxAsleep = true ∧ (getCPort y 3).rxAsleep = false ∧ (getCPort i 3).up = true ∧ (getCPort i 3).asleep = false ∧
    lpiIdle i 3 ≠ 0 ∧ hasWork i 3 = false ∧ (getCPort z 3).asleep = true ∧ hasWork z 3 = true ∧ (getCPort y 3).asleep = true ∧
    hasWork y 3 = false ∧ (getLane l 15).st = 5 ∧ (getLane l 15).wakeLock = true := by decide +kernel

theorem witness_TimeExchange :
    let m := fun x => setReg 0x8001C 0x50000 (cport { up with farRole := 2, exch := x })
    let v := fun x => setReg 0x8001C 0x20000 (cport { up with farRole := 1, exch := x })
    let at' := fun s => (getCPort (countRx 3 20 (access 213 s)) 3).exch
    (getCPort (m none) 3).up = true ∧ master (m none) 3 = true ∧ timeIvl (m none) 3 ≠ 0 ∧ (getCPort (m none) 3).exch = none ∧
    slave (v none) 3 = true ∧ slave (m none) 3 = false ∧ master (m (some ⟨2, 5, {}, {}, {}⟩)) 3 = true ∧
    at' (m (some ⟨2, 5, {}, {}, {}⟩)) = some ⟨2, 5, {}, {}, {}⟩ ∧
    slave (v (some ⟨3, 5, {}, {}, {}⟩)) 3 = true ∧ at' (v (some ⟨3, 5, {}, {}, {}⟩)) = some ⟨3, 5, {}, {}, {}⟩ ∧
    at' (v (some ⟨5, 5, {}, {}, {}⟩)) = some ⟨5, 5, {}, {}, {}⟩ ∧ (getCPort (v none) 3).resValid = false ∧
    (getCPort (cport { up with resValid := true }) 3).resValid = true ∧
    (getCPort (m (some ⟨2, 5, {}, {}, {}⟩)) 3).exch.isSome = true := by decide +kernel

/-! Witnesses: protection switching and migration. -/

/-- Port 3 enabled, its tree's protection of a kind, and its partner port 5 enabled without a tree. -/
def prot (cfg : Word) (r : Prot) : State :=
  setReg 0x10C70 cfg (modProt 3 (fun _ => r) (modProt 5 (fun _ => { home := some 9 }) (modPort 5 (fun _ => on) (modPort 3 (fun _ => on) run))))

/-- The indication of a pulse is noted. -/
def noted (s : State) : State := modPort 3 (fun P => { P with protSide := true, lastProt := some s.uptime }) s

/-- PROTECTION_REHOME is the reaction to EV_PROT_SWITCH. -/
def rehoming (s : State) : State := s.modErr fun e => { e with playbook := tset e.playbook (pbDefault 0x215) 0x215 0x700 }

theorem witness_Rehoming :
    let none' := modProt 3 (fun _ => { home := some 5 }) (modPort 3 (fun _ => on) run)
    let far := rehoming (prot 2 {})
    let near := rehoming (prot 0x15 {})
    let two := prot 0x15 { phase := 2, equalised := true, side := true, target := true }
    let one := prot 0x15 { phase := 1, target := true }
    let bad := modPort 5 (fun _ => {}) one
    let start := fun s => modProt 3 (fun r => { r with phase := 1, target := true, t0 := s.uptime, equalised := false })
      (reacted true (noted s))
    reads (getPort run 3) = false ∧ reads (getPort none' 3) = true ∧ pulseTree (noted none') 3 = none ∧ reads (getPort far 3) = true ∧
    pulseTree (noted far) 3 = some 3 ∧ (getProt (noted far) 3).phase = 0 ∧ pbReaction (pbEntry (noted (prot 2 {})) 0x215) ≠ 7 ∧
    pulseTree (noted (prot 2 {})) 3 = some 3 ∧
    pbReaction (pbEntry (noted far) 0x215) = 7 ∧ (getPort (noted far) (homeOf (noted far) 3)).held = false ∧
    (getPort (noted (modPort 3 (fun P => { P with held := true }) far)) 3).held = true ∧
    (getPort far 3).lastProt = none ∧ pulseStarts (reacted true (noted far)) 3 3 true false = true ∧ protKind (noted far) 3 = 2 ∧
    pulseStarts (reacted true (noted near)) 3 3 true false = true ∧ protKind (noted near) 3 = 1 ∧
    (getPort (noted near) (otherHome (start near) 3)).enabled = true ∧
    rehomeFault one 3 = none ∧ protKind one 3 = 1 ∧ rehomeFault bad 3 = some 0 ∧ (getProt one 3).phase = 1 ∧
    (getPort bad (otherHome bad 3)).good = false ∧ (getPort one (otherHome one 3)).good = true ∧
    (getProt one 3).target = !(getProt one 3).side ∧
    (getProt (prot 0x15 { phase := 1 }) 3).target ≠ !(getProt (prot 0x15 { phase := 1 }) 3).side ∧
    protKind (prot 0 { phase := 1 }) 3 ≠ 1 ∧ (getProt two 3).phase = 2 ∧ (getProt two 3).equalised = true ∧
    (getProt two 3).target = (getProt two 3).side ∧
    (getProt (prot 0x15 { phase := 2, equalised := true, target := true }) 3).target ≠ false := by decide +kernel

theorem witness_Migration :
    let o := withCmd 0x71 3 9 [] (modPort 3 (fun _ => on) run)
    let m : MigOut := { mid := 0, dest := 9, partner := 5, cmd := some (5120, 0), ended := true }
    let d := fun m => modProt 3 (fun _ => { phase := 3, mig := some m }) run
    let w := fun m => modProt 3 (fun _ => { phase := 4, mig := some m }) run
    let l := withRead (.migList 3) (w { m with count := 1 })
    let i := fun P => withCmd 0x72 3 9 [] (modPort 3 (fun _ => P) run)
    let n : MigIn := { origin := 9, mid := 4, begun := true }
    let a := (modPort 3 (fun _ => { armed := some (5120, 0) }) run).modTpt fun x => { x with migIn := tput x.migIn 3 (some n) }
    AtTurn o 0 0 0x71 (cmd 0x71 3 9 []) ∧ treeOn o 3 = some 3 ∧ portState (getPort o 3) = 1 ∧ portBusy o 3 = false ∧
    AtTurn (withCmd 0x71 3 9 [] run) 0 0 0x71 (cmd 0x71 3 9 []) ∧ portState (getPort (withCmd 0x71 3 9 [] run) 3) = 0 ∧
    (getProt (d m) 3).mig = some m ∧ (getProt (d m) 3).phase = 3 ∧ m.cmd.isSome = true ∧
    (getProt (d { m with cmd := none }) 3).mig = some { m with cmd := none } ∧
    (getProt (d { m with cmd := none }) 3).target = (getProt (d { m with cmd := none }) 3).side ∧
    bitsOf (reg (d m) (0x10080 + 3 * 0x400)) 0 15 = 0 ∧ bitsOf (reg (setReg 0x10C80 16384 (d m)) (0x10080 + 3 * 0x400)) 0 15 ≠ 0 ∧
    (getProt l 3).phase = 4 ∧ reading l (.migList 3) = true ∧ [((7 : Word), (0 : Word))].length = ({ m with count := 1 } : MigOut).count ∧
    (getProt (w m) 3).mig = some m ∧ (getProt (w m) 3).phase = 4 ∧ m.ended = true ∧ m.attempt = 0 ∧
    (getProt (w { m with attempt := 1 }) 3).mig = some { m with attempt := 1 } ∧
    AtTurn (i { good := true }) 0 0 0x72 (cmd 0x72 3 9 []) ∧ portState (getPort (i { good := true }) 3) = 0 ∧
    (getPort (i { good := true }) 3).good = true ∧ constsOk (i { good := true }) 3 consts = true ∧
    constsOk (i { good := true }) 3 { consts with cap := 0 } = false ∧ AtTurn (i {}) 0 0 0x72 (cmd 0x72 3 9 []) ∧
    (getPort (i {}) 3).good = false ∧ treeOn (i { good := true }) 3 = some 3 ∧
    migPort a 9 4 = some 3 ∧ (getRec a (3 * 512 + 511)).state = 0 ∧ (getRec a (3 * 512 + 511)).flagged = false ∧
    getMigIn a 3 = some n ∧ n.begun = true ∧ n.ended = false ∧ (getPort a 3).armed = some (5120, 0) ∧
    ({ n with begun := false } : MigIn).begun = false := by decide +kernel

theorem witness_Migration_messages :
    Accepted 3 (hdr 0 1) 12 (cport up) (taken 12) ∧ Accepted 3 (hdr 0 1) 68 (cport up) (taken 68) ∧
    Accepted 3 (hdr 0 1) 136 (cport up) (taken 136) ∧ Accepted 3 (hdr 0 1) 8 (cport up) (taken 8) ∧
    Accepted 3 (hdr 0 1) 4 (cport up) (taken 4) ∧ (hdr 0 1).dest = ownInstance (taken 136) ∧
    Accepted 3 (hdr 1 1) 12 (cport up) (taken 12) ∧ (hdr 1 1).dest ≠ ownInstance (taken 12) :=
  ⟨accepted 0, ⟨by decide +kernel, by decide +kernel, by decide +kernel, by decide +kernel, by decide +kernel, rfl⟩,
    ⟨by decide +kernel, by decide +kernel, by decide +kernel, by decide +kernel, by decide +kernel, rfl⟩,
    ⟨by decide +kernel, by decide +kernel, by decide +kernel, by decide +kernel, by decide +kernel, rfl⟩,
    ⟨by decide +kernel, by decide +kernel, by decide +kernel, by decide +kernel, by decide +kernel, rfl⟩, by decide +kernel,
    ⟨by decide +kernel, by decide +kernel, by decide +kernel, by decide +kernel, by decide +kernel, rfl⟩, by decide +kernel⟩
/-! Witnesses: the time island, the monitor, power and the stores. -/

theorem witness_TimeIsland :
    let st := run.modTim fun t => { t with stepped := true }
    let w := run.modTim fun t => { t with ns := 2000, whistles := tset [] {} 7 { mode := 1, width := 8, nextAt := 2000, fallAt := some 2000 } }
    let l := w.modTim fun t => { t with whistles := tset [] {} 7 { fallAt := some 2001 } }
    let set := fun d => withCmd 0x62 7 0 d run
    AtTurn (withCmd 0x60 0 0 [] run) 0 0 0x60 (cmd 0x60 0 0 []) ∧ run.tim.stepped = false ∧
    AtTurn (withCmd 0x60 0 0 [] st) 0 0 0x60 (cmd 0x60 0 0 []) ∧ (withCmd 0x60 0 0 [] st).tim.stepped = true ∧
    AtTurn (withCmd 0x61 0 0 [0x418937] run) 0 0 0x61 (cmd 0x61 0 0 [0x418937]) ∧ ({ run with phase := .off } : State).phase ≠ .running ∧
    AtTurn (set [0]) 0 0 0x62 (cmd 0x62 7 0 [0]) ∧ bitsOf (aData (cmd 0x62 7 0 [0]).ws 0) 0 2 = 0 ∧
    AtTurn (set [1, 0, 0, 1000]) 0 0 0x62 (cmd 0x62 7 0 [1, 0, 0, 1000]) ∧
    bitsOf (aData (cmd 0x62 7 0 [1, 0, 0, 1000]).ws 0) 0 2 = 1 ∧ soonest (set [1, 0, 0, 1000]) = 1000 ∧ 999 < soonest (set [1, 0, 0, 999]) ∧
    AtTurn (set [2, 0, 0, 999, 8]) 0 0 0x62 (cmd 0x62 7 0 [2, 0, 0, 999, 8]) ∧
    soonest (set [2, 0, 0, 999, 8]) ≤ nextPulse 999 8 (soonest (set [2, 0, 0, 999, 8])) ∧
    (getWhistle w 7).mode ≠ 0 ∧ (getWhistle w 7).nextAt ≤ nowAbs w ∧ (getWhistle w 7).fallAt = some 2000 ∧ 2000 ≤ nowAbs w ∧
    (getWhistle l 7).fallAt = some 2001 ∧ nowAbs l < 2001 ∧ 0 < 8 ∧ 999 ≤ 999 + 0 * 8 := by decide +kernel

theorem witness_PinStates :
    let w := run.modTim fun t => { t with ns := 2000, whistles := tset [] {} 7 { mode := 1, width := 8, nextAt := 2000, fallAt := some 2000 } }
    let e := setReg 0x80004 0x8000 (lane { resetting := true })
    let i := modLane 15 (fun _ => { st := 5 }) (setReg 0x8001C 0x100 (cport up))
    (State.reset.phase = .running) ∧ ({ run with phase := .quiesce } : State).phase ≠ .running ∧ (getLane run 15).st = 0 ∧
    (getWhistle w 7).mode ≠ 0 ∧ (getWhistle w 7).nextAt ≤ nowAbs w ∧ (getWhistle w 7).fallAt = some 2000 ∧ 2000 ≤ nowAbs w ∧
    (getLane e 15).resetting = true ∧ laneOn e 15 = true ∧ (getLane (lane { st := 1 }) 15).st = 1 ∧
    (getCPort (lane { st := 1 }) (lanePort 15)).asleep = false ∧ (3 : Nat) < 4 ∧ (getCPort i 3).up = true ∧
    (getCPort i 3).asleep = false ∧ lpiIdle i 3 ≠ 0 ∧ hasWork i 3 = false ∧ (getLane i (4 * 3 + 3)).st = 5 ∧
    (getLane i (4 * 3 + 3)).resetting = false := by decide +kernel

theorem witness_StampAndTraceRings :
    let t := run.modTim fun t => { t with tsqEn := true, tsqPi := 128 }
    let r := withRead .tsqCi t
    let u := returnReads (fun x => x = .tsqCi) r
    let m := run.modMon fun m => { m with trEn := true, trPi := 64 }
    let d := withRead .traceCi m
    let v := returnReads (fun x => x = .traceCi) d
    refusal run 0x70020 4 1 = none ∧ bitOf (1 : Word) 0 = true ∧ run.tim.tsqEn = false ∧ t.tim.tsqEn = true ∧
    refusal t 0x70020 4 1 = none ∧ refusal run 0xB0010 4 1 = some 3 ∧ refusal run 0xB0010 4 0x600 = none ∧
    (∀ i, (.data (9, 8) : Answer (Word × Word)) ≠ .data (i, i)) ∧ (∀ i, (.timeout : Answer (Word × Word)) ≠ .data (i, i)) ∧
    t.tim.tsqStopped = false ∧ gap t.tim.tsqPi t.tim.tsqCi = 128 ∧ asked t .tsqCi = false ∧ t.tim.tsqReadAt = none ∧
    reading r .tsqCi = true ∧ gap u.tim.tsqPi 0 ≤ 128 ∧ 128 < gap u.tim.tsqPi 129 ∧
    refusal run 0xB0010 4 0x601 = none ∧ bitOf (0x601 : Word) 0 = true ∧ run.mon.trEn = false ∧ m.mon.trEn = true ∧
    m.mon.trStopped = false ∧ gap m.mon.trPi m.mon.trCi = 2 ^ traceSize m ∧ asked m .traceCi = false ∧
    m.mon.trReadAt = none ∧ reading d .traceCi = true ∧ v.mon.trEn = true ∧ v.mon.trStopped = false ∧
    gap v.mon.trPi 0 ≤ 2 ^ traceSize v ∧ 2 ^ traceSize v < gap v.mon.trPi 65 := by
  refine ⟨by decide +kernel, by decide +kernel, by decide +kernel, by decide +kernel, by decide +kernel, by decide +kernel,
    by decide +kernel, ?_, nofun, by decide +kernel⟩
  rintro i ⟨⟩

theorem witness_Monitor :
    let s := fun p => withCmd 0x50 0 p [] run
    let f : Freeze := { t := 0, number := 1, origin := 0, cluster := false, cmd := some (5120, 0) }
    let g : Freeze := { f with cmd := none }
    let b := (s 0).modMon fun m => { m with freezes := [f] }
    let e := (s 0).modMon fun m => { m with freezes := List.replicate 8 g }
    let p := fun f n => (run.modMon fun m => { m with freezes := [f] }).modTim fun t => { t with ns := n }
    let i := run.modMon fun m => { m with image := some { fz := f, late := false, lateNs := 0, ctrs := [], slot := none, base := 0 } }
    6 < bitsOf (7 : Word) 0 3 ∧ bitsOf (6 : Word) 0 3 ≤ 6 ∧ reg (storeFields 0xB0030 6 run) 0xB0030 ≠ reg run 0xB0030 ∧
    reg (storeFields 0xB0030 3 run) 0xB0030 = reg run 0xB0030 ∧ (1 : Word) ≠ 0 ∧ AtTurn (s 0) 0 0 0x50 (cmd 0x50 0 0 []) ∧
    snapBusy (s 0) = false ∧ (s 0).mon.freezes.length < 8 ∧ aParam (cmd 0x50 0 0 []).ws = 0 ∧
    AtTurn (s 1) 0 0 0x50 (cmd 0x50 0 1 []) ∧ aParam (cmd 0x50 0 1 []).ws = 1 ∧ snapBusy (s 1) = false ∧
    AtTurn b 0 0 0x50 (cmd 0x50 0 0 []) ∧ snapBusy b = true ∧ AtTurn e 0 0 0x50 (cmd 0x50 0 0 []) ∧ snapBusy e = false ∧
    8 ≤ e.mon.freezes.length ∧ (p f 2).mon.freezes = [f] ∧ (p f 2).mon.image = none ∧ f.t ≤ nowQuarter (p f 2) ∧
    nowQuarter (p f 2) ≤ f.t + 8 ∧ f.cmd.isSome = true ∧ g.t + 8 < nowQuarter (p g 3) ∧ g.cmd = none ∧
    i.mon.image.isSome = true := by decide +kernel

theorem witness_PowerDomains :
    let c := fun cap => setReg 0x9010C cap (setReg 0x90000 0x6401 run)
    let s := fun cap k => modDom 3 (fun _ => { depth := k }) (modPort 3 (fun _ => on) (c cap))
    let x := modPort 3 (fun P => { P with reset := some { restart := true, cmd := none } }) (s 0xF 0)
    let o := modRTree 3 (fun _ => { spans := [(0, 5)] }) (s 0xF 0)
    let e := fun k due => modDom 3 (fun _ => { depth := 0, entering := some k, wakeDue := due }) (s 0xF 0)
    let w := fun d k => modDom d (fun _ => { depth := k, waking := true }) (s 0xF 0)
    sleepOn (s 0xF 0) = true ∧ domUsed (s 0xF 0) 3 = true ∧ (getDom (s 0xF 0) 3).waking = false ∧ (getDom (s 0xF 0) 3).entering = none ∧
    domWork x 3 = true ∧ spanOpen o 3 (now16 o) = true ∧ spanOpen (s 0xF 0) 3 15 = false ∧ domWork (s 0xF 0) 3 = false ∧
    nextEvent (s 0xF 0) 3 15 = none ∧ chooseDepth (s 0xF 0) 3 15 none = some 3 ∧ (getDom (s 0xF 0) 3).depth < 3 ∧
    chooseDepth (s 1 1) 3 15 none = some 1 ∧ 1 ≤ (getDom (s 1 1) 3).depth ∧ chooseDepth (s 0 0) 3 15 none = none ∧
    chooseDepth (s 0xF 0) 3 0 (some 2400) = some 1 ∧ chooseDepth (s 0xF 0) 3 0 (some 2399) = none ∧
    (getDom (e 1 false) 3).entering = some 1 ∧ (getDom (e 1 false) 3).wakeDue = false ∧ (getDom (e 3 true) 3).wakeDue = true ∧
    lockerOk (e 3 true) 3 = true ∧ domUsed run 3 = false ∧ domUsed run 215 = true ∧ (getDom (s 0xF 1) 3).depth ≠ 0 ∧
    (getDom (w 215 1) 215).waking = true ∧ (getDom (w 215 1) 215).depth ≠ 3 ∧ (getDom (w 3 3) 3).depth = 3 ∧
    (getDom (w 3 3) 3).waking = true ∧ (getDom run 3).waking = false ∧
    (getDom (w 127 1) 127).waking = true ∧ (getDom (w 128 1) 128).waking = true ∧ (getDom (w 143 1) 143).waking = true ∧
    (getDom (w 144 1) 144).waking = true ∧ refusal run 0x90000 4 0x6401 = none ∧ bitOf (0x6401 : Word) 0 = true ∧
    refusal run 0x90000 4 0x6400 = none ∧ bitOf (0x6400 : Word) 0 = false ∧ isCap (0x90014 : BitVec 20).toNat = false ∧
    isCap (0x901FC : BitVec 20).toNat = true ∧ refusal run (0x901FC : BitVec 20).toNat 4 0x5 = none := by decide +kernel

theorem witness_PowerDomains_wake :
    let D : Dom := { entering := some 1 }
    let E : Dom := { depth := 0 }
    let F : Dom := { depth := 1, known := some 5 }
    D.entering.isSome = true ∧ E.entering = none ∧ E.depth = 0 ∧ F.entering = none ∧ F.depth ≠ 0 ∧ F.known = some 5 ∧
    (5 : Int) ≤ 5 ∧ (5 : Int) < 6 := by decide

theorem witness_PatrolScrub :
    let s := run.modErr fun e => { e with sbSeen := [(20, 0)] }
    (20 : Fin 21) ≠ 0 ∧ unscrubbed run 20 0 = false ∧ unscrubbed run 3 0 = true ∧ run.err.sbSeen.contains ((20 : Fin 21).val, 0) = false ∧
    s.err.sbSeen.contains ((20 : Fin 21).val, 0) = true ∧ 0x20000 < 0xB4000 ∧ (getCtr run 0xB8000).getLsbD 47 = false := by
  decide +kernel

/-! Witnesses: the admin commands. -/

theorem witness_AdminCompletion :
    let s := withQ 5120 { act with cfg := { cq := 6144 } } (withCmd 0x41 4095 0 [] run)
    findAdm s 5120 0 = some (cmd 0x41 4095 0 []) ∧ (cmd 0x41 4095 0 []).stage ≠ .ended ∧ (cmd 0x41 4095 0 []).dup = false ∧
    (∀ b ∈ s.hif.adm, b.dup = false) ∧ (getQueue s 5120).st ≠ .draining ∧ ringOfQueue s 5120 ≠ 5120 := by decide +kernel

/-- A queue-table entry of transmit queue 1 with ring 6,145 (R63). -/
def entry : List Word := [0x400, 0x110, 0, 0, 0, 0, 1, 0] ++ List.replicate 8 0

/-- What QUEUE_CREATE or QUEUE_MODIFY waits for after its entry has come. -/
def enabling (op : Nat) : State :=
  withRead (.enableIndex 1) (run.modHif fun h => { h with adm := [{ cmd op 1 0 [] with stage := .turned, buf := some (some entry) }] })

/-- The command's queue-table entry is being read. -/
def withEntry (op : Nat) (s : State) : State :=
  { withBuf op 1 0 0 s with fab := { s.fab with reads := [{ id := 0, use := .qtable 5120 0, addr := 0, len := 64 }] } }

theorem witness_AdminQueues :
    let c := fun t => withCmd 0x01 t 0 [] run
    let m := fun t st => withQ t { st := st } (withCmd 0x02 t 0 [] run)
    let b := fun op => withQ 6145 act (withEntry op run)
    let u := fun op => returnReads (fun x => x = .qtable 5120 0) (b op)
    let a := fun op => { cmd op 1 0 [] with ws := [wordOf (op * 65536), 7, 1, 0, 0, 0, 0] }
    AtTurn (c 5120) 0 0 0x01 (cmd 0x01 5120 0 []) ∧ bootstrap 5120 = true ∧ AtTurn (c 1) 0 0 0x01 (cmd 0x01 1 0 []) ∧
    bootstrap (target (cmd 0x01 1 0 [])) = false ∧ (getQueue (c 1) 1).st = .notCreated ∧
    AtTurn (m 1 .active) 0 0 0x02 (cmd 0x02 1 0 []) ∧ (getQueue (m 1 .active) 1).st = .active ∧
    AtTurn (m 6144 .stopped) 0 0 0x02 (cmd 0x02 6144 0 []) ∧ (getQueue (m 6144 .stopped) 6144).st = .stopped ∧
    AtTurn (m 1 .draining) 0 0 0x02 (cmd 0x02 1 0 []) ∧ (getQueue (m 1 .draining) 1).st = .draining ∧
    BufferHere (b 0x01) 0 0 0x01 (a 0x01) entry (u 0x01) ∧ entryOk 1 (List.replicate 16 0) = false ∧ entryOk 1 entry = true ∧
    qType 1 < 3 ∧ (getQueue (u 0x01) (cfgOf 1 entry).cq).st = .active ∧ (getQueue run 6145).st ≠ .active := by decide +kernel

theorem witness_AdminQueues_end :
    let b := fun op => withQ 6145 act (withEntry op run)
    let u := fun op => returnReads (fun x => x = .qtable 5120 0) (b op)
    let a := fun op => { cmd op 1 0 [] with ws := [wordOf (op * 65536), 7, 1, 0, 0, 0, 0] }
    let e := withQ 1 { st := .stopped, cfg := cfgOf 1 entry } (b 0x02)
    let v := returnReads (fun x => x = .qtable 5120 0) e
    let d := fun t => withQ t { st := .stopped } (withCmd 0x03 t 0 [] run)
    let k := withQ 6144 { st := .stopped } (withCmd 0x04 6144 0 [] run)
    let k1 := withQ 1 { st := .stopped } (withCmd 0x04 1 0 [] run)
    BufferHere e 0 0 0x02 (a 0x02) entry v ∧ sameFixed (cfgOf 1 entry) (getQueue v 1).cfg = true ∧
    BufferHere (b 0x02) 0 0 0x02 (a 0x02) entry (u 0x02) ∧ sameFixed (cfgOf 1 entry) (getQueue (u 0x02) 1).cfg = false ∧
    AtTurn (d 1) 0 0 0x03 (cmd 0x03 1 0 []) ∧ (getQueue (d 1) 1).st = .stopped ∧ (cmd 0x03 1 0 []).q ≠ target (cmd 0x03 1 0 []) ∧
    AtTurn (d 5120) 0 0 0x03 (cmd 0x03 5120 0 []) ∧ (cmd 0x03 5120 0 []).q = target (cmd 0x03 5120 0 []) ∧
    AtTurn k 0 0 0x04 (cmd 0x04 6144 0 []) ∧ bootstrap (target (cmd 0x04 6144 0 [])) = true ∧
    AtTurn k1 0 0 0x04 (cmd 0x04 1 0 []) ∧ bootstrap (target (cmd 0x04 1 0 [])) = false ∧ (getQueue k1 1).st = .stopped ∧
    queueIdle k1 1 = true := by decide +kernel

theorem witness_AdminQueues_index :
    let u := fun op => returnReads (fun x => x = .enableIndex 1) (enabling op)
    let a := fun op => { cmd op 1 0 [] with stage := .turned, buf := some (some entry) }
    ((enabling 0x01).fab.reads.any fun r => r.use = .index 1) = false ∧ reading (enabling 0x01) (.enableIndex 1) = true ∧
    enableCmd (u 0x01) 1 = some (a 0x01) ∧ enableCmd (u 0x02) 1 = some (a 0x02) ∧ aOp (a 0x01).ws = 0x01 ∧ aOp (a 0x02).ws = 0x02 := by
  decide +kernel

theorem witness_AdminQueues_pair :
    let st := withQ 5120 { act with st := .stopped } (withRead (.enableIndex 5120) run)
    let both := withQ 5120 act (withQ 6144 act run)
    let p := fun x => { withRead (.enableIndex 5120) run with hif := { run.hif with aq0Idx := x } }
    let v := returnReads (fun x => x = .enableIndex 5120) (p none)
    refusal run 0x130 4 0x100401 = none ∧ bitOf (0x100401 : Word) 0 = true ∧ (getQueue run 5120).st = .notCreated ∧
    asked run (.enableIndex 5120) = false ∧ asked run (.enableIndex 6144) = false ∧ refusal both 0x130 4 1 = none ∧
    (getQueue both 5120).st = .active ∧ (getQueue both 6144).st = .active ∧
    (getQueue (returnReads (fun x => x = .enableIndex 5120) st) 5120).st = .stopped ∧
    enableCmd (returnReads (fun x => x = .enableIndex 5120) st) 5120 = none ∧
    logOk (bitsOf (0x100401 : Word) 8 5) = true ∧ logOk (bitsOf (0x100401 : Word) 16 5) = true ∧
    logOk (bitsOf (0x100301 : Word) 8 5) = false ∧ logOk (bitsOf (0x110401 : Word) 16 5) = false ∧
    refusal run 0x130 4 0x100301 = none ∧ ((p none).fab.reads.any fun r => r.use = .index 5120) = false ∧ reading (p none) (.enableIndex 5120) = true ∧
    enableCmd v 5120 = none ∧ (getQueue (p none) 5120).st = .notCreated ∧ (p none).hif.aq0Idx = none ∧
    (p (some (6144, 3))).hif.aq0Idx = some (6144, 3) := by decide +kernel

/-- Live flow 7. -/
def live (x : Flow) (s : State) : State := modFlow 7 (fun _ => { x with live := true }) (s.modPgr fun p => { p with ready := true })

theorem witness_AdminFlowsTerminals_flows :
    let c := fun op => withCmd op 7 0 [] run
    let a := fun op => cmd op 7 0 []
    let l := fun op x => live x (withCmd op 7 0 [] run)
    let n := (c 0x10).modPgr fun p => { p with ready := true }
    let b := withBuf 0x10 7 0 4 run
    let k := live { slot := some 5 } (modSlot 5 (fun _ => { st := .clean, flow := 7 }) run)
    let pin := setReg 0x60004 0x10000 (l 0x12 {})
    AtTurn (c 0x10) 0 0 0x10 (a 0x10) ∧ (c 0x10).pgr.ready = false ∧ AtTurn n 0 0 0x10 (a 0x10) ∧ n.pgr.ready = true ∧
    (getFlow n 7).live = false ∧ paging n 7 = false ∧
    BufferHere b 0 0 0x10 { cmd 0x10 7 0 [] with ws := [0x100000, 7, 7, 0, 0, 0, 4] } [7] (returnReads (fun x => x = .adminBuf 5120 0) b) ∧
    bitsOf (wAt [7] 0) 0 18 = 7 ∧ ctxReservedOk [7] = true ∧ bitsOf (wAt [6] 0) 0 18 ≠ 7 ∧
    AtTurn (c 0x11) 0 0 0x11 (a 0x11) ∧ flowLive (c 0x11) 7 = false ∧ AtTurn (l 0x11 {}) 0 0 0x11 (a 0x11) ∧
    flowLive (l 0x11 {}) 7 = true ∧ (getFlow (l 0x11 {}) 7).pinned = false ∧ flowUsed (l 0x11 {}) 7 = false ∧
    AtTurn (c 0x12) 0 0 0x12 (a 0x12) ∧ AtTurn (l 0x12 {}) 0 0 0x12 (a 0x12) ∧ AtTurn pin 0 0 0x12 (a 0x12) ∧
    bitsOf (reg (setReg 0x60004 0 (l 0x12 {})) 0x60004) 16 15 ≤ pinnedFlows (setReg 0x60004 0 (l 0x12 {})) ∧
    pinnedFlows pin < bitsOf (reg pin 0x60004) 16 15 ∧
    AtTurn (c 0x13) 0 0 0x13 (a 0x13) ∧ (getFlow (c 0x13) 7).pinned = false ∧
    AtTurn (l 0x13 { pinned := true }) 0 0 0x13 (a 0x13) ∧ (getFlow (l 0x13 { pinned := true }) 7).pinned = true ∧
    AtTurn (c 0x14) 0 0 0x14 (a 0x14) ∧ AtTurn (l 0x14 {}) 0 0 0x14 (a 0x14) ∧ (getFlow (l 0x14 {}) 7).hCheck = false ∧
    (getFlow (l 0x14 {}) 7).hFault = false ∧ (getFlow k 7).hCheck = false ∧ served k 7 = some 5 := by decide +kernel

theorem witness_AdminFlowsTerminals_terminals :
    let t := fun op p st => modRec 32767 (fun r => { r with state := st }) (withCmd op 32767 p [] run)
    let a := fun op p => cmd op 32767 p []
    let cv := withCmd 0x40 1023 0 [] run
    let b := withBuf 0x40 1023 0 144 run
    let u := returnReads (fun x => x = .adminBuf 5120 0) b
    let early := modCurve 1023 (fun _ => { loadedAt := some 0 }) u
    let w : Adm := { cmd 0x40 1023 0 [] with stage := .turned, buf := some (some line) }
    let h := (run.modHif fun h => { h with adm := [w] }).modGnt fun g => { g with loads := [(1023, 5120, 0)] }
    AtTurn (t 0x20 0 0) 0 0 0x20 (a 0x20 0) ∧ (getRec (t 0x20 0 0) 32767).flagged = false ∧
    inputRefused (t 0x20 0 0) 32767 0 = false ∧ AtTurn (t 0x20 5 0) 0 0 0x20 (a 0x20 5) ∧
    inputRefused (t 0x20 5 0) 32767 5 = true ∧
    AtTurn (t 0x21 0 0) 0 0 0x21 (a 0x21 0) ∧ ¬(getRec (t 0x21 0 0) 32767).state ∈ [2, 4, 5] ∧
    AtTurn (t 0x21 0 2) 0 0 0x21 (a 0x21 0) ∧ (getRec (t 0x21 0 2) 32767).state ∈ [2, 4, 5] ∧
    inputRefused (t 0x21 0 2) 32767 7 = false ∧ armStarts (t 0x21 0 2) 32767 = true ∧
    AtTurn (t 0x22 0 0) 0 0 0x22 (a 0x22 0) ∧ ¬(getRec (t 0x22 0 0) 32767).state ∈ [4, 5, 6] ∧
    AtTurn (t 0x22 0 6) 0 0 0x22 (a 0x22 0) ∧ (getRec (t 0x22 0 6) 32767).state ∈ [4, 5, 6] ∧
    AtTurn cv 0 0 0x40 (cmd 0x40 1023 0 []) ∧
    BufferHere b 0 0 0x40 { cmd 0x40 1023 0 [] with ws := [0x400000, 7, 1023, 0, 0, 0, 144] } line u ∧ curveOk line = true ∧
    curveOk (List.replicate 36 0) = false ∧ (getCurve u 1023).loadedAt = none ∧ (getCurve early 1023).loadedAt = some 0 ∧
    early.uptime < 0 + 20000 ∧ h.gnt.loads.find? (fun e => e.1 = 1023) = some (1023, 5120, 0) ∧ findAdm h 5120 0 = some w ∧
    w.buf = some (some line) ∧ target w = 1023 := by decide +kernel

theorem witness_AdminClassifierPorts_rules :
    let ws : List Word := [1, 0, 0, 0, 0, 0, 0, 0]
    let r := fun op s => s.modHif fun h => { h with adm := [{ cmd op 0 0 [] with buf := some (some ws) }] }
    let e : EmEnt := { prof := ruleProf ws, key := ruleKey ws, act0 := 0, act1 := 0 }
    let one := run.modCls fun c => { c with em := [e] }
    let eight := r 0x30 (run.modCls fun c => { c with em := List.replicate 8 { e with key := ruleKey [1, 26405, 0, 0, 0, 0] } })
    AtTurn (r 0x30 run) 0 0 0x30 { cmd 0x30 0 0 [] with buf := some (some ws) } ∧ rulePresent (r 0x30 run) ws = false ∧
    emUsed (r 0x30 run) (emBucket (ruleProf ws) (ruleKey ws)) < 8 ∧
    AtTurn (r 0x30 one) 0 0 0x30 { cmd 0x30 0 0 [] with buf := some (some ws) } ∧ rulePresent (r 0x30 one) ws = true ∧
    AtTurn eight 0 0 0x30 { cmd 0x30 0 0 [] with buf := some (some ws) } ∧ rulePresent eight ws = false ∧
    8 ≤ emUsed eight (emBucket (ruleProf ws) (ruleKey ws)) ∧
    AtTurn (r 0x31 one) 0 0 0x31 { cmd 0x31 0 0 [] with buf := some (some ws) } ∧ rulePresent (r 0x31 one) ws = true ∧
    rulePresent (r 0x31 run) ws = false := by decide +kernel

theorem witness_AdminClassifierPorts_buffers :
    let ws : List Word := [1, 0, 0, 0, 0, 0, 0, 0]
    let b := fun op len => withBuf op 0 0 len run
    let a := fun op len => { cmd op 0 0 [] with ws := [wordOf (op * 65536), 7, 0, 0, 0, 0, wordOf len] }
    let u := fun op len => returnReads (fun x => x = .adminBuf 5120 0) (b op len)
    let hold := (withCmd 0x34 0 3 [] run).modCls fun c => { c with hold := some (5120, 0) }
    let copy := run.modCls fun c => { c with copy := some (true, false) }
    AtTurn (withCmd 0x32 0 0 [] run) 0 0 0x32 (cmd 0x32 0 0 []) ∧ AtTurn (withCmd 0x33 0 0 [] run) 0 0 0x33 (cmd 0x33 0 0 []) ∧
    AtTurn (withCmd 0x41 0 0 [] run) 0 0 0x41 (cmd 0x41 0 0 []) ∧
    BufferHere (b 0x30 32) 0 0 0x30 (a 0x30 32) ws (u 0x30 32) ∧ ruleOk ws = true ∧ ruleOk [0, 0, 0, 0, 0, 0, 0x0C000000, 0] = false ∧
    BufferHere (b 0x31 32) 0 0 0x31 (a 0x31 32) ws (u 0x31 32) ∧
    BufferHere (b 0x32 96) 0 0 0x32 (a 0x32 96) (List.replicate 24 0) (u 0x32 96) ∧
    (groups 24 24 (List.replicate 24 0)).all ternOk = true ∧ (groups 24 24 (2 :: List.replicate 23 0)).all ternOk = false ∧
    BufferHere (b 0x33 8) 0 0 0x33 (a 0x33 8) [0, 0] (u 0x33 8) ∧ ((groups 2 2 [0, 0]).map stepOf).all stepOk = true ∧
    ((groups 2 2 [1, 0]).map stepOf).all stepOk = false ∧
    BufferHere (b 0x41 4) 0 0 0x41 (a 0x41 4) [0] (u 0x41 4) ∧ pbOk 0 0 = true ∧ pbOk 0 0x10000 = false ∧
    AtTurn (withCmd 0x34 0 3 [] run) 0 0 0x34 (cmd 0x34 0 3 []) ∧ hold.cls.hold = some (5120, 0) ∧
    findAdm hold 5120 0 = some (cmd 0x34 0 3 []) ∧ engineUse hold = 0 ∧ copy.cls.copy = some (true, false) ∧ run.cls.copy = none := by decide +kernel

theorem witness_AdminClassifierPorts_ports :
    let s := fun op P => withCmd op 63 0 [] (modPort 63 (fun _ => P) run)
    let a := fun op => cmd op 63 0 []
    let busy := fun op => modProt 63 (fun _ => { phase := 3 }) (s op on)
    let lost : Port := { enabled := true, clockLost := true }
    let lane15 := setReg 0x80004 0x8000 (withCmd 0x70 15 0 [] run)
    AtTurn (s 0x73 on) 0 0 0x73 (a 0x73) ∧ portState (getPort (s 0x73 on) 63) ≠ 0 ∧
    AtTurn (s 0x73 { good := true }) 0 0 0x73 (a 0x73) ∧ portState (getPort (s 0x73 { good := true }) 63) = 0 ∧
    (getPort (s 0x73 { good := true }) 63).good = true ∧ constsOk (s 0x73 { good := true }) 63 consts = true ∧
    constsOk (s 0x73 { good := true }) 63 { consts with cap := 1152016 } = false ∧ (getPort (s 0x73 {}) 63).good = false ∧
    AtTurn (busy 0x74) 0 0 0x74 (a 0x74) ∧ portBusy (busy 0x74) 63 = true ∧ AtTurn (s 0x74 lost) 0 0 0x74 (a 0x74) ∧
    portBusy (s 0x74 lost) 63 = false ∧ portState (getPort (s 0x74 lost) 63) = 3 ∧ AtTurn (s 0x74 on) 0 0 0x74 (a 0x74) ∧
    portState (getPort (s 0x74 on) 63) = 1 ∧ portState (getPort (s 0x74 { on with held := true }) 63) = 4 ∧
    AtTurn (busy 0x75) 0 0 0x75 (a 0x75) ∧ portBusy (busy 0x75) 63 = true ∧ AtTurn (s 0x75 lost) 0 0 0x75 (a 0x75) ∧
    (getPort (s 0x75 lost) 63).good = false ∧ portState (getPort (s 0x75 { lost with good := true }) 63) = 3 ∧
    AtTurn (s 0x75 on) 0 0 0x75 (a 0x75) ∧ portBusy (s 0x75 on) 63 = false ∧
    AtTurn lane15 0 0 0x70 (cmd 0x70 15 0 []) ∧ laneOn lane15 15 = true ∧ (getLane lane15 15).resetting = false ∧
    AtTurn (withCmd 0x70 15 0 [] run) 0 0 0x70 (cmd 0x70 15 0 []) ∧ laneOn (withCmd 0x70 15 0 [] run) 15 = false := by decide +kernel

/-! The check of a command refuses ill-formed operands: one term for each check, and a term beside it that passes. -/

/-- Constants with one word too wide. -/
def wide : FramerConst := { consts with cap := 2 ^ 32 }

/-- A header, a stamp, a DATA body, a MIG_BEGIN and an upstream frame that fit. -/
def head0 : MsgHdr := { cls := 0, hops := 3, dest := 5, origin := 6, seq := 0, len := 64 }
def sec1 : LinkStamp := { sec := 1, ns := 999999999, qns := 3 }
def body : DataMsg := { ring := 0, cls := 0, colour := 2, alloc := 0, terminal := 32767, flow := 262143, stamp := 0, bytes := [1] }
def mig : MigBegin := { mid := 1, srcPort := 2, dstPort := 3, terms := 512, flows := 16384 }
def pres (bytes : List Byte) : UsPresented :=
  { bytes := bytes, bad := false, first := false, stamp := 0, term := 7, alloc := 0, delimOfs := 0, fecCorr := 0, fecUncorr := 0,
    sub := 0, poison := 0 }

theorem smoke_consts : (Instr.portResetDone 0 wide).wellFormed = false ∧ (Instr.portEnable 0 0 wide).wellFormed = false ∧
    (Instr.migrateIn 0 0 wide).wellFormed = false ∧ (Instr.portResetDone 0 consts).wellFormed = true := by decide

theorem smoke_clock_measure : (Instr.portClockMeasure 0 1024000).wellFormed = false ∧
    (Instr.portClockMeasure 0 1023999).wellFormed = true := by decide

theorem smoke_register_write : (Instr.registerWrite ⟨0x10010, false⟩ 0 1).wellFormed = false ∧
    (Instr.registerWrite ⟨0x10010, false⟩ 9 1).wellFormed = false ∧ (Instr.registerWrite ⟨0x70020, false⟩ 4 1).wellFormed = false ∧
    (Instr.registerWrite ⟨0xB0010, false⟩ 4 3).wellFormed = false ∧ (Instr.registerWrite ⟨0x70020, false⟩ 4 2).wellFormed = true := by decide

theorem smoke_ring_enables : (Instr.tsqEnable 2 .error).wellFormed = false ∧ (Instr.traceRingEnable 0x600 .error).wellFormed = false ∧
    (Instr.tsqEnable 1 .timeout).wellFormed = true := by decide

theorem smoke_caddie_restore : (Instr.caddieEnableDone true [(262144, 0x4001)]).wellFormed = false ∧
    (Instr.caddieEnableDone true [(262143, 0x4001)]).wellFormed = true := by decide

theorem smoke_register_offsets : (Instr.statCounterLowRead 0xB8004).wellFormed = false ∧ (Instr.powerCapWrite 0x90014 1).wellFormed = false ∧
    (Instr.powerCapWrite 0x90102 1).wellFormed = false ∧ (Instr.powerCapWrite 0x90104 1).wellFormed = true := by decide

theorem smoke_entry_lengths : (Instr.seqTagRetry 0 (some [0, 0])).wellFormed = false ∧ (Instr.txDescriptorArrive 0 0 [0]).wellFormed = false ∧
    (Instr.adminDescriptorArrive 0 0 (List.replicate 8 0)).wellFormed = false ∧ (Instr.segmentListArrive 0 0 []).wellFormed = false ∧
    (Instr.segmentListArrive 0 0 [1, 2, 3]).wellFormed = false ∧ (Instr.rxBufferArrive 0 [[1, 2, 3]]).wellFormed = false ∧
    (Instr.pageInReadDone 0 (List.replicate 31 0)).wellFormed = false ∧ (Instr.pageInDone 0 0 []).wellFormed = false ∧
    (Instr.pageOutEncrypted 0 0 []).wellFormed = false ∧ (Instr.migTerminalReceived 0 head0 0 0 []).wellFormed = false ∧
    (Instr.migFlowReceived 0 head0 0 0 (List.replicate 16 0)).wellFormed = false := by decide

theorem smoke_frames : (Instr.payloadReadDone 0 0 []).wellFormed = false ∧ (Instr.usFrameArrival 0 (pres [])).wellFormed = false ∧
    (Instr.usFrameArrival 0 (pres [1])).wellFormed = true := by decide

def bare : SetTail := { type := 0, crc := 0, errors := 0 }

theorem smoke_doorbell : (Instr.doorbell ⟨1, 2⟩).wellFormed = false ∧ (Instr.doorbell ⟨0, 3⟩).wellFormed = false ∧
    (Instr.doorbell ⟨0xFFFF, 1⟩).wellFormed = true := by decide

theorem smoke_ordered_sets : (Instr.tsReceived 0 [] bare).wellFormed = false ∧ (Instr.lkReceived 0 [1] bare true).wellFormed = false ∧
    (Instr.capSetReceived 0 (List.replicate 13 0) bare).wellFormed = false ∧ (Instr.markReceived 0 [] bare).wellFormed = false ∧
    (Instr.tsReceived 0 (List.replicate 12 0) bare).wellFormed = true := by decide

theorem smoke_messages : (Instr.dataReceived 0 { head0 with hops := 64 } body).wellFormed = false ∧
    (Instr.dataReceived 0 head0 { body with colour := 3 }).wellFormed = false ∧ (Instr.dataReceived 0 head0 { body with bytes := [] }).wellFormed = false ∧
    (Instr.capReceived 0 { head0 with dest := 16384 } (List.replicate 12 0)).wellFormed = false ∧
    (Instr.pauseReceived 0 0 [1]).wellFormed = false ∧ (Instr.snapReceived 0 head0 1 0 1000000000).wellFormed = false ∧
    (Instr.followUpReceived 0 0 { sec1 with qns := 4 }).wellFormed = false ∧ (Instr.delayRespReceived 0 0 { sec1 with sec := 2 ^ 48 }).wellFormed = false ∧
    (Instr.dataReceived 0 head0 body).wellFormed = true ∧ (Instr.followUpReceived 0 0 sec1).wellFormed = true := by decide

theorem smoke_migration : (Instr.migBeginReceived 0 head0 { mig with terms := 513 }).wellFormed = false ∧
    (Instr.migEndReceived 0 head0 0 0 16385).wellFormed = false ∧ (Instr.migDoneReceived 0 { head0 with origin := 16384 } 0 0).wellFormed = false ∧
    (Instr.migBeginReceived 0 head0 mig).wellFormed = true := by decide

theorem smoke_drain_list : (Instr.migrationDrainEnd 0 (some (List.replicate 16385 (0, 0)))).wellFormed = false ∧
    (Instr.migrationDrainEnd 0 (some [])).wellFormed = true ∧ (Instr.migrationDrainEnd 0 none).wellFormed = true := by decide +kernel

/-! Worked examples of the manual. -/

/-- What a command leaves; a stop leaves the state before it. -/
def after (c : Instr) (s : State) : State :=
  match exec c s with
  | .next t => t
  | _ => s

/-- The table gives its rows no bits, so no word spells a command. -/
theorem test_decode_none : decodeTableWord 32 0 = none ∧ (run.withFetchWord 32 0) = run := by decide +kernel

/-- R101, R337: three refused writes and the clearing write, as the example of chapter 18 shows the record. -/
def refused0 : State := modPort 12 (fun _ => on) run
def refused1 : State := after (.registerWrite ⟨0x13010, false⟩ 4 9600) refused0
def refused2 : State := after (.registerWrite ⟨0x13410, false⟩ 4 16384) refused1
def refused3 : State := after (.registerWrite ⟨0x80000, false⟩ 2 0) refused2
def refusedWord (s : State) : Word := readWord s 0x40

theorem test_refused_locked : (refusedWord refused1, readWord refused1 0x44) = (0x80013010, 1) := by decide +kernel
theorem test_refused_range : (refusedWord refused2, readWord refused2 0x44) = (0x80313410, 2) := by decide +kernel
theorem test_refused_width : (refusedWord refused3, readWord refused3 0x44) = (0x80180000, 3) := by decide +kernel
theorem test_refused_clear : (refusedWord (after .refusedWriteClear refused3), readWord (after .refusedWriteClear refused3) 0x44) =
    (0x00180000, 0) := by decide +kernel

/-- R67: tags across the index wrap, as the example of chapter 4 gives them. -/
theorem test_tags : (tagOf 10 0xFFFFFF00, tagOf 10 0xFFFFFFFF, tagOf 10 0, tagOf 10 0xFF) = (0xFFFF, 0xFFFF, 0, 0) := by decide +kernel
theorem test_index_gap : gap 0x100 0xFFFFFF00 = 512 := by decide +kernel

/-- R74: the first round of the example of chapter 4. -/
def busy (w b : Nat) : Queue := { st := .active, cfg := { log2 := 10, weight := w, burst := b, cq := 6145 }, pi := 1000 }
def three : State :=
  withQ 7 (busy 16 4) (withQ 8 (busy 48 8) (withQ 9 (busy 255 2) (withQ 6145 act run)))
def fetched (s : State) : List (Nat × Nat) := [7, 8, 9].map fun q => ((getQueue s q).f.toNat, (getQueue s q).credit)

theorem test_round_first : fetched (after .txFetch three) = [(1, 0), (0, 0), (0, 0)] := by decide +kernel
theorem test_round_whole : fetched (after .txFetch (after .txFetch (after .txFetch three))) = [(1, 0), (3, 0), (2, 32)] := by decide +kernel

/-- The port of the examples of chapters 8 and 9. -/
def c100 : FramerConst :=
  { profile := 1, cap := 1152000, guardBytes := 320, preamble := 448, delim := 16, encap := 8, report := 72, byteTime := 7111,
    dsLat := 0, usLat := 0 }

/-- R154, R156, R157: the light cycle of chapter 8. -/
def light : State :=
  modPort 5 (fun _ => { on with consts := some c100 }) <|
  modCurve 1 (fun _ => { guar := 1000, assured := 20000, max := 100000, weight := 4 }) <|
  modCurve 2 (fun _ => { assured := 50000, max := 400000, weight := 8, pollLog2 := 2, pts := [(100000, 50000)] }) <|
  modCurve 3 (fun _ => { pollLog2 := 3 }) <|
  modRec 2860 (fun r => { r with mode := 1 }) <|
  modRec 2570 (fun r => { r with mode := 2, allocs := [{ curve := 1, enable := true }, {}, {}, {}] }) <|
  modRec 2571 (fun r => { r with mode := 2, burstsM1 := 1, allocs := [{ curve := 2, enable := true, backlog := 2000 }, {}, {}, {}] }) <|
  modRec 2572 (fun r => { r with mode := 2, pollAge := 7, allocs := [{ curve := 3, enable := true }, {}, {}, {}] }) <|
  modGTree 5 (fun g => { g with counting := true }) <|
  modRTree 5 (fun r => { r with pend := [300] }) <|
  setReg 0x510AC 0x1000000 run

theorem test_light_entries : (compute light 5 1).1.entries =
    [{ term := 300, alloc := 0, kind := .slot, start := 0, len := 1024 },
     { term := 10, alloc := 0, kind := .data, report := true, first := true, start := 1220, len := 268 },
     { term := 11, alloc := 0, kind := .data, report := true, first := true, start := 1684, len := 16020 },
     { term := 12, alloc := 0, kind := .poll, report := true, first := true, start := 17900, len := 18 },
     { term := 11, alloc := 0, kind := .data, first := true, start := 144196, len := 16002, last := true }] := by decide +kernel

theorem test_light_word : ((compute light 5 1).1.entries.map GEntry.word).getD 2 0 = 0x0001F4A00694C00B := by decide +kernel

theorem test_light_counts : ((compute light 5 1).1.granted, (compute light 5 1).1.overhead, (compute light 5 1).1.reserved,
    (compute light 5 1).1.grants) = (129232, 3136, 4096, [(40, 16), (44, 2001)]) := by decide +kernel

/-- The same tree with a cycle budget of 8,000 bytes: its slot does not fit into half of it. -/
def tight : State := setReg (0x40100 + 5 * 4) 8000 light
theorem witness_GrantCycle_deferred : canGrant tight 5 = true ∧ (getGTree tight 5).comp = none ∧ (getGTree tight 5).published = false ∧
    (getGTree tight 5).committed = false ∧ (compute tight 5 (((getGTree tight 5).cycle + 1) % 4294967296)).2 = 1 := by decide +kernel

/-- R164, R174: the figures of the ranging example of chapter 9. -/
def tp12 : State :=
  setReg 0x51180 425000 (setReg 0x51184 380000 (setReg 0x51188 420000 (setReg 0x5118C (256 + 1024 * 4096) run)))

theorem test_ranging_slot : (spanBytes tp12 12 c100, slotLen tp12 12 c100, posTime c100 1040) = (368648, 370184, 1805) := by decide +kernel

/-- R122–R126: the tag-stacking program of chapter 7, bit for bit, and the steps that frames take through it. -/
def stepWord (op next : Nat) (fields : List (Nat × Nat)) : BitVec 64 :=
  BitVec.ofNat 64 (op * 2 ^ 58 + next * 2 ^ 46 + fields.foldl (fun a e => a + e.2 * 2 ^ e.1) 0)
def tagProgram : List (BitVec 64) :=
  [stepWord 1 2 [(43, 4), (35, 12), (34, 1), (14, 0xFFFF)], stepWord 0 0 [], stepWord 2 4 [(43, 4), (27, 0x8100), (15, 3)],
   stepWord 2 4 [(43, 4), (27, 0x88A8), (15, 5)], stepWord 5 0 [(37, 4)], stepWord 2 6 [(43, 4), (27, 0x800), (15, 15)],
   stepWord 5 7 [(37, 14)], stepWord 1 8 [(43, 5), (14, 15)], stepWord 1 9 [(43, 6), (35, 9), (14, 255)],
   stepWord 2 10 [(43, 6), (27, 17), (15, 15)], stepWord 7 11 [(32, 12), (28, 3)], stepWord 5 12 [(36, 1), (33, 5), (30, 2)],
   stepWord 7 13 [(40, 4), (32, 2), (28, 1)], stepWord 0xA 14 [(32, 1)], stepWord 0 0 [(45, 1), (37, 1)], stepWord 0 0 [(45, 1)]]
def tagState : State := run.modCls fun c => { c with parseA := (List.range 16).zip tagProgram }
def ipFrame : List Nat := [8, 0, 0x45, 0, 0, 0, 0, 0, 0, 0, 64, 17, 0, 0, 10, 0, 0, 1, 10, 0, 0, 2, 0x11, 0x22, 0x33, 0x44]
def tagged (tags : List Nat) : POut :=
  parseFrame tagState { up := true, win := ((List.replicate 12 1 ++ tags ++ ipFrame).map (BitVec.ofNat 8)).take 256, start := {} }
    (List.replicate 8 0)

theorem test_parse_words : (tagProgram.getD 2 0, tagProgram.getD 13 0) = (0x0801240800018000, 0x2803800100000000) := by decide +kernel
theorem test_parse_steps_ok : tagProgram.all stepOk = true := by decide +kernel
theorem test_parse_untagged : ((tagged []).steps, (tagged []).looks, (tagged []).tern) = (13, 1, true) := by decide +kernel
theorem test_parse_two_tags : (tagged [0x88, 0xA8, 0, 1, 0x81, 0, 0, 1]).steps = 20 := by decide +kernel
theorem test_parse_many_tags : ((tagged ((List.replicate 61 [0x88, 0xA8, 0, 1]).flatten)).steps,
    (tagged ((List.replicate 61 [0x88, 0xA8, 0, 1]).flatten)).exc) = (249, none) := by decide +kernel

/-- R103, R104: the check values of "123456789" that the named standards publish. -/
def nine : List Byte := [0x31, 0x32, 0x33, 0x34, 0x35, 0x36, 0x37, 0x38, 0x39]
theorem test_check_values : (crc32 nine, crc32c nine, crc16 nine) = (0xCBF43926, 0xE3069283, 0x906E) := by decide +kernel

/-- R231: code groups as the 8b/10b standard prints them: K28.5, D0.0 and D21.5. -/
theorem test_code_groups : ((comma false).1, (comma true).1, (codeOf false 0).1, (codeOf true 0).1, (codeOf false 0xB5).1) =
    (0b0011111010, 0b1100000101, 0b1001110100, 0b0110001011, 0b1010101010) := by decide +kernel

/-- R188, R199: the page of the example of chapter 10. -/
def storeAt : State := setReg 0x60014 0x12 (setReg 0x60018 0x02000000 (setReg 0x6001C 0x12 run))
theorem test_page_address : (pageAddr storeAt 0x2A3F1, ftableAddr storeAt 0x2A3F1, ftableEntry { gen := 21 } true) =
    (0x120151F880, 0x12020547E2, 0x4015) := by decide +kernel

/-- R218, R220, R222: the stamps of the example of chapter 11. -/
def chapter11 : Int := ((1723455999 * 1000000000 + 999999400 : Nat) : Int) * 4294967296 + 5 * 268435456 + 307200 * 16777216
theorem test_short_stamp : shortStamp chapter11 = 0x258 := by decide +kernel
theorem test_stamp_words : tsqWords 0x385 { src := (1, 0), stampId := 0x0A0B, stamp := fullStamp chapter11, port := 20 } =
    [0x0A0B0007, 0x961, 0x66B9DA00, 0x140000] := by decide +kernel

/-- R109, R118: frames B, D and A of the burst of chapter 6, by the counters they move. -/
def tp9 : State := modPort 9 (fun _ => on) (modDom 9 (fun d => { d with depth := 0 }) (setReg 0x12410 9600 run))
def moved (s : State) : List (Nat × Nat) :=
  (List.range 64).filterMap fun k => let v := (getCtr s (statCtr 9 k)).toNat; if v = 0 then none else some (k, v)
/-- A frame of a length in the packet buffer of port 9, as it meets the checks of its length. -/
def checked (n : Nat) : State :=
  let u : Us := { frame with port := 9, tree := 9, len := n }
  usStage2 u (pres []) false (withUs u tp9)
theorem test_runt : moved (checked 60) = [(27, 1)] := by decide +kernel
theorem test_oversize : moved (checked 9700) = [(28, 1)] := by decide +kernel
theorem test_unplanned_when_disabled : moved (after (.usFrameArrival 9 (pres (List.replicate 64 0))) run) = [(39, 1)] := by decide +kernel

/-- R28, R48: the window reads nothing in cold reset, and `POLLYN_ID` once it has ended. -/
theorem test_reset_window : readWord (after (.coldReset false) run) 0xC0000 = 0 ∧ readWord State.reset 0xC0000 = 0x504C4E48 := by
  decide +kernel

/-- R282, R283: the playbook word of the example of chapter 14. -/
theorem test_playbook_word : pbDeliver 0xA092 = true ∧ pbRing 0xA092 = 2 := by decide +kernel

end Sys2Proof.Tests
end

section
/-! Register writes (R6, R7, R28, R50, R335, R337): what a write of the window does, case by case, and which command each offset's
write is. -/

namespace Sys2Proof.Machine

/-! The phase as the guards of the register window read it. -/

theorem running_iff (s : State) : running s = true ↔ s.phase = .running := by simp [running]

theorem running_eq_false_iff (s : State) : running s = false ↔ s.phase ≠ .running := by simp [running]

theorem whenRunning_of_running {s : State} (hs : s.phase = .running) (f : State → State) : whenRunning f s = f s := by
  simp [whenRunning, (running_iff s).2 hs]

theorem whenRunning_of_not_running {s : State} (hs : s.phase ≠ .running) (f : State → State) : whenRunning f s = s := by
  simp [whenRunning, (running_eq_false_iff s).2 hs]

/-! The three answers of a write of the window: nothing in reset, the record, or the stored fields and the action. -/

theorem windowWrite_of_not_running {s : State} (hs : s.phase ≠ .running) (off width : Nat) (v : Word) (act : State → State) :
    windowWrite off width v act s = s := by
  simp [windowWrite, (running_eq_false_iff s).2 hs]

theorem windowWrite_of_refused {s : State} (hs : s.phase = .running) {off width cause : Nat} {v : Word}
    (h : refusal s off width v = some cause) (act : State → State) :
    windowWrite off width v act s = refuseWrite off cause s := by
  simp [windowWrite, (running_iff s).2 hs, h]

theorem windowWrite_of_allowed {s : State} (hs : s.phase = .running) {off width : Nat} {v : Word}
    (h : refusal s off width v = none) (act : State → State) :
    windowWrite off width v act s = act (storeFields off v s) := by
  simp [windowWrite, (running_iff s).2 hs, h]

theorem refusal_of_not_word {off width : Nat} (h : width ≠ 4 ∨ off % 4 ≠ 0) (s : State) (v : Word) :
    refusal s off width v = some 1 := if_pos h

theorem storeFields_of_row {off : Nat} {r : RRow} (h : rowOf off = some r) (v : Word) (s : State) :
    storeFields off v s = setReg off (wordOf (r.keep v)) s := by
  simp [storeFields, h]

/-! Which write of the window a register write is. -/

theorem exec_registerWrite (off : BitVec 20) (width : Nat) (v : Word) (s : State) :
    exec (.registerWrite ⟨off, false⟩ width v) s = .next (registerWrite off.toNat width v s) := rfl

theorem exec_registerWrite_lost (off : BitVec 20) (width : Nat) (v : Word) (s : State) :
    exec (.registerWrite ⟨off, true⟩ width v) s = .next (whenRunning (raise 0xA30 7 0) s) := rfl

theorem exec_registerWrite_laneCtrl (v : Word) (s : State) :
    exec (.registerWrite ⟨0x80004, false⟩ 4 v) s =
      .next (windowWrite 0x80004 4 v (eachBelow 16 fun l u => laneSwitched l (bitOf (reg s 0x80004) l) u) s) := rfl

theorem exec_registerWrite_resetKey (v : Word) (s : State) :
    exec (.registerWrite ⟨0x80, false⟩ 4 v) s =
      .next (whenRunning (onBit v 0 (if bitsOf v 16 16 = 0xA5C3 then startWarm 2 else refuseWrite 0x80 4)) s) := rfl

theorem exec_warmReset (s : State) : exec (.warmReset 0xA5C3) s = .next (whenRunning (startWarm 2) s) :=
  congrArg (fun f => Host.Outcome.next (whenRunning f s)) (if_pos rfl)

theorem exec_powerCapWrite {off : BitVec 20} (hcap : isCap off.toNat = true) (v : Word) (s : State) :
    exec (.powerCapWrite off v) s = .next (capWrite off.toNat 4 v s) :=
  congrArg Host.Outcome.next (if_pos hcap)

theorem exec_refusedWriteClear (s : State) :
    exec .refusedWriteClear s = .next (windowWrite 0x40 4 0x80000000 refusedClear s) := rfl

theorem registerWrite_of_not_word {off width : Nat} (h : width ≠ 4 ∨ off % 4 ≠ 0) (v : Word) (s : State) :
    registerWrite off width v s = windowWrite off width v id s := if_pos h

theorem registerWrite_of_plain {off : Nat} (h : PlainOffset off) (v : Word) (s : State) :
    registerWrite off 4 v s = windowWrite off 4 v (writeEffect off v) s := by
  obtain ⟨hword, hown, hcap⟩ := h
  simp only [List.mem_cons, List.not_mem_nil, or_false, not_or] at hown
  simp [registerWrite, hword, hown, hcap]

/-- The offsets of the caps are none of those that the write of the window treats one by one. -/
theorem registerWrite_of_isCap {off : Nat} (hcap : isCap off = true) (hword : off % 4 = 0) (v : Word) (s : State) :
    registerWrite off 4 v s = capWrite off 4 v s := by
  have hrange : off = 0x90010 ∨ (0x90100 ≤ off ∧ off < 0x90200) := of_decide_eq_true hcap
  have hown : off ≠ 0x80 ∧ off ≠ 0x60000 ∧ off ≠ 0x30A04 ∧ off ≠ 0x50010 ∧ off ≠ 0x80204 ∧ off ≠ 0xB0004 ∧ off ≠ 0x80004 ∧
      off ≠ 0x90000 := by omega
  simp [registerWrite, hword, hown, hcap]

/-- The two enables whose index area is read at once: `runs` is the enable as it stands (R221, R325). -/
theorem registerWrite_of_ringEnable {off : Nat} {runs : Bool} {s : State}
    (h : (off = 0x70020 ∧ runs = s.tim.tsqEn) ∨ (off = 0xB0010 ∧ runs = s.mon.trEn)) (v : Word) :
    registerWrite off 4 v s = if bitOf v 0 && !runs then s else windowWrite off 4 v (writeEffect off v) s := by
  obtain ⟨rfl, rfl⟩ | ⟨rfl, rfl⟩ := h
  · simp [registerWrite, show isCap 0x70020 = false by decide]
  · simp [registerWrite, show isCap 0xB0010 = false by decide]

/-- Whatever the offset, a register write is a write of the window, or one that waits for the running phase (R28). -/
theorem registerWrite_of_not_running {s : State} (hs : s.phase ≠ .running) (off width : Nat) (v : Word) :
    registerWrite off width v s = s := by
  simp only [registerWrite, caddieEnable, indWrite, recSelect, routeWrite, seedWrite, laneCtrlWrite, pwrCtrlWrite, capWrite,
    bwCtrlWrite, windowWrite_of_not_running hs, whenRunning_of_not_running hs, ite_self]

/-! `REFUSED_WRITE`, whose one written field is W1C: its write stores nothing, locks nothing and is never refused (R337). -/

theorem refusal_refusedWrite (s : State) (v : Word) : refusal s 0x40 4 v = none := rfl

theorem storeFields_refusedWrite (s : State) (v : Word) : storeFields 0x40 v s = setReg 0x40 0 s := rfl

end Sys2Proof.Machine

namespace Sys2Proof.Proofs

open Sys2Proof.Machine

/-- Settles O16: the offset alone decides which write of the window a command is (`registerWrite_of_…`, `exec_registerWrite…`);
the phase and the refusal then decide which of its three answers that write gives (`windowWrite_of_…`). -/
theorem registerWrite : Obligations.RegisterWrite := by
  refine ⟨?refused, ?stored, ?notWord, ?lost, ?resetKey, ?ownRows, ?laneCtrl, ?ringEnable, ?clear, ?inReset, ?readInReset⟩
  case refused =>
    intro s off v cause hs hoff hcause
    rw [exec_registerWrite, registerWrite_of_plain hoff, windowWrite_of_refused hs hcause]
  case stored =>
    intro s off v r hs hoff hrow hnone
    refine ⟨?_, reg_setReg _ _ _, fun o ho => reg_setReg_ne ho _ _⟩
    rw [exec_registerWrite, registerWrite_of_plain hoff, windowWrite_of_allowed hs hnone, storeFields_of_row hrow]
  case notWord =>
    intro s off width v hs hnot
    rw [exec_registerWrite, registerWrite_of_not_word hnot, windowWrite_of_refused hs (refusal_of_not_word hnot s v)]
  case lost =>
    intro s off width v hs
    rw [exec_registerWrite_lost, whenRunning_of_running hs]
  case resetKey =>
    intro s v hs
    rw [exec_registerWrite_resetKey, exec_warmReset, whenRunning_of_running hs, whenRunning_of_running hs]
    refine ⟨fun hoff => ?_, fun hon hkey => ?_, fun hon hkey => ?_⟩
    · simp [onBit, hoff]
    · simp [onBit, hon, hkey]
    · simp [onBit, hon, hkey]
  case ownRows =>
    refine fun s v => ⟨rfl, rfl, rfl, rfl, rfl, rfl, rfl, fun off hcap hword => ?_⟩
    rw [exec_registerWrite, registerWrite_of_isCap hcap hword, exec_powerCapWrite hcap]
  case laneCtrl =>
    intro s v hs hnone
    rw [exec_registerWrite_laneCtrl, windowWrite_of_allowed hs hnone]
  case ringEnable =>
    intro s v off runs hs hring
    have hoff : (off.toNat = 0x70020 ∧ runs = s.tim.tsqEn) ∨ (off.toNat = 0xB0010 ∧ runs = s.mon.trEn) :=
      hring.imp (And.imp_left fun h => congrArg BitVec.toNat h) (And.imp_left fun h => congrArg BitVec.toNat h)
    have hplain (h : bitOf v 0 = false ∨ runs = true) : (bitOf v 0 && !runs) = false := by
      cases h with
      | inl hclear => simp [hclear]
      | inr hruns => simp [hruns]
    rw [exec_registerWrite, registerWrite_of_ringEnable hoff]
    refine ⟨fun hset hstopped => ?_, fun h hnone => ?_, fun k h hk => ?_⟩
    · simp [hset, hstopped]
    · rw [hplain h, windowWrite_of_allowed hs hnone]
      rfl
    · rw [hplain h, windowWrite_of_refused hs hk]
      rfl
  case clear =>
    rintro s t hs rfl
    refine ⟨?_, rfl, rfl, fun off hoff => reg_setReg_ne hoff 0 s⟩
    rw [exec_refusedWriteClear, windowWrite_of_allowed hs (refusal_refusedWrite s _), storeFields_refusedWrite]
    rfl
  case inReset =>
    intro s off width v hs
    rw [exec_registerWrite, exec_registerWrite_lost, registerWrite_of_not_running hs, whenRunning_of_not_running hs]
    exact ⟨rfl, rfl⟩
  case readInReset =>
    intro s off hs
    simp [readWord, (running_eq_false_iff s).2 hs]

end Sys2Proof.Proofs
end

section
/-! Every command goes on (R22): the commands that leave all of `Standing` as it was, and, of the others, that they leave the queue
of waiting commands. -/

namespace Sys2Proof.Machine

/-! The guards under which a command acts (R28, R99) keep what the act keeps. -/

@[simp] theorem whenRunning_base (f : State → State) (s : State) (h_f : ∀ x, (f x).kept.base = x.kept.base) :
    (whenRunning f s).kept.base = s.kept.base := by
  simp [whenRunning, h_f]

@[simp] theorem windowRead_base (f : State → State) (s : State) (h_f : ∀ x, (f x).kept.base = x.kept.base) :
    (windowRead f s).kept.base = s.kept.base := by
  simp [windowRead, h_f]

@[simp] theorem atTurn_base (q : Nat) (idx : Word) (op : Nat) (f : Adm → State → State) (s : State)
    (h_f : ∀ a x, (f a x).kept.base = x.kept.base) : (atTurn q idx op f s).kept.base = s.kept.base := by
  unfold atTurn
  split
  · simp [h_f]
  · rfl

/-! What ordered sets and messages bring keeps what its use keeps. -/

@[simp] theorem orderedSet_kept (l : Nat) (type : Byte) (ps : List Byte) (x : SetTail) (f : State → State) (s : State)
    (h_f : ∀ y, (f y).kept = y.kept) : (orderedSet l type ps x f s).kept = s.kept := by
  simp [orderedSet, h_f]

@[simp] theorem rxIn_seqTake_kept (c : Nat) (h : MsgHdr) (len : Nat) (q : Word) (f : State → State) (s : State)
    (h_f : ∀ y, (f y).kept = y.kept) : (rxIn c h len (seqTake c q f) s).kept = s.kept :=
  rxIn_kept c h len _ s fun y => seqTake_kept c q f y h_f

@[simp] theorem migIn_kept (c : Nat) (h : MsgHdr) (b : Body) (act : State → State) (s : State)
    (h_act : ∀ y, (act y).kept = y.kept) : (migIn c h b act s).kept = s.kept :=
  rxIn_seqTake_kept c h _ _ _ s fun y => by simp [h_act]

/-! Two commands that come without data first, to start the read that brings it (R73, R276). -/

@[simp] theorem tagRetry_reading_kept (q : Nat) (s : State) : (tagRetry q none s).kept = s.kept := by
  unfold tagRetry
  split <;> simp

@[simp] theorem drainEnd_ends_kept (t : Nat) (s : State) : (drainEnd t none s).kept = s.kept := by
  simp only [drainEnd]
  (repeat' split) <;> simp

theorem registerWrite_base {off : Nat} (h : off ≠ 0x80) (width : Nat) (v : Word) (s : State) :
    (registerWrite off width v s).kept.base = s.kept.base := by
  simp [registerWrite, h]

/-- The commands that a reset, the loss of the supply or a command of the time base is, and the writes of the reset key's
register. -/
inductive MovesStanding : Instr → Prop
  | coldReset (short : Bool) : MovesStanding (.coldReset short)
  | coldResetRelease : MovesStanding .coldResetRelease
  | initDone : MovesStanding .resetInitialisationDone
  | warmPin : MovesStanding .warmResetByPin
  | warmKey (key : BitVec 16) : MovesStanding (.warmReset key)
  | quiesceEnd (bound : Bool) : MovesStanding (.quiesceEnd bound)
  | supplyOff : MovesStanding .blockSupplyOff
  | timeStep (q : Fin 64) (idx : Word) : MovesStanding (.timeStep q idx)
  | timeRate (q : Fin 64) (idx : Word) : MovesStanding (.timeRate q idx)
  | keyWrite (width : Nat) (v : Word) : MovesStanding (.registerWrite ⟨0x80, false⟩ width v)

/-- No other command changes anything of `Standing`. -/
theorem exec_keeps_standing {c : Instr} (hc : ¬ MovesStanding c) (s : State) :
    ∃ t, exec c s = .next t ∧ t.kept.base = s.kept.base := by
  cases c with
  | coldReset => exact absurd (.coldReset _) hc
  | coldResetRelease => exact absurd .coldResetRelease hc
  | resetInitialisationDone => exact absurd .initDone hc
  | warmResetByPin => exact absurd .warmPin hc
  | warmReset => exact absurd (.warmKey _) hc
  | quiesceEnd => exact absurd (.quiesceEnd _) hc
  | blockSupplyOff => exact absurd .supplyOff hc
  | timeStep => exact absurd (.timeStep _ _) hc
  | timeRate => exact absurd (.timeRate _ _) hc
  | registerWrite a width v =>
    obtain ⟨off, lost⟩ := a
    cases lost with
    | true => exact ⟨_, exec_registerWrite_lost off width v s, by simp⟩
    | false =>
      have hoff : off.toNat ≠ 0x80 := fun h => hc (BitVec.eq_of_toNat_eq (y := 0x80#20) h ▸ .keyWrite width v)
      exact ⟨_, exec_registerWrite off width v s, registerWrite_base hoff width v s⟩
  | seqTagRetry _ ws => cases ws <;> exact ⟨_, rfl, by simp⟩
  | migrationDrainEnd _ list => cases list <;> exact ⟨_, rfl, by simp⟩
  | protectionEnd flow =>
    refine ⟨_, rfl, ?_⟩
    split
    · simp
    · rfl
  | commitCopyDone => exact ⟨_, rfl, whenRunning_base _ s (State.modCls_base copyDone)⟩
  | portFlushAck | cycleStart => exact ⟨_, rfl, by simp [ite_apply]⟩
  | capReceived | snapReceived => exact ⟨_, rfl, whenRunning_base _ s fun x => by simp⟩
  -- Every other arm is one operation of the model under its guard. The guard keeps what the operation keeps, and the operation
  -- has its own `_kept` or `_base` lemma.
  | _ => exact ⟨_, rfl, by simp⟩

/-! The waiting commands, which the resets and the commands of the time base leave too. -/

theorem pending_of_base {s t : State} (h : t.kept.base = s.kept.base) : t.pending = s.pending :=
  congrArg Standing.pending h

theorem pending_of_kept {s t : State} (h : t.kept = s.kept) : t.pending = s.pending :=
  pending_of_base (congrArg Kept.base h)

theorem whenRunning_pending {f : State → State} (s : State) (h : (f s).pending = s.pending) :
    (whenRunning f s).pending = s.pending := by
  unfold whenRunning
  split
  · exact h
  · rfl

theorem atTurn_pending (q : Nat) (idx : Word) (op : Nat) {f : Adm → State → State} (s : State)
    (h : ∀ a, (f a s).pending = s.pending) : (atTurn q idx op f s).pending = s.pending := by
  unfold atTurn
  split
  · split
    · exact h _
    · rfl
  · rfl

theorem coldReset_pending (short : Bool) (s : State) : (coldReset short s).pending = s.pending := by
  unfold coldReset
  (repeat' split) <;> rfl

theorem initDone_pending (s : State) : (initDone s).pending = s.pending := by
  unfold initDone
  simp only [apply_ite State.pending]
  simp

theorem startWarm_kept (cause : Nat) (s : State) :
    (startWarm cause s).kept = State.kept { s with phase := .quiesce } := by
  simp [startWarm]

theorem startWarm_pending (cause : Nat) (s : State) : (startWarm cause s).pending = s.pending :=
  (pending_of_kept (startWarm_kept cause s)).trans rfl

theorem warmState_pending (h : Hif) (s : State) : (warmState h s).pending = s.pending := rfl

theorem quiesceEnd_pending (bound : Bool) (s : State) : (quiesceEnd bound s).pending = s.pending := by
  simp only [quiesceEnd]
  split
  · rfl
  · refine Eq.trans (warmState_pending _ _) (pending_of_kept ?_)
    split <;> simp

theorem tick_pending (s : State) : (tick s).pending = s.pending := by
  simp only [tick]
  split
  · rfl
  · exact (pending_of_kept (whenLive_kept _ _ fun x => by simp)).trans rfl

theorem timeStep_pending (a : Adm) (s : State) : (timeStep a s).pending = s.pending := by
  simp only [timeStep]
  split
  · exact pending_of_kept (admRefuse_kept a 2 s)
  · calc _ = ((tick s).modTim (stepTime a.ws)).pending := pending_of_kept (by simp)
      _ = (tick s).pending := State.modTim_pending _ _
      _ = s.pending := tick_pending s

theorem timeRate_pending (a : Adm) (s : State) : (timeRate a s).pending = s.pending :=
  (pending_of_kept (admDone_kept _ _ _ _ _)).trans (State.modTim_pending _ _)

theorem supplyOff_pending (s : State) : (supplyOff s).pending = s.pending := rfl

/-- What the reset key's write does, right key or not (R50). -/
theorem keyed_pending (right : Prop) [Decidable right] (s : State) :
    ((if right then startWarm 2 else refuseWrite 0x80 4) s).pending = s.pending := by
  split
  · exact startWarm_pending 2 s
  · exact pending_of_kept (refuseWrite_kept 0x80 4 s)

theorem onBit_pending (v : Word) (i : Nat) {f : State → State} (s : State) (h : (f s).pending = s.pending) :
    (onBit v i f s).pending = s.pending := by
  unfold onBit
  split
  · exact h
  · rfl

theorem registerWrite_resetKey (v : Word) (s : State) : registerWrite 0x80 4 v s =
    whenRunning (onBit v 0 (if bitsOf v 16 16 = 0xA5C3 then startWarm 2 else refuseWrite 0x80 4)) s := rfl

theorem registerWrite_resetKey_pending (width : Nat) (v : Word) (s : State) :
    (registerWrite 0x80 width v s).pending = s.pending := by
  by_cases hw : width = 4
  · rw [hw, registerWrite_resetKey]
    exact whenRunning_pending s (onBit_pending v 0 s (keyed_pending _ s))
  · rw [registerWrite_of_not_word (.inl hw)]
    exact pending_of_base (windowWrite_base _ _ _ _ _ fun _ => rfl)

theorem exec_pending_of_movesStanding {c : Instr} (hc : MovesStanding c) (s : State) :
    ∃ t, exec c s = .next t ∧ t.pending = s.pending := by
  cases hc with
  | coldReset short => exact ⟨_, rfl, coldReset_pending short s⟩
  | coldResetRelease =>
    refine ⟨_, rfl, ?_⟩
    split <;> rfl
  | initDone => exact ⟨_, rfl, initDone_pending s⟩
  | warmPin => exact ⟨_, rfl, whenRunning_pending s (startWarm_pending 1 s)⟩
  | warmKey key => exact ⟨_, rfl, whenRunning_pending s (keyed_pending _ s)⟩
  | quiesceEnd bound => exact ⟨_, rfl, quiesceEnd_pending bound s⟩
  | supplyOff => exact ⟨_, rfl, supplyOff_pending s⟩
  | timeStep q idx => exact ⟨_, rfl, whenRunning_pending s (atTurn_pending q idx 0x60 s fun a => timeStep_pending a s)⟩
  | timeRate q idx => exact ⟨_, rfl, whenRunning_pending s (atTurn_pending q idx 0x61 s fun a => timeRate_pending a s)⟩
  | keyWrite width v => exact ⟨_, exec_registerWrite 0x80 width v s, registerWrite_resetKey_pending width v s⟩

end Sys2Proof.Machine

namespace Sys2Proof.Proofs

open Sys2Proof.Machine

/-- Settles O3: a command either keeps all of `Standing`, the waiting commands among it, or is one of the few of
`MovesStanding`, each of which leaves the waiting commands. -/
theorem everyCommandGoesOn : Obligations.EveryCommandGoesOn := by
  intro c s
  by_cases hc : MovesStanding c
  · exact exec_pending_of_movesStanding hc s
  · obtain ⟨t, ht, hbase⟩ := exec_keeps_standing hc s
    exact ⟨t, ht, pending_of_base hbase⟩

end Sys2Proof.Proofs
end

section
/-! Per-port resets (R54–R56): each step of one, where it acts. -/

namespace Sys2Proof.Machine

/-! A command whose arm is one operation in the running phase. -/

theorem next_whenRunning {s u : State} {f : State → State} (hs : s.phase = .running) (h : f s = u) :
    (.next (whenRunning f s) : Host.Outcome State Fault Refusal) = .next u := by
  rw [whenRunning_of_running hs, h]

/-- An operation that changes nothing in a state leaves it in every phase. -/
theorem next_whenRunning_of_fixed {s : State} {f : State → State} (h : f s = s) :
    (.next (whenRunning f s) : Host.Outcome State Fault Refusal) = .next s := by
  unfold whenRunning
  split
  · rw [h]
  · rfl

section PortReset
variable {s : State} {p : Nat} {r : PortReset}

theorem flushAck_of_idle (hreset : (getPort s p).reset = some r) (hxfer : (getPort s p).xfer = none)
    (hawake : portAwake s p = true) :
    flushAck p s = modPort p (fun P => { P with reset := some { r with flushed := true } }) s := by
  simp [flushAck, hreset, hxfer, hawake]

theorem resetTruncate_of_reset (hreset : (getPort s p).reset = some r) (sent : Nat) :
    resetTruncate p sent s = downEnd p true sent s := by
  simp [resetTruncate, hreset]

theorem resetDone_of_flushed (hreset : (getPort s p).reset = some r) (hflushed : r.flushed = true) (c : FramerConst) :
    resetDone p c s =
      if r.restart = true then
        if constsOk s p c = true then resetCmd r 0 (portService p c s) else resetCmd r 4 (resetOff p s)
      else resetCmd r 0 (resetOff p s) := by
  simp only [resetDone, hreset, hflushed]
  cases hrestart : r.restart with
  | false => simp
  | true => cases hconsts : constsOk s p c <;> simp

end PortReset

end Sys2Proof.Machine

namespace Sys2Proof.Proofs

open Sys2Proof.Machine

/-- Settles O13: a reset under way decides what each step does (`flushAck_of_idle`, `resetTruncate_of_reset`,
`resetDone_of_flushed`); a flush request that is dropped on the way never reaches it. -/
theorem portResetSteps : Obligations.PortResetSteps := by
  refine ⟨?acknowledged, ?dropped, ?truncated, ?done⟩
  case acknowledged =>
    intro s p r hs hreset hxfer hawake
    refine next_whenRunning hs ?_
    rw [if_pos (Option.isSome_of_mem hreset)]
    exact flushAck_of_idle hreset hxfer hawake
  case dropped =>
    intro s p hs hreset
    refine next_whenRunning hs ?_
    rw [if_pos hreset]
    rfl
  case truncated =>
    intro s p r sent hs hreset
    exact next_whenRunning hs (resetTruncate_of_reset hreset sent)
  case done =>
    intro s p c r hs hreset hflushed
    exact next_whenRunning hs (resetDone_of_flushed hreset hflushed c)

end Sys2Proof.Proofs
end

section
/-! The grant engine's cycle (R15, R16, R56, R141, R159, R302): each step of one computation, where it acts and where it does
nothing. -/

namespace Sys2Proof.Machine

theorem getGTree_modGTree_ne {t r : Nat} (h : r ≠ t) (f : GTree → GTree) (s : State) :
    getGTree (modGTree t f s) r = getGTree s r :=
  tget_tset_ne h _ _ _

/-- A change of a tree's state is what it makes of that state. -/
theorem modGTree_congr {t : Nat} {f g : GTree → GTree} {s : State} (h : f (getGTree s t) = g (getGTree s t)) :
    modGTree t f s = modGTree t g s := by
  unfold getGTree at h
  simp only [modGTree, State.modGnt, h]

section GrantSteps
variable {s : State} {t : Nat} {c : Comp}

theorem readPoint_starts (hcan : canGrant s t = true) (hcomp : (getGTree s t).comp = none)
    (hpub : (getGTree s t).published = false) (hcom : (getGTree s t).committed = false) {n : Nat}
    (hc : compute s t (((getGTree s t).cycle + 1) % 4294967296) = (c, n)) :
    readPoint t s =
      let u := perf 22 1 (modGTree t (fun g => { g with comp := some c }) (access 210 s))
      if n = 0 then u else raise 0x413 (wordOf (homeOf u t)) (wordOf n) (addCtr (gntCtr t 8) n u) := by
  simp [readPoint, hcan, hcomp, hpub, hcom, hc]

theorem readPoint_idle (h : canGrant s t = false ∨ (getGTree s t).comp.isSome = true ∨ (getGTree s t).published = true ∨
    (getGTree s t).committed = true) : readPoint t s = s := by
  obtain hcan | hcomp | hpub | hcom := h
  · simp [readPoint, hcan]
  · simp [readPoint, hcomp]
  · simp [readPoint, hpub]
  · simp [readPoint, hcom]

/-- The plan of a computation is out (R159): its list, or, before its list time, nothing yet, stands by. -/
def planOut (t : Nat) (c : Comp) (s : State) : State :=
  State.modPgr (fun p => { p with sched := p.sched ++ planPrefetch s t c.cycle c.entries })
    (modGTree t (fun g => { g with
      published := true, planNext := c.entries,
      standby := if nextStart s t - us16 45 ≤ now16 s then some c else none }) s)

theorem publish_noWindow (hcomp : (getGTree s t).comp = some c) (hpub : (getGTree s t).published = false)
    (hnone : (c.entries.find? fun e => e.kind = .window) = none) : publish t s = planOut t c s := by
  simp [publish, planOut, hcomp, hpub, hnone]

theorem publish_window (hcomp : (getGTree s t).comp = some c) (hpub : (getGTree s t).published = false) {e : GEntry}
    (he : (c.entries.find? fun e => e.kind = .window) = some e) :
    publish t s = sendAnnounce t c.cycle e (planOut t c s) := by
  simp [publish, planOut, hcomp, hpub, he]

theorem publish_idle (h : (getGTree s t).comp = none ∨ (getGTree s t).published = true) : publish t s = s := by
  obtain hcomp | hpub := h
  · simp [publish, hcomp]
  · simp only [publish, hpub]
    split <;> rfl

theorem listTime_writes (hcomp : (getGTree s t).comp = some c) (hpub : (getGTree s t).published = true)
    (hcom : (getGTree s t).committed = false) (hstandby : (getGTree s t).standby = none) :
    listTime t s = modGTree t (fun g => { g with standby := some c }) s :=
  modGTree_congr (by simp [hcomp, hpub, hcom, hstandby])

theorem computeDeadline_abandons (hpub : (getGTree s t).published = false) :
    computeDeadline t s = modGTree t (fun g => { g with comp := none }) s :=
  modGTree_congr (by simp [hpub])

theorem computeDeadline_published (hpub : (getGTree s t).published = true) :
    computeDeadline t s = modGTree t (fun g => g) s :=
  modGTree_congr (by simp [hpub])

theorem glCommit_clean (hstandby : (getGTree s t).standby = some c) (hcom : (getGTree s t).committed = false) :
    glCommit t 0 s = commitList t c s := by
  simp [glCommit, hstandby, hcom]

theorem glCommit_poisoned (hstandby : (getGTree s t).standby = some c) (hcom : (getGTree s t).committed = false)
    {poison : Nat} (hpoison : poison ≠ 0) :
    glCommit t poison s = emptyList t (grantLate t 2 (parityError poison 2 (homeOf s t) s)) := by
  simp [glCommit, hstandby, hcom, hpoison]

theorem glCommit_idle (h : (getGTree s t).standby = none ∨ (getGTree s t).committed = true) (poison : Nat) :
    glCommit t poison s = s := by
  obtain hstandby | hcom := h
  · simp [glCommit, hstandby]
  · simp only [glCommit, hcom]
    split <;> rfl

theorem listDeadline_inReset (hreset : (getPort s (homeOf s t)).reset.isSome = true) :
    listDeadline t s = emptyList t s := by
  simp [listDeadline, hreset]

theorem listDeadline_missed (hreset : (getPort s (homeOf s t)).reset = none) (hcom : (getGTree s t).committed = false)
    (hserves : (getPort s (homeOf s t)).enabled = true ∨ (getPort s (homeOf s t)).armed.isSome = true)
    (hlost : (getPort s (homeOf s t)).cycLost = false) :
    listDeadline t s =
      emptyList t (if canGrant s t then grantLate t (if (getGTree s t).published then 1 else 0) s else s) := by
  have hserves' : ((getPort s (homeOf s t)).enabled || (getPort s (homeOf s t)).armed.isSome) = true := by simpa using hserves
  simp [listDeadline, hreset, hcom, hserves', hlost]

end GrantSteps

/-! The list of a tree that commits empty. -/

theorem getGTree_addCtr (t off n : Nat) (s : State) : getGTree (addCtr off n s) t = getGTree s t := rfl

theorem getGTree_withdraw (t cyc : Nat) (s : State) :
    getGTree (withdraw t cyc s) t = { getGTree s t with planNext := [] } :=
  getGTree_modGTree t _ _

theorem getGTree_emptyList (t : Nat) (s : State) : getGTree (emptyList t s) t =
    { getGTree s t with planNext := [], comp := none, published := false, standby := none, committed := true } := by
  simp [emptyList, getGTree_addCtr, getGTree_withdraw]

end Sys2Proof.Machine

namespace Sys2Proof.Proofs

open Sys2Proof.Machine

/-- Settles O41: the state of the tree's computation decides whether each step acts (`readPoint_starts`, `publish_window`,
`listTime_writes`, `computeDeadline_abandons`, `glCommit_clean`, `listDeadline_missed` and their like) or leaves everything, in
every phase (`readPoint_idle`, `publish_idle`, `glCommit_idle`). -/
theorem grantCycle : Obligations.GrantCycle := by
  refine ⟨?readPoint, ?readPointIdle, ?publish, ?publishIdle, ?listTime, ?abandon, ?kept, ?commit, ?poisoned, ?commitIdle,
    ?inReset, ?missed, ?empty⟩
  case readPoint =>
    rintro s u t c n hs hcan hcomp hpub hcom hc rfl
    have hstart := readPoint_starts hcan hcomp hpub hcom hc
    exact ⟨fun hn => next_whenRunning hs (hstart.trans (if_pos hn)), fun hn => next_whenRunning hs (hstart.trans (if_neg hn))⟩
  case readPointIdle =>
    intro s t h
    exact next_whenRunning_of_fixed (readPoint_idle h)
  case publish =>
    rintro s u t c hs hcomp hpub rfl
    exact ⟨fun hnone => next_whenRunning hs (publish_noWindow hcomp hpub hnone),
      fun e he => next_whenRunning hs (publish_window hcomp hpub he)⟩
  case publishIdle =>
    intro s t h
    exact next_whenRunning_of_fixed (publish_idle h)
  case listTime =>
    rintro s u t c hs hcomp hpub hcom hstandby rfl
    exact ⟨next_whenRunning hs (listTime_writes hcomp hpub hcom hstandby), getGTree_modGTree _ _ _,
      fun k hk => getGTree_modGTree_ne hk _ _⟩
  case abandon =>
    rintro s u t hs hpub rfl
    exact ⟨next_whenRunning hs (computeDeadline_abandons hpub), getGTree_modGTree _ _ _,
      fun k hk => getGTree_modGTree_ne hk _ _⟩
  case kept =>
    intro s t hs hpub
    exact next_whenRunning hs (computeDeadline_published hpub)
  case commit =>
    intro s t c hs hstandby hcom
    exact next_whenRunning hs (glCommit_clean hstandby hcom)
  case poisoned =>
    intro s t c poison hs hstandby hcom hpoison
    have hpoison' : poison.val ≠ 0 := fun h => hpoison (Fin.ext h)
    exact next_whenRunning hs (glCommit_poisoned hstandby hcom hpoison')
  case commitIdle =>
    intro s t poison h
    exact next_whenRunning_of_fixed (glCommit_idle h poison)
  case inReset =>
    intro s t hs hreset
    exact next_whenRunning hs (listDeadline_inReset hreset)
  case missed =>
    intro s t hs hreset hcom hserves hlost
    have hmissed := listDeadline_missed hreset hcom hserves hlost
    refine ⟨fun hcan => next_whenRunning hs ?_, fun hcan => next_whenRunning hs ?_⟩
    · rw [hmissed, if_pos hcan]
    · rw [hmissed, if_neg (by simp [hcan])]
  case empty =>
    intro s t
    simp [getGTree_emptyList]

end Sys2Proof.Proofs
end

section
/-! The block's phase (R39, R48–R53): the resets and the loss of the supply move it, and every other command leaves it. -/

namespace Sys2Proof.Machine

theorem phase_of_base {s t : State} (h : t.kept.base = s.kept.base) : t.phase = s.phase :=
  congrArg Standing.phase h

theorem phase_of_kept {s t : State} (h : t.kept = s.kept) : t.phase = s.phase :=
  phase_of_base (congrArg Kept.base h)

/-! The commands of the time base leave the phase. -/

theorem whenRunning_phase {f : State → State} (s : State) (h : (f s).phase = s.phase) :
    (whenRunning f s).phase = s.phase := by
  unfold whenRunning
  split
  · exact h
  · rfl

theorem atTurn_phase (q : Nat) (idx : Word) (op : Nat) {f : Adm → State → State} (s : State)
    (h : ∀ a, (f a s).phase = s.phase) : (atTurn q idx op f s).phase = s.phase := by
  unfold atTurn
  split
  · split
    · exact h _
    · rfl
  · rfl

theorem tick_phase (s : State) : (tick s).phase = s.phase := by
  simp only [tick]
  split
  · rfl
  · exact (phase_of_kept (whenLive_kept _ _ fun x => by simp)).trans rfl

theorem timeStep_phase (a : Adm) (s : State) : (timeStep a s).phase = s.phase := by
  simp only [timeStep]
  split
  · exact phase_of_kept (admRefuse_kept a 2 s)
  · calc _ = ((tick s).modTim (stepTime a.ws)).phase := phase_of_kept (by simp)
      _ = (tick s).phase := State.modTim_phase _ _
      _ = s.phase := tick_phase s

theorem timeRate_phase (a : Adm) (s : State) : (timeRate a s).phase = s.phase :=
  (phase_of_kept (admDone_kept _ _ _ _ _)).trans (State.modTim_phase _ _)

/-! Where a reset takes the phase. -/

theorem coldReset_phase (short : Bool) (s : State) :
    (coldReset short s).phase = s.phase ∨ (coldReset short s).phase = .coldHeld := by
  unfold coldReset
  split
  · split
    · exact .inr rfl
    · exact .inl rfl
  · exact .inr rfl

theorem initDone_phase (s : State) :
    (initDone s).phase = s.phase ∨ ((s.phase = .coldInit ∨ s.phase = .warmInit) ∧ (initDone s).phase = .running) := by
  unfold initDone
  split
  · next h => exact .inr ⟨by simpa using h, rfl⟩
  · exact .inl rfl

theorem startWarm_phase (cause : Nat) (s : State) : (startWarm cause s).phase = .quiesce :=
  phase_of_kept (startWarm_kept cause s)

theorem quiesceEnd_phase (bound : Bool) (s : State) :
    (quiesceEnd bound s).phase = s.phase ∨ (s.phase = .quiesce ∧ (quiesceEnd bound s).phase = .warmInit) := by
  unfold quiesceEnd
  split
  · exact .inl rfl
  · next h => exact .inr ⟨by simp_all, rfl⟩

/-- A warm reset starts from the running phase alone; what else a guarded command does here leaves the phase. -/
theorem whenRunning_startsWarm {f : State → State} {right : Prop} (s : State)
    (h : (f s).phase = s.phase ∨ (right ∧ (f s).phase = .quiesce)) :
    (whenRunning f s).phase = s.phase ∨ (right ∧ s.phase = .running ∧ (whenRunning f s).phase = .quiesce) := by
  by_cases hs : s.phase = .running
  · rw [whenRunning_of_running hs]
    exact h.imp_right fun ⟨hright, hf⟩ => ⟨hright, hs, hf⟩
  · rw [whenRunning_of_not_running hs]
    exact .inl rfl

theorem keyed_phase (right : Prop) [Decidable right] (s : State) :
    ((if right then startWarm 2 else refuseWrite 0x80 4) s).phase = s.phase ∨
    (right ∧ ((if right then startWarm 2 else refuseWrite 0x80 4) s).phase = .quiesce) := by
  split
  · next h => exact .inr ⟨h, startWarm_phase 2 s⟩
  · exact .inl rfl

theorem onBit_keyed_phase (v : Word) (s : State) :
    let f := onBit v 0 (if bitsOf v 16 16 = 0xA5C3 then startWarm 2 else refuseWrite 0x80 4)
    (f s).phase = s.phase ∨ ((bitOf v 0 = true ∧ bitsOf v 16 16 = 0xA5C3) ∧ (f s).phase = .quiesce) := by
  unfold onBit
  split
  · next hv => exact (keyed_phase _ s).imp_right fun ⟨hkey, h⟩ => ⟨⟨hv, hkey⟩, h⟩
  · exact .inl rfl

theorem registerWrite_resetKey_phase (width : Nat) (v : Word) (s : State) :
    (registerWrite 0x80 width v s).phase = s.phase ∨
    ((width = 4 ∧ bitOf v 0 = true ∧ bitsOf v 16 16 = 0xA5C3) ∧ s.phase = .running ∧
      (registerWrite 0x80 width v s).phase = .quiesce) := by
  by_cases hw : width = 4
  · rw [hw, registerWrite_resetKey]
    exact (whenRunning_startsWarm s (onBit_keyed_phase v s)).imp_right fun ⟨h, hs, hq⟩ => ⟨⟨rfl, h⟩, hs, hq⟩
  · rw [registerWrite_of_not_word (.inl hw)]
    exact .inl (phase_of_base (windowWrite_base _ _ _ _ _ fun _ => rfl))

end Sys2Proof.Machine

namespace Sys2Proof.Proofs

open Sys2Proof.Machine

/-- Settles O4: a command that keeps all of `Standing` keeps the phase, and each of the few of `MovesStanding` has its own lemma
about where it takes it. -/
theorem phaseMovesOnlyByResets : Obligations.PhaseMovesOnlyByResets := by
  intro c s t ht
  by_cases hc : MovesStanding c
  swap
  · obtain ⟨u, hu, hbase⟩ := exec_keeps_standing hc s
    cases hu.symm.trans ht
    exact .inl (phase_of_base hbase)
  cases hc with
  | coldReset short =>
    cases ht
    exact (coldReset_phase short s).imp_right fun h => .inl ⟨⟨short, rfl⟩, h⟩
  | coldResetRelease =>
    cases ht
    split
    · next h => exact .inr (.inr (.inl ⟨rfl, h, rfl⟩))
    · exact .inl rfl
  | initDone =>
    cases ht
    exact (initDone_phase s).imp_right fun ⟨hs, h⟩ => .inr (.inr (.inl ⟨rfl, hs, h⟩))
  | warmPin =>
    cases ht
    have h := whenRunning_startsWarm (right := True) s (.inr ⟨trivial, startWarm_phase 1 s⟩)
    exact h.imp_right fun ⟨_, hs, hq⟩ => .inr (.inr (.inr (.inl ⟨.inl rfl, hs, hq⟩)))
  | warmKey key =>
    cases ht
    exact (whenRunning_startsWarm s (keyed_phase (key = 0xA5C3) s)).imp_right fun ⟨hkey, hs, hq⟩ =>
      .inr (.inr (.inr (.inl ⟨.inr (.inl (congrArg Instr.warmReset hkey)), hs, hq⟩)))
  | quiesceEnd bound =>
    cases ht
    exact (quiesceEnd_phase bound s).imp_right fun ⟨hs, h⟩ => .inr (.inr (.inr (.inr (.inl ⟨⟨bound, rfl⟩, hs, h⟩))))
  | supplyOff =>
    cases ht
    exact .inr (.inr (.inr (.inr (.inr (.inr ⟨rfl, rfl⟩)))))
  | timeStep q idx =>
    cases ht
    exact .inl (whenRunning_phase s (atTurn_phase q idx 0x60 s fun a => timeStep_phase a s))
  | timeRate q idx =>
    cases ht
    exact .inl (whenRunning_phase s (atTurn_phase q idx 0x61 s fun a => timeRate_phase a s))
  | keyWrite width v =>
    cases (exec_registerWrite 0x80 width v s).symm.trans ht
    refine (registerWrite_resetKey_phase width v s).imp_right fun ⟨⟨hw, hbit, hkey⟩, hs, hq⟩ => ?_
    exact .inr (.inr (.inr (.inl ⟨.inr (.inr ⟨v, by rw [hw], hbit, hkey⟩), hs, hq⟩)))

end Sys2Proof.Proofs
end

section
/-! What reports, ended descriptors and frames, and the work of the quiesce phase leave: the lanes, and the cause of a warm reset
under way. One lemma an operation, as `f_kept`. -/

namespace Sys2Proof.Machine

/-- What no report and no end of a frame, descriptor or command changes: the lanes (R230–R240), and the cause that the quiesce phase
holds for the reset record (R51). -/
structure Aside where
  warmCause : Nat
  lanes : Table Lane

def State.aside (s : State) : Aside := { warmCause := s.hif.warmCause, lanes := s.lnk.lanes }

theorem lanes_of_aside {s t : State} (h : t.aside = s.aside) : t.lnk.lanes = s.lnk.lanes := congrArg Aside.lanes h

theorem warmCause_of_aside {s t : State} (h : t.aside = s.aside) : t.hif.warmCause = s.hif.warmCause := congrArg Aside.warmCause h

@[simp] theorem ite_aside (c : Prop) [Decidable c] (a b : State) :
    (if c then a else b).aside = if c then a.aside else b.aside := apply_ite State.aside c a b

@[simp] theorem foldl_aside {α : Type} (g : State → α → State) (h : ∀ x a, (g x a).aside = x.aside) (l : List α) (s : State) :
    (l.foldl g s).aside = s.aside := by
  induction l generalizing s with
  | nil => rfl
  | cons a l ih => simp [List.foldl, ih, h]

@[simp] theorem eachBelow_aside (n : Nat) (f : Nat → State → State) (h : ∀ k x, (f k x).aside = x.aside) (s : State) :
    (eachBelow n f s).aside = s.aside := by
  simp [eachBelow, h]

@[simp] theorem State.modHif_aside (f : Hif → Hif) (h : ∀ x, (f x).warmCause = x.warmCause) (s : State) :
    (s.modHif f).aside = s.aside := by simp [State.modHif, State.aside, h]

@[simp] theorem State.modLnk_aside (f : Lnk → Lnk) (h : ∀ x, (f x).lanes = x.lanes) (s : State) :
    (s.modLnk f).aside = s.aside := by simp [State.modLnk, State.aside, h]

@[simp] theorem State.modErr_aside (f : Err → Err) (s : State) : (s.modErr f).aside = s.aside := by rfl

theorem takeToken_aside {code : Nat} {s t : State} (h : takeToken code s = some t) : t.aside = s.aside := by
  simp only [takeToken] at h
  split at h
  · cases h; rfl
  · split at h
    · cases h
    · cases h; rfl

@[simp] theorem State.modFab_aside (f : Fab → Fab) (s : State) : (State.modFab f s).aside = s.aside := by rfl
@[simp] theorem State.modTpt_aside (f : Tpt → Tpt) (s : State) : (State.modTpt f s).aside = s.aside := by rfl
@[simp] theorem State.modGnt_aside (f : Gnt → Gnt) (s : State) : (State.modGnt f s).aside = s.aside := by rfl
@[simp] theorem State.modRng_aside (f : Rng → Rng) (s : State) : (State.modRng f s).aside = s.aside := by rfl
@[simp] theorem State.modPgr_aside (f : Pgr → Pgr) (s : State) : (State.modPgr f s).aside = s.aside := by rfl
@[simp] theorem State.modPwr_aside (f : Pwr → Pwr) (s : State) : (State.modPwr f s).aside = s.aside := by rfl
@[simp] theorem State.modMon_aside (f : Mon → Mon) (s : State) : (State.modMon f s).aside = s.aside := by rfl
@[simp] theorem modQueue_aside (q : Nat) (f : Queue → Queue) (s : State) : (modQueue q f s).aside = s.aside := by rfl
@[simp] theorem modPort_aside (n : Nat) (f : Port → Port) (s : State) : (modPort n f s).aside = s.aside := by rfl
@[simp] theorem modGTree_aside (t : Nat) (f : GTree → GTree) (s : State) : (modGTree t f s).aside = s.aside := by rfl
@[simp] theorem modRec_aside (h : Nat) (f : TermRec → TermRec) (s : State) : (modRec h f s).aside = s.aside := by rfl
@[simp] theorem modRTree_aside (t : Nat) (f : RTree → RTree) (s : State) : (modRTree t f s).aside = s.aside := by rfl
@[simp] theorem modFlow_aside (k : Nat) (f : Flow → Flow) (s : State) : (modFlow k f s).aside = s.aside := by rfl
@[simp] theorem modSlot_aside (i : Nat) (f : CSlot → CSlot) (s : State) : (modSlot i f s).aside = s.aside := by rfl
@[simp] theorem modCPort_aside (c : Nat) (f : CPort → CPort) (s : State) : (modCPort c f s).aside = s.aside := by rfl
@[simp] theorem modDom_aside (d : Nat) (f : Dom → Dom) (s : State) : (modDom d f s).aside = s.aside := by rfl
@[simp] theorem access_aside (d : Nat) (s : State) : (access d s).aside = s.aside := by simp [access]
@[simp] theorem drawn_aside (s : State) : (drawn s).aside = s.aside := by rfl
@[simp] theorem addCtr_aside (off n : Nat) (s : State) : (addCtr off n s).aside = s.aside := by rfl
@[simp] theorem dropReads_aside (p : RdUse → Bool) (s : State) : (dropReads p s).aside = s.aside := by simp [dropReads]

@[simp] theorem issueWrite_aside (use : WrUse) (addr len : Nat) (ws : List Word) (s : State) :
    (issueWrite use addr len ws s).aside = s.aside := by simp [issueWrite]

@[simp] theorem startWake_aside (d : Nat) (s : State) : (startWake d s).aside = s.aside := by simp [startWake]

@[simp] theorem logWrite_aside (code lev : Nat) (a0 a1 : Word) (s : State) :
    (logWrite code lev a0 a1 s).aside = s.aside := by simp [logWrite]

@[simp] theorem indexWrite_aside (q : Nat) (v : Word) (s : State) : (indexWrite q v s).aside = s.aside := by simp [indexWrite]

@[simp] theorem indexTry_aside (q : Nat) (s : State) :
    (indexTry q s).aside = s.aside := by simp only [indexTry]; (repeat' split) <;> simp [*]

@[simp] theorem indexOut_aside (q : Nat) (s : State) : (indexOut q s).aside = s.aside := by simp [indexOut]
@[simp] theorem writeEvent_aside (q : Nat) (e : EvEnt) (s : State) : (writeEvent q e s).aside = s.aside := by simp [writeEvent]
@[simp] theorem toRing_aside (q : Nat) (e : EvEnt) (s : State) : (toRing q e s).aside = s.aside := by simp [toRing]

@[simp] theorem report_aside (e stamp : Word) (code : Nat) (a0 a1 : Word) (s : State) :
    (report e stamp code a0 a1 s).aside = s.aside := by
  simp only [report]
  split
  · simp
  · split
    · simp
    · rename_i h
      simp [takeToken_aside h]

@[simp] theorem emitFuel_aside (n code : Nat) (a0 a1 : Word) (s : State) : (emitFuel n code a0 a1 s).aside = s.aside := by
  induction n generalizing code a0 a1 s with
  | zero => simp [emitFuel]
  | succ n ih => simp [emitFuel, ih]

@[simp] theorem emit_aside (code : Nat) (a0 a1 : Word) (s : State) : (emit code a0 a1 s).aside = s.aside := by simp [emit]

@[simp] theorem withHalves_aside (f : State → State) (s : State) (h_f : ∀ x, (f x).aside = x.aside) :
    (withHalves f s).aside = s.aside := by simp [withHalves, h_f]

@[simp] theorem issueIndex_aside (q : Nat) (s : State) :
    (issueIndex q s).aside = s.aside := withHalves_aside _ _ (indexOut_aside q)

@[simp] theorem perf_aside (k n : Nat) (s : State) : (perf k n s).aside = s.aside := by simp [perf]
@[simp] theorem stat_aside (n k v : Nat) (s : State) : (stat n k v s).aside = s.aside := by simp [stat]
@[simp] theorem lstat_aside (p k v : Nat) (s : State) : (lstat p k v s).aside = s.aside := by simp [lstat]

@[simp] theorem fabWrite_aside (use : WrUse) (addr len : Nat) (ws : List Word) (s : State) :
    (fabWrite use addr len ws s).aside = s.aside := by simp [fabWrite]

@[simp] theorem modTx_aside (q : Nat) (idx : Word) (f : Tx → Tx) (s : State) :
    (modTx q idx f s).aside = s.aside := by simp [modTx]

@[simp] theorem dropTx_aside (q : Nat) (idx : Word) (s : State) : (dropTx q idx s).aside = s.aside := by simp [dropTx]

@[simp] theorem modAdm_aside (q : Nat) (idx : Word) (f : Adm → Adm) (s : State) :
    (modAdm q idx f s).aside = s.aside := by simp [modAdm]

@[simp] theorem dropAdm_aside (q : Nat) (idx : Word) (s : State) : (dropAdm q idx s).aside = s.aside := by simp [dropAdm]

@[simp] theorem enterLet_aside (q : Nat) (req : Word) (st : Nat) (s : State) :
    (enterLet q req st s).aside = s.aside := by simp [enterLet]

@[simp] theorem readyCpl_aside (ring : Nat) (c : Cpl) (s : State) : (readyCpl ring c s).aside = s.aside := by simp [readyCpl]
@[simp] theorem startEpisode_aside (ring : Nat) (s : State) : (startEpisode ring s).aside = s.aside := by simp [startEpisode]

@[simp] theorem leaveFlight_aside (c : Cpl) (s : State) :
    (leaveFlight c s).aside = s.aside := by unfold leaveFlight; split <;> simp [*]

@[simp] theorem writeCpl_aside (ring : Nat) (c : Cpl) (s : State) : (writeCpl ring c s).aside = s.aside := by simp [writeCpl]

@[simp] theorem drainPend_aside (n q : Nat) (s : State) : (drainPend n q s).aside = s.aside := by
  induction n generalizing s with
  | zero => rfl
  | succ n ih =>
    simp only [drainPend]
    (repeat' split) <;> simp [ih]

@[simp] theorem writeTrace_aside (ws : List Word) (s : State) : (writeTrace ws s).aside = s.aside := by simp [writeTrace]
@[simp] theorem traceOut_aside (ws : List Word) (s : State) : (traceOut ws s).aside = s.aside := by simp [traceOut]

@[simp] theorem traceTx_aside (t : Tx) (fate : Nat) (s : State) :
    (traceTx t fate s).aside = s.aside := by unfold traceTx; split <;> simp [*]

@[simp] theorem traceUs_aside (u : Us) (fate : Nat) (s : State) :
    (traceUs u fate s).aside = s.aside := by unfold traceUs; split <;> simp [*]

@[simp] theorem freeDs_aside (p cells pool : Nat) (s : State) : (freeDs p cells pool s).aside = s.aside := by simp [freeDs]
@[simp] theorem freeUs_aside (p cells pool : Nat) (s : State) : (freeUs p cells pool s).aside = s.aside := by simp [freeUs]

@[simp] theorem releaseCtx_aside (t : Tx) (s : State) :
    (releaseCtx t s).aside = s.aside := by simp only [releaseCtx]; (repeat' split) <;> simp [*]

@[simp] theorem flushTx_aside (q : Nat) (s : State) : (flushTx q s).aside = s.aside := by simp [flushTx]
@[simp] theorem countDrained_aside (q n : Nat) (s : State) : (countDrained q n s).aside = s.aside := by simp [countDrained]

@[simp] theorem admEnd_aside (q : Nat) (idx : Word) (st : Nat) (results : List Word) (s : State) :
    (admEnd q idx st results s).aside = s.aside := by unfold admEnd; split <;> simp [*]

@[simp] theorem drainDone_aside (q : Nat) (s : State) :
    (drainDone q s).aside = s.aside := by simp only [drainDone]; (repeat' split) <;> simp [*]

@[simp] theorem txEnd_aside (q : Nat) (idx : Word) (st fate : Nat) (s : State) :
    (txEnd q idx st fate s).aside = s.aside := by unfold txEnd; split <;> simp [*]

@[simp] theorem admDone_aside (q : Nat) (idx : Word) (st : Nat) (results : List Word) (s : State) :
    (admDone q idx st results s).aside = s.aside := by simp [admDone]

@[simp] theorem stopQueue_aside (q : Nat) (s : State) : (stopQueue q s).aside = s.aside := by simp [stopQueue]

@[simp] theorem armDone_aside (h : Nat) (results : List Word) (s : State) :
    (armDone h results s).aside = s.aside := by unfold armDone; split <;> simp [*]

@[simp] theorem setPend_aside (h : Nat) (on : Bool) (s : State) : (setPend h on s).aside = s.aside := by simp [setPend]

@[simp] theorem regAction_aside (h inp act : Nat) (m : Option Measure) (s : State) :
    (regAction h inp act m s).aside = s.aside := by unfold regAction; split <;> simp [*]

@[simp] theorem takeInput_aside (h inp : Nat) (m : Option Measure) (s : State) :
    (takeInput h inp m s).aside = s.aside := by simp [takeInput]

@[simp] theorem blockInput_aside (h inp : Nat) (m : Option Measure) (s : State) :
    (blockInput h inp m s).aside = s.aside := by simp [blockInput]

@[simp] theorem reacted_aside (act : Bool) (s : State) : (reacted act s).aside = s.aside := by simp [reacted]
@[simp] theorem dropExpect_aside (t : Nat) (s : State) : (dropExpect t s).aside = s.aside := by simp [dropExpect]

@[simp] theorem holdNow_aside (p : Nat) (s : State) :
    (holdNow p s).aside = s.aside := by simp only [holdNow]; (repeat' split) <;> simp [*]

@[simp] theorem react_aside (r : Nat) (a0 : Word) (s : State) :
    (react r a0 s).aside = s.aside := by unfold react; split <;> simp [*]

@[simp] theorem raise_aside (code : Nat) (a0 a1 : Word) (s : State) : (raise code a0 a1 s).aside = s.aside := by simp [raise]
@[simp] theorem modOp_aside (f : Nat) (g : PageOp → PageOp) (s : State) : (modOp f g s).aside = s.aside := by simp [modOp]
@[simp] theorem addOp_aside (o : PageOp) (s : State) : (addOp o s).aside = s.aside := by simp [addOp]

@[simp] theorem cipherReqs_aside (n : Nat) (s : State) : (cipherReqs n s).aside = s.aside := by
  induction n generalizing s with
  | zero => rfl
  | succ n ih => simp only [cipherReqs]; (repeat' split) <;> simp [ih]

@[simp] theorem cipherReq_aside (s : State) : (cipherReq s).aside = s.aside := by simp [cipherReq]

@[simp] theorem pageOut_aside (i : Nat) (victim clean : Bool) (s : State) :
    (pageOut i victim clean s).aside = s.aside := by simp [pageOut]

@[simp] theorem startPageOut_aside (i : Nat) (victim : Bool) (s : State) :
    (startPageOut i victim s).aside = s.aside := by simp [startPageOut]

@[simp] theorem pushTx_aside (c : Nat) (m : Msg) (s : State) : (pushTx c m s).aside = s.aside := by simp [pushTx]
@[simp] theorem pushOwn_aside (c hops : Nat) (b : Body) (s : State) : (pushOwn c hops b s).aside = s.aside := by simp [pushOwn]
@[simp] theorem wakeLanes_aside (c : Nat) (s : State) : (wakeLanes c s).aside = s.aside := by simp [wakeLanes]

@[simp] theorem storeFree_aside (c id : Nat) (s : State) :
    (storeFree c id s).aside = s.aside := by unfold storeFree; split <;> simp [*]

@[simp] theorem dropUs_aside (id : Nat) (s : State) :
    (dropUs id s).aside = s.aside := by unfold dropUs; (repeat' split) <;> simp [*]

@[simp] theorem countWritten_aside (u : Us) (s : State) :
    (countWritten u s).aside = s.aside := by unfold countWritten; split <;> simp [*]

@[simp] theorem writeBacks_aside (s : State) : (writeBacks s).aside = s.aside := by simp [writeBacks]
@[simp] theorem wakeDom_aside (d : Nat) (s : State) : (wakeDom d s).aside = s.aside := by simp [wakeDom]
@[simp] theorem usSent_aside (id : Nat) (s : State) : (usSent id s).aside = s.aside := by unfold usSent; split <;> simp [*]

@[simp] theorem finishMsg_aside (c : Nat) (s : State) :
    (finishMsg c s).aside = s.aside := by unfold finishMsg; (repeat' split) <;> simp [*]

@[simp] theorem portStop_aside (c : Nat) (s : State) : (portStop c s).aside = s.aside := by simp [portStop]
@[simp] theorem portDown_aside (l : Nat) (s : State) : (portDown l s).aside = s.aside := by simp [portDown]
@[simp] theorem cutMessage_aside (l : Nat) (s : State) : (cutMessage l s).aside = s.aside := by simp [cutMessage]
@[simp] theorem drainRing_aside (r : Nat) (s : State) : (drainRing r s).aside = s.aside := by simp [drainRing]
@[simp] theorem drainRings_aside (s : State) : (drainRings s).aside = s.aside := by simp [drainRings]
@[simp] theorem flushUpstream_aside (s : State) : (flushUpstream s).aside = s.aside := by simp [flushUpstream]
@[simp] theorem quiesceCaddie_aside (s : State) : (quiesceCaddie s).aside = s.aside := by simp [quiesceCaddie]

end Sys2Proof.Machine
end

section
/-! The warm reset and the loss of the supply (R39, R49, R51–R53): what the quiesce phase leaves, and what a warm reset keeps. -/

namespace Sys2Proof.Machine

/-! Tables: a part picked by key, and every entry changed. -/

theorem tfind_filter_key {α : Type} (p : Nat → Bool) (t : Table α) (k : Nat) :
    tfind (t.filter fun e => p e.1) k = if p k then tfind t k else none := by
  induction t with
  | nil => simp [tfind]
  | cons e r ih =>
    obtain ⟨j, a⟩ := e
    by_cases hj : j = k
    · subst hj
      cases hp : p j <;> simp [tfind, hp, ih]
    · cases hp : p j <;> simp [tfind, hp, ih, hj]

theorem tget_filter_key {α : Type} (p : Nat → Bool) (t : Table α) (k : Nat) (d : α) :
    tget (t.filter fun e => p e.1) k d = if p k then tget t k d else d := by
  simp only [tget, tfind_filter_key]
  split <;> rfl

/-- What holds of the default and of every changed entry holds wherever the changed table is read. -/
theorem tget_tmap_all {α : Type} [DecidableEq α] (P : α → Prop) {d : α} {f : α → α} (hd : P d) (hf : ∀ a, P (f a))
    (t : Table α) (k : Nat) : P (tget (tmap d f t) k d) := by
  induction t with
  | nil => exact hd
  | cons e r ih =>
    by_cases he : f e.2 = d
    · simpa [tmap, he] using ih
    · by_cases hk : e.1 = k
      · simpa [tmap, he, tget, tfind, hk] using hf e.2
      · simpa [tmap, he, tget, tfind, hk] using ih

/-! The quiesce phase. -/

theorem regs_of_kept {s t : State} (h : t.kept = s.kept) : t.regs = s.regs :=
  congrArg (fun k => k.setup.regs) h

theorem now32_of_base {s t : State} (h : t.kept.base = s.kept.base) : now32 t.tim = now32 s.tim := by
  have hsec : t.tim.sec = s.tim.sec := congrArg Standing.sec h
  have hns : t.tim.ns = s.tim.ns := congrArg Standing.ns h
  have hfrac : t.tim.frac = s.tim.frac := congrArg Standing.frac h
  simp only [now32, hsec, hns, hfrac]

theorem startWarm_aside (cause : Nat) (s : State) :
    (startWarm cause s).aside = State.aside { s with hif := { s.hif with warmCause := cause } } := by
  simp [startWarm, flushDescriptors]
  rfl

theorem warmReset_of_wrong_key {key : BitVec 16} (h : key ≠ 0xA5C3) (s : State) :
    exec (.warmReset key) s = .next (whenRunning (refuseWrite 0x80 4) s) :=
  congrArg (fun f => Host.Outcome.next (whenRunning f s)) (if_neg h)

/-! The end of the quiesce phase. -/

/-- The flows whose changed contexts were not written back, marked in the repair map (R53). -/
def markLost (s : State) : State :=
  (lostFlows s).foldl (fun s f => repairSet f (Nat.lor (tget s.pgr.repair f 0) 1) s) s

/-- The marks, and their entry in the error log. -/
def logLost (s : State) : State :=
  match lostFlows s with
  | f :: _ => logWrite 0xA40 3 (wordOf f) (wordOf (lostFlows s).length) (markLost s)
  | [] => markLost s

/-- What the quiesce phase leaves in the reset record. -/
def lossRecord (bound : Bool) (s : State) : Hif :=
  { cause := s.hif.warmCause, quiesceTimeout := bound, unwritten := sat 0xFFFF (unwrittenCpls s),
    wbLost := sat 0xFFFF (lostFlows s).length, warmRx := s.hif.warmRx }

theorem foldl_repairSet (g : State → Nat → Nat) (l : List Nat) (s : State) :
    ∃ r, l.foldl (fun s f => repairSet f (g s f) s) s = { s with pgr := { s.pgr with repair := r } } := by
  induction l generalizing s with
  | nil => exact ⟨s.pgr.repair, rfl⟩
  | cons f l ih => exact ih (repairSet f (g s f) s)

theorem logWrite_err (code lev : Nat) (a0 a1 : Word) (s : State) :
    ∃ e, logWrite code lev a0 a1 s = { s with err := e } ∧ e.playbook = s.err.playbook ∧ e.pbBad = s.err.pbBad := by
  unfold logWrite
  extract_lets recent
  split
  · exact ⟨s.err, rfl, rfl, rfl⟩
  · exact ⟨_, rfl, rfl, rfl⟩

/-- The marks and the log entry change the caddie and the error unit alone, and neither the playbook nor its errors. -/
theorem logLost_frame (s : State) : ∃ r e, logLost s = { s with pgr := { s.pgr with repair := r }, err := e } ∧
    e.playbook = s.err.playbook ∧ e.pbBad = s.err.pbBad := by
  obtain ⟨r, hr⟩ := foldl_repairSet (fun s f => Nat.lor (tget s.pgr.repair f 0) 1) (lostFlows s) s
  unfold logLost markLost
  rw [hr]
  split
  · obtain ⟨e, he, hbook, hbad⟩ := logWrite_err 0xA40 3 (wordOf _) (wordOf (lostFlows s).length)
      { s with pgr := { s.pgr with repair := r } }
    exact ⟨r, e, he, hbook, hbad⟩
  · exact ⟨r, s.err, rfl, rfl, rfl⟩

theorem quiesceEnd_of_done {s : State} {bound : Bool} (hs : s.phase = .quiesce) (h : bound = true ∨ quiesceDone s = true) :
    quiesceEnd bound s = warmState (lossRecord bound s) (logLost s) := by
  have hdone : (!bound && !quiesceDone s) = false := by
    obtain h | h := h
    · simp [h]
    · simp [h]
  simp only [quiesceEnd, hs, hdone]
  rfl

theorem quiesceEnd_waits {s : State} {bound : Bool} (h : s.phase ≠ .quiesce ∨ (bound = false ∧ quiesceDone s = false)) :
    quiesceEnd bound s = s := by
  unfold quiesceEnd
  obtain hs | ⟨rfl, hdone⟩ := h
  · simp [hs]
  · simp [hdone]

/-! What a warm reset keeps (R49). -/

theorem reg_warmState (h : Hif) (s : State) (off : Nat) :
    reg (warmState h s) off = if off / 65536 = 7 ∨ off = 0xA0004 then reg s off else regReset off := by
  have hkeep := tget_filter_key (fun k => decide (k / 65536 = 7 ∨ k = 0xA0004)) s.regs off (regReset off)
  simpa [reg, warmState] using hkeep

theorem getCtr_warmState (h : Hif) (s : State) (k : Nat) :
    getCtr (warmState h s) k = if k / 65536 = 7 then getCtr s k else 0 := by
  have hkeep := tget_filter_key (fun j => decide (j / 65536 = 7)) s.ctrs k (0 : BitVec 48)
  simpa [getCtr, warmState] using hkeep

/-! Without supply the block does nothing (R39). -/

theorem supplyOff_fallAt (s : State) (w : Nat) : (tget (supplyOff s).tim.whistles w {}).fallAt = none := by
  have hall := tget_tmap_all (fun x : Whistle => x.fallAt = none) (d := {}) (f := fun x => { x with fallAt := none }) rfl
    (fun _ => rfl) s.tim.whistles w
  exact hall

theorem step_of_off {s : State} (hs : s.phase = .off) (hp : s.pending = []) : step s = .next s := by
  simp [step, hp, tick, timeAlive, hs]

end Sys2Proof.Machine

namespace Sys2Proof.Proofs

open Sys2Proof.Machine

/-- Settles O11: both ways into the quiesce phase are `startWarm`, whose units' work keeps the cause, the registers and the time
base; its end is `warmState` of the marked and logged losses (`logLost_frame`), which keeps the tables' parts that R49 names. -/
theorem warmResetAndSupply : Obligations.WarmResetAndSupply := by
  unfold Obligations.WarmResetAndSupply
  intro started
  have hstarted : ∀ cause s, startWarm cause s = started cause s := fun _ _ => rfl
  clear_value started
  refine ⟨?pin, ?key, ?started, ?wrongKey, ?notRunning, ?ends, ?waits, ?off⟩
  case pin =>
    intro s hs
    exact next_whenRunning hs (hstarted 1 s)
  case key =>
    intro s hs
    rw [exec_warmReset]
    exact next_whenRunning hs (hstarted 2 s)
  case started =>
    intro s cause
    have hkept := startWarm_kept cause s
    rw [← hstarted]
    have hcause := warmCause_of_aside (startWarm_aside cause s)
    have hregs := regs_of_kept hkept
    have hnow := now32_of_base (congrArg Kept.base hkept)
    exact ⟨startWarm_phase cause s, hcause, hregs, hnow⟩
  case wrongKey =>
    intro s key hs hkey
    rw [warmReset_of_wrong_key hkey]
    exact next_whenRunning hs rfl
  case notRunning =>
    intro s key hs
    exact ⟨congrArg Host.Outcome.next (whenRunning_of_not_running hs _),
      congrArg Host.Outcome.next (whenRunning_of_not_running hs _)⟩
  case ends =>
    intro s t bound hs h ht
    replace ht : t = warmState (lossRecord bound s) (logLost s) := ht
    have hexec : exec (.quiesceEnd bound) s = .next t := by
      rw [ht, ← quiesceEnd_of_done hs h]
      rfl
    obtain ⟨r, e, hlost, hbook, hbad⟩ := logLost_frame s
    rw [hlost] at ht
    subst ht
    refine ⟨hexec, rfl, rfl, rfl, rfl, hbook, hbad, fun off hoff => ?_, fun off h7 hA => ?_, fun k hk => ?_, fun k hk => ?_,
      rfl, rfl, rfl, rfl, rfl, rfl, rfl, rfl, rfl, rfl, rfl, rfl, rfl, rfl⟩
    · rw [reg_warmState, if_pos hoff]
      rfl
    · rw [reg_warmState, if_neg (not_or.2 ⟨h7, hA⟩)]
    · rw [getCtr_warmState, if_pos hk]
      rfl
    · rw [getCtr_warmState, if_neg hk]
  case waits =>
    intro s bound h
    exact congrArg Host.Outcome.next (quiesceEnd_waits h)
  case off =>
    rintro s t rfl
    exact ⟨rfl, fun w => supplyOff_fallAt s w, step_of_off rfl⟩

end Sys2Proof.Proofs
end

section
/-! A port's clock (R43, R57): what its loss and a measurement do, port by port, and the degraded-signal indication (R35). -/

namespace Sys2Proof.Machine

/-- A change of a port's state is what it makes of that state. -/
theorem modPort_congr {p : Nat} {f g : Port → Port} {s : State} (h : f (getPort s p) = g (getPort s p)) :
    modPort p f s = modPort p g s := by
  unfold getPort at h
  simp only [modPort, State.modTpt, h]

section PortClock
variable {s : State} {p : Nat}

theorem partnerGone_none (h : rebindTree s p = none) : partnerGone p s = s := by simp [partnerGone, h]

theorem partnerGone_some {t : Nat} (h : rebindTree s p = some t) : partnerGone p s = rehomeFail t 0 s := by
  simp [partnerGone, h]

theorem clockGone_disabled (h : (getPort s p).enabled = false) (cause : Nat) : clockGone p cause s = s := by
  simp [clockGone, h]

/-- The port shows its clock lost: its frame in transfer is over, and the loss is reported. -/
def clockLostHere (p cause : Nat) (s : State) : State :=
  let v := modPort p (fun P => { P with clockLost := true, burst := none }) s
  raise 0x216 (wordOf p) (wordOf cause) (if (getPort s p).xfer.isSome then downLost p (stat p 13 1 v) else v)

theorem clockGone_enabled (hen : (getPort s p).enabled = true) (hlost : (getPort s p).clockLost = false) (cause : Nat) :
    clockGone p cause s =
      match treeOn (clockLostHere p cause s) p with
      | none => clockLostHere p cause s
      | some t =>
        if (getProt (flushQueues t 7 (clockLostHere p cause s)) t).phase = 2 then
          rehomeFail t 5 (flushQueues t 7 (clockLostHere p cause s))
        else flushQueues t 7 (clockLostHere p cause s) := by
  simp only [clockGone, hen, hlost, getPort_modPort]
  rfl

theorem clockMeasure_good {khz : Nat} (hlo : 248000 ≤ khz) (hhi : khz ≤ 324000) :
    clockMeasure p khz s =
      let u := modPort p (fun P => { P with freqMhz := khz / 1000, present := true, good := true }) s
      if (getPort s p).good = false ∧ (getPort s p).clockLost = true then raise 0x217 (wordOf p) (wordOf (khz / 1000)) u
      else u := by
  have hsat : sat 1023 (khz / 1000) = khz / 1000 := if_pos (by omega)
  simp [clockMeasure, hsat, hlo, hhi, show khz ≠ 0 by omega]

theorem clockMeasure_bad {khz : Nat} (hpos : 0 < khz) (hrange : khz < 248000 ∨ 324000 < khz) :
    clockMeasure p khz s = partnerGone p (clockGone p 1 (modPort p (fun P =>
      { P with freqMhz := sat 1023 (khz / 1000), present := true, good := false, lostSeen := P.lostSeen || P.good }) s)) := by
  have hrange' : ¬ (248000 ≤ khz ∧ khz ≤ 324000) := by omega
  simp only [clockMeasure, hrange', if_neg (show khz ≠ 0 by omega), decide_false, Bool.not_false, Bool.and_true, if_true]
  exact congrArg (fun u => partnerGone p (clockGone p 1 u)) (modPort_congr rfl)

end PortClock

theorem indication_lost {s : State} {p : Fin 64} (hreads : reads (getPort s p) = true) (f : State → State) :
    indication ⟨p, true⟩ f s = raise 0xA30 8 (wordOf p) s :=
  if_pos hreads

end Sys2Proof.Machine

namespace Sys2Proof.Proofs

open Sys2Proof.Machine

/-- Settles O12: an enabled port's loss is `clockLostHere` and what it means for the tree homed there (`clockGone_enabled`), a
disabled one's is in the register alone (`clockGone_disabled`); a measurement is one of the two by its range
(`clockMeasure_good`, `clockMeasure_bad`). -/
theorem portClock : Obligations.PortClock := by
  unfold Obligations.PortClock
  intro gone partner
  refine ⟨?partner, ?disabled, ?enabled, ?noEdges, ?stays, ?restored, ?outOfRange, ?rise, ?fall, ?dropped⟩
  case partner =>
    intro p u
    exact ⟨partnerGone_none, fun t => partnerGone_some⟩
  case disabled =>
    intro s p hs hoff
    refine next_whenRunning hs (congrArg (partnerGone p) (clockGone_disabled ?_ 0))
    rw [getPort_modPort, hoff]
  case enabled =>
    intro s v u p hs hon hlost hv hu
    have hw : getPort (modPort p gone s) p = gone (getPort s p) := getPort_modPort _ _ _
    have hu' : clockLostHere p 0 (modPort p gone s) = u := by
      rw [hu, hv, clockLostHere, hw]
      rfl
    have hgone := clockGone_enabled (s := modPort p gone s) (p := p) (hw ▸ hon) (hw ▸ hlost) 0
    rw [hu'] at hgone
    refine ⟨fun hnone => ?_, fun t ht hphase => ?_, fun t ht hphase => ?_⟩
    · rw [hnone] at hgone
      exact next_whenRunning hs (congrArg (partnerGone p) hgone)
    · simp only [ht, if_neg hphase] at hgone
      exact next_whenRunning hs (congrArg (partnerGone p) hgone)
    · simp only [ht, if_pos hphase] at hgone
      exact next_whenRunning hs (congrArg (partnerGone p) hgone)
  case noEdges =>
    intro s p hs
    rfl
  case stays =>
    intro s p khz hs hlo hhi h
    refine next_whenRunning hs ((clockMeasure_good hlo hhi).trans (if_neg ?_))
    rintro ⟨hbad, hgone⟩
    simp [hbad, hgone] at h
  case restored =>
    intro s p khz hs hlo hhi hgone hbad
    exact next_whenRunning hs ((clockMeasure_good hlo hhi).trans (if_pos ⟨hbad, hgone⟩))
  case outOfRange =>
    intro s p khz hs hpos hrange hoff
    refine next_whenRunning hs ((clockMeasure_bad hpos hrange).trans (congrArg (partnerGone p) (clockGone_disabled ?_ 1)))
    rw [getPort_modPort, hoff]
  case rise =>
    intro s p hs hreads hgood
    refine next_whenRunning hs ?_
    simp [indication, handshake, degradedRise, hreads, hgood]
  case fall =>
    intro s p hs hreads hbad
    refine next_whenRunning hs ?_
    simp [indication, handshake, degradedFall, hreads, hbad]
  case dropped =>
    intro s p hs hreads
    exact ⟨next_whenRunning hs (indication_lost hreads _), next_whenRunning hs (indication_lost hreads _)⟩

end Sys2Proof.Proofs
end

section
/-! Offsets that no register occupies (R27): no status word, counter or stored field sits there, and a write there is refused. -/

namespace Sys2Proof.Machine

theorem tfind_of_not_mem {α : Type} {t : Table α} {k : Nat} (h : ∀ e ∈ t, e.1 ≠ k) : tfind t k = none := by
  induction t with
  | nil => rfl
  | cons e r ih =>
    rw [tfind, if_neg (h e List.mem_cons_self)]
    exact ih fun e he => h e (List.mem_cons_of_mem _ he)

/-! Which offsets a row of the map occupies. -/

theorem rowOf_ne_none {off : Nat} {r : RRow} (hr : r ∈ rowsAt off) (hholds : r.holds off = true) : rowOf off ≠ none :=
  fun hnone => List.find?_eq_none.1 hnone r hr hholds

/-- The rows of an offset's unit have one of `n` words from `base`. -/
def hasBlock (base n : Nat) : Bool :=
  ((rowsAt base).any fun r => r.base = base && r.n1 = n && r.s1 = 4 && r.s2 = 4 && r.n2 = 1) &&
    decide (base % 4 = 0 ∧ (base + 4 * n - 1) / 65536 = base / 65536)

theorem rowsAt_congr {a b : Nat} (h : a / 65536 = b / 65536) : rowsAt a = rowsAt b := by
  simp only [rowsAt, h]

theorem rowOf_ne_none_of_block {base n off : Nat} (hb : hasBlock base n = true) (hlo : base ≤ off) (hhi : off < base + 4 * n)
    (hword : off % 4 = 0) : rowOf off ≠ none := by
  simp only [hasBlock, Bool.and_eq_true, List.any_eq_true, decide_eq_true_eq] at hb
  obtain ⟨⟨r, hr, ⟨⟨⟨hbase, hn⟩, hs1⟩, hs2⟩, hn2⟩, halign, hunit⟩ := hb
  have hsame : off / 65536 = base / 65536 := by omega
  refine rowOf_ne_none (rowsAt_congr hsame ▸ hr) ?_
  by_cases h1 : n = 1
  · simp [RRow.holds, hbase, hn, hs2, hn2, h1, hlo]
    omega
  · simp [RRow.holds, hbase, hn, hs1, hs2, hn2, h1, hlo]
    omega

section Empty
variable {off : Nat} (hnone : rowOf off = none)
include hnone

theorem empty_ne {o : Nat} (ho : (rowOf o).isSome = true) : off ≠ o := by
  rintro rfl
  simp [hnone] at ho

theorem empty_outside {base n last : Nat} (hb : hasBlock base n = true) (hlast : last = base + 4 * n) (hword : off % 4 = 0) :
    ¬ (base ≤ off ∧ off < last) :=
  fun ⟨hlo, hhi⟩ => rowOf_ne_none_of_block hb hlo (hlast ▸ hhi) hword hnone

theorem empty_not_isCtr (hword : off % 4 = 0) : isCtr off = false := by
  have hgroups : ∀ g ∈ ctrGroups, hasBlock g.1 (2 * g.2) = true := by decide
  simp only [isCtr, List.any_eq_false, decide_eq_true_eq]
  exact fun g hg => empty_outside hnone (hgroups g hg) (by omega) hword

/-! What each unit's words read as at such an offset: its stored part, as no status word sits there. -/

theorem readHif_of_empty (hword : off % 4 = 0) (s : State) : readHif s off = reg s off := by
  have h40 := empty_ne hnone (o := 0x40) rfl
  have h44 := empty_ne hnone (o := 0x44) rfl
  have h84 := empty_ne hnone (o := 0x84) rfl
  have h88 := empty_ne hnone (o := 0x88) rfl
  have h8C := empty_ne hnone (o := 0x8C) rfl
  have h90 := empty_ne hnone (o := 0x90) rfl
  have h94 := empty_ne hnone (o := 0x94) rfl
  have h130 := empty_ne hnone (o := 0x130) rfl
  have hlost := empty_outside hnone (base := 0xC0) (n := 16) (last := 0x100) rfl rfl hword
  have hstates := empty_outside hnone (base := 0x1000) (n := 512) (last := 0x1800) rfl rfl hword
  simp only [readHif, h40, h44, h84, h88, h8C, h90, h94, h130, hlost, hstates, if_false]

/-- Word `j` of a row of the ports' blocks lies at `k` in each of them. -/
theorem empty_ne_port (hunit : off / 65536 = 1) (r : RRow) (j k : Nat)
    (hrow : decide (r ∈ rowsTpt ∧ r.s1 = 0x400 ∧ r.n1 = 64 ∧ r.s2 = 4 ∧ j < r.n2 ∧ r.base + 4 * j = 0x10000 + k ∧
      k < 0x400 ∧ 4 * j ≤ k) = true) : off % 0x400 ≠ k := by
  intro hoff
  obtain ⟨hr, hs1, hn1, hs2, hj, hbase, hlast, hle⟩ := of_decide_eq_true hrow
  refine rowOf_ne_none (show r ∈ rowsAt off by rwa [rowsAt, hunit]) ?_ hnone
  have hw : (off - r.base) % 0x400 = 4 * j := by omega
  simp [RRow.holds, hs1, hn1, hs2, hw, hj]
  omega

theorem readTpt_of_empty (hunit : off / 65536 = 1) (s : State) (n : Nat) : readTpt s n (off % 0x400) off = reg s off := by
  have hrow := empty_ne_port hnone hunit
  have h04 := hrow { base := 0x10004, s1 := 0x400, n1 := 64 } 0 0x04 rfl
  have h18 := hrow { base := 0x10018, s1 := 0x400, n1 := 64 } 0 0x18 rfl
  have h40 := hrow { base := 0x10040, s1 := 0x400, n1 := 64, fields := [fOf .w1c 18 1] } 0 0x40 rfl
  have h50 := hrow { base := 0x10050, s1 := 0x400, n1 := 64, n2 := 2 } 0 0x50 rfl
  have h54 := hrow { base := 0x10050, s1 := 0x400, n1 := 64, n2 := 2 } 1 0x54 rfl
  have h84 := hrow { base := 0x10084, s1 := 0x400, n1 := 64 } 0 0x84 rfl
  simp only [readTpt, h04, h18, h40, h50, h54, h84, if_false]

theorem readCls_of_empty (s : State) : readCls s off = reg s off := by
  have h04 := empty_ne hnone (o := 0x30004) rfl
  have h08 := empty_ne hnone (o := 0x30008) rfl
  have h0C := empty_ne hnone (o := 0x3000C) rfl
  have hind := empty_ne hnone (o := 0x30A04) rfl
  simp only [readCls, h04, h08, h0C, hind, if_false]

theorem readGnt_of_empty (hword : off % 4 = 0) (s : State) : readGnt s off = reg s off := by
  have hconsts := empty_outside hnone (base := 0x41000) (n := 256) (last := 0x41400) rfl rfl hword
  have htrees := empty_outside hnone (base := 0x42000) (n := 64) (last := 0x42100) rfl rfl hword
  have hrec := empty_outside hnone (base := 0x50014) (n := 3) (last := 0x50020) rfl rfl hword
  have hrng := empty_outside hnone (base := 0x51800) (n := 64) (last := 0x51900) rfl rfl hword
  simp only [readGnt, hconsts, htrees, hrec, hrng, if_false]

theorem readPgr_of_empty (hword : off % 4 = 0) (s : State) : readPgr s off = reg s off := by
  have h00 := empty_ne hnone (o := 0x60000) rfl
  have h20 := empty_ne hnone (o := 0x60020) rfl
  have h24 := empty_ne hnone (o := 0x60024) rfl
  have h28 := empty_ne hnone (o := 0x60028) rfl
  have h2C := empty_ne hnone (o := 0x6002C) rfl
  have h34 := empty_ne hnone (o := 0x60034) rfl
  have t00 := empty_ne hnone (o := 0x70000) rfl
  have t08 := empty_ne hnone (o := 0x70008) rfl
  have t0C := empty_ne hnone (o := 0x7000C) rfl
  have t10 := empty_ne hnone (o := 0x70010) rfl
  have t14 := empty_ne hnone (o := 0x70014) rfl
  have t18 := empty_ne hnone (o := 0x70018) rfl
  have t20 := empty_ne hnone (o := 0x70020) rfl
  have hmissed := empty_outside hnone (base := 0x70040) (n := 8) (last := 0x70060) rfl rfl hword
  simp only [readPgr, h00, h20, h24, h28, h2C, h34, t00, t08, t0C, t10, t14, t18, t20, hmissed, if_false]

/-- The results of a port's time exchange: `VALID` in the first word of its block, its times in the twelve that follow. -/
theorem empty_not_timeRes (hword : off % 4 = 0) (hin : 0x80400 ≤ off ∧ off < 0x80500) : ¬ (off - 0x80400) % 0x40 < 0x34 := by
  intro hlow
  have hunit : off / 65536 = 8 := by omega
  by_cases h0 : (off - 0x80400) % 0x40 = 0
  · have hr : ({ base := 0x80400, s1 := 0x40, n1 := 4, fields := [fOf .w1c 0 1] } : RRow) ∈ rowsAt off := by
      rw [rowsAt, hunit]
      decide
    refine rowOf_ne_none hr ?_ hnone
    simp [RRow.holds, h0]
    omega
  · have hr : ({ base := 0x80404, s1 := 0x40, n1 := 4, n2 := 12 } : RRow) ∈ rowsAt off := by
      rw [rowsAt, hunit]
      decide
    refine rowOf_ne_none hr ?_ hnone
    simp [RRow.holds]
    omega

theorem readLnk_of_empty (hword : off % 4 = 0) {s : State} (hreg : reg s off = 0) : readLnk s off = 0 := by
  have hports := empty_outside hnone (base := 0x80020) (n := 4) (last := 0x80030) rfl rfl hword
  have hlanes := empty_outside hnone (base := 0x80040) (n := 16) (last := 0x80080) rfl rfl hword
  have hroute := empty_ne hnone (o := 0x80204) rfl
  simp only [readLnk, hports, hlanes, hroute, if_false]
  split
  · next hin => exact if_neg (empty_not_timeRes hnone hword hin)
  · exact hreg

theorem readErr_of_empty (hword : off % 4 = 0) (s : State) : readErr s off = reg s off := by
  have hpwr := empty_ne hnone (o := 0x90004) rfl
  have hdepths := empty_outside hnone (base := 0x90200) (n := 14) (last := 0x90238) rfl rfl hword
  have hlog := empty_ne hnone (o := 0xA0000) rfl
  have hentry := empty_outside hnone (base := 0xA0008) (n := 4) (last := 0xA0018) rfl rfl hword
  have h24 := empty_ne hnone (o := 0xA0024) rfl
  have h28 := empty_ne hnone (o := 0xA0028) rfl
  have h2C := empty_ne hnone (o := 0xA002C) rfl
  have h30 := empty_ne hnone (o := 0xA0030) rfl
  have h34 := empty_ne hnone (o := 0xA0034) rfl
  have h38 := empty_ne hnone (o := 0xA0038) rfl
  have h3C := empty_ne hnone (o := 0xA003C) rfl
  have h40 := empty_ne hnone (o := 0xA0040) rfl
  have h48 := empty_ne hnone (o := 0xA0048) rfl
  have h4C := empty_ne hnone (o := 0xA004C) rfl
  simp only [readErr, hpwr, hdepths, hlog, hentry, h24, h28, h2C, h30, h34, h38, h3C, h40, h48, h4C, if_false]

theorem readMon_of_empty (hword : off % 4 = 0) (s : State) : readMon s off = reg s off := by
  have htrace := empty_ne hnone (o := 0xB0010) rfl
  have hbw := empty_ne hnone (o := 0xB0034) rfl
  have hsnap := empty_ne hnone (o := 0xB004C) rfl
  have hsets := empty_outside hnone (base := 0xB1000) (n := 256) (last := 0xB1400) rfl rfl hword
  simp only [readMon, htrace, hbw, hsnap, hsets, if_false]

theorem readId_of_empty : readId off = 0 := by
  have h0 := empty_ne hnone (o := 0xC0000) rfl
  have h4 := empty_ne hnone (o := 0xC0004) rfl
  have h8 := empty_ne hnone (o := 0xC0008) rfl
  unfold readId
  split
  · exact absurd rfl h0
  · exact absurd rfl h4
  · exact absurd rfl h8
  · rfl

theorem regReset_of_empty (hword : off % 4 = 0) : regReset off = 0 := by
  have hattrs := empty_outside hnone (base := 0x52000) (n := 16) (last := 0x52040) rfl rfl hword
  have htable := empty_outside hnone (base := 0x53000) (n := 256) (last := 0x53400) rfl rfl hword
  simp only [regReset, hattrs, htable, hnone, if_false]

/-- The table of software's registers has no entry there. -/
theorem reg_of_empty (hword : off % 4 = 0) {s : State} (hok : RegsOk s.regs) : reg s off = 0 := by
  have hmem : ∀ e ∈ s.regs, e.1 ≠ off := fun e he hoff => by
    have hrow := (hok.2 e he).2
    rw [hoff, hnone] at hrow
    cases hrow
  have hfind : tfind s.regs off = none := tfind_of_not_mem hmem
  rw [reg, tget, hfind, regReset_of_empty hnone hword]
  rfl

theorem readWord_of_empty (hword : off % 4 = 0) {s : State} (hok : RegsOk s.regs) : readWord s off = 0 := by
  have hreg := reg_of_empty hnone hword hok
  have hoff : off / 4 * 4 = off := by omega
  simp only [readWord, hoff, empty_not_isCtr hnone hword]
  split
  · rfl
  · rw [if_neg Bool.false_ne_true]
    split
    · rw [readHif_of_empty hnone hword, hreg]
    · next hunit => rw [readTpt_of_empty hnone hunit, hreg]
    · exact hreg
    · rw [readCls_of_empty hnone, hreg]
    · rw [readGnt_of_empty hnone hword, hreg]
    · rw [readGnt_of_empty hnone hword, hreg]
    · rw [readPgr_of_empty hnone hword, hreg]
    · rw [readPgr_of_empty hnone hword, hreg]
    · exact readLnk_of_empty hnone hword hreg
    · rw [readErr_of_empty hnone hword, hreg]
    · rw [readErr_of_empty hnone hword, hreg]
    · rw [readMon_of_empty hnone hword, hreg]
    · exact readId_of_empty hnone
    · rfl

/-! A write there is a plain one of the window, which is refused with cause 2 (R337). -/

theorem empty_not_isCap (hword : off % 4 = 0) : isCap off = false := by
  have hgroup := empty_ne hnone (o := 0x90010) rfl
  have hports := empty_outside hnone (base := 0x90100) (n := 64) (last := 0x90200) rfl rfl hword
  exact decide_eq_false (not_or.2 ⟨hgroup, hports⟩)

theorem empty_plainOffset (hword : off % 4 = 0) : PlainOffset off := by
  refine ⟨hword, fun hmem => ?_, empty_not_isCap hnone hword⟩
  have hrows : ∀ o ∈ [0x80, 0x60000, 0x30A04, 0x50010, 0x80204, 0xB0004, 0x80004, 0x90000, 0xB0030, 0x70020, 0xB0010],
      (rowOf o).isSome = true := by decide
  exact empty_ne hnone (hrows off hmem) rfl

theorem refusal_of_empty (hword : off % 4 = 0) (s : State) (v : Word) : refusal s off 4 v = some 2 := by
  simp [refusal, hword, hnone]

end Empty

end Sys2Proof.Machine
namespace Sys2Proof.Proofs

open Sys2Proof.Machine

/-- Settles O14: where no row of the map sits, no status word, counter or stored field does (`readWord_of_empty`), and the write
is a plain one that is refused (`empty_plainOffset`, `refusal_of_empty`). -/
theorem emptyOffset : Obligations.EmptyOffset := by
  intro s off v hok hword hnone
  refine ⟨readWord_of_empty hnone hword hok, fun hs => ⟨(refuseWrite off.toNat 2 s).hif.refused, ?_, ?_, rfl⟩⟩
  · rw [exec_registerWrite, registerWrite_of_plain (empty_plainOffset hnone hword),
      windowWrite_of_refused hs (refusal_of_empty hnone hword s v)]
    rfl
  · exact Nat.div_mul_cancel (Nat.dvd_of_mod_eq_zero hword)

end Sys2Proof.Proofs
end

section
/-! Interrupt messages (R30, R290): a vector's message while one is unacknowledged, and while none is. -/

namespace Sys2Proof.Machine

theorem getVec_modVec_ne {v w : Nat} (h : w ≠ v) (f : Vec → Vec) (s : State) : getVec (modVec v f s) w = getVec s w :=
  tget_tset_ne h _ _ _

theorem sendVector_of_unacked {s : State} {v : Nat} (h : (getVec s v).unacked = true) :
    sendVector v s = modVec v (fun V => { V with due := true }) s := by
  simp [sendVector, h]

theorem sendVector_of_acked {s : State} {v : Nat} (h : (getVec s v).unacked = false) :
    sendVector v s = addCtr (errCtr 9) 1 ((modVec v (fun _ => { unacked := true }) s).modErr fun e =>
      { e with fired := e.fired ||| BitVec.ofNat 64 (2 ^ v) }) := by
  simp [sendVector, h]

/-- What a message that is sent leaves: its vector, the count of messages, and the other vectors. -/
theorem sendVector_sent {s : State} {v : Nat} (h : (getVec s v).unacked = false) :
    getVec (sendVector v s) v = { unacked := true } ∧ getCtr (sendVector v s) (errCtr 9) = getCtr s (errCtr 9) + 1 ∧
    ∀ w, w ≠ v → getVec (sendVector v s) w = getVec s w := by
  rw [sendVector_of_acked h]
  exact ⟨getVec_modVec v (fun _ => { unacked := true }) s, getCtr_addCtr _ _ _,
    fun w hw => getVec_modVec_ne hw (fun _ => { unacked := true }) s⟩

theorem sendVector_fired {s : State} {v : Nat} (h : (getVec s v).unacked = false) (hv : v < 64) :
    (sendVector v s).err.fired.getLsbD v = true := by
  have hbit : (BitVec.ofNat 64 (2 ^ v)).getLsbD v = true := by
    rw [BitVec.getLsbD_ofNat, Nat.testBit_two_pow_self, decide_eq_true hv]
    rfl
  rw [sendVector_of_acked h]
  exact (BitVec.getLsbD_or).trans (by rw [hbit, Bool.or_true])

theorem exec_interruptAck {s : State} {v : Fin 64} (h : (getVec s v).unacked = true) : exec (.interruptAck v) s =
    .next (if (getVec s v).due then sendVector v (modVec v (fun V => { V with unacked := false, due := false }) s)
      else modVec v (fun V => { V with unacked := false, due := false }) s) :=
  congrArg Host.Outcome.next (if_pos h)

end Sys2Proof.Machine

namespace Sys2Proof.Proofs

open Sys2Proof.Machine

/-- Settles O29: an unacknowledged vector only marks what fires (`sendVector_of_unacked`), and its acknowledgement frees it before
the marked message goes out (`sendVector_sent`). -/
theorem interruptMessages : Obligations.InterruptMessages := by
  refine ⟨?merged, ?next, ?acked, ?timer, ?noTimer, ?sent⟩
  case merged =>
    intro s v h
    rw [sendVector_of_unacked h, getVec_modVec]
    exact ⟨rfl, rfl, rfl, rfl⟩
  case next =>
    intro s v hun hdue
    have hfree : (getVec (modVec v (fun V => { V with unacked := false, due := false }) s) v).unacked = false := by
      rw [getVec_modVec]
    obtain ⟨hvec, hctr, hothers⟩ := sendVector_sent hfree
    refine ⟨_, (exec_interruptAck hun).trans (congrArg Host.Outcome.next (if_pos hdue)), ?_, ?_, hctr,
      sendVector_fired hfree v.isLt, fun w hw => (hothers w hw).trans (getVec_modVec_ne hw _ s)⟩
    · rw [hvec]
    · rw [hvec]
  case acked =>
    intro s v hun hdue
    rw [exec_interruptAck hun, hdue, if_neg Bool.false_ne_true]
  case timer =>
    intro s v htimer hcount
    exact congrArg Host.Outcome.next (if_pos (by simp [htimer, hcount]))
  case noTimer =>
    intro s v htimer
    exact congrArg Host.Outcome.next (if_neg (by simp [htimer]))
  case sent =>
    intro s v h
    obtain ⟨hvec, hctr, -⟩ := sendVector_sent h
    exact ⟨hvec, hctr⟩

end Sys2Proof.Proofs
end

section
/-! A lane's way from disabled to EXCHANGE (R38, R58, R230–R235, R258): `LNK_LANE_CTRL` bit by bit, a per-lane reset, and the
ordered sets. -/

namespace Sys2Proof.Machine

/-! Bits of a word. -/

theorem bitOf_eq_testBit (w : Word) (k : Nat) : bitOf w k = w.toNat.testBit k := by
  simp [bitOf, bitsOf, Nat.testBit_eq_decide_div_mod_eq]

theorem bitOf_wordOf {k : Nat} (hk : k < 32) (n : Nat) : bitOf (wordOf n) k = n.testBit k := by
  rw [bitOf_eq_testBit, wordOf, BitVec.toNat_ofNat, Nat.testBit_mod_two_pow, decide_eq_true hk, Bool.true_and]

/-- A number with bit `i` set apart from the bits below it and above it. -/
theorem testBit_split {i r : Nat} (hr : r < 2 ^ i) (q : Nat) (b : Bool) (k : Nat) :
    (2 ^ i * (2 * q + ofBit b) + r).testBit k = if k = i then b else if k < i then r.testBit k else q.testBit (k - i - 1) := by
  have hhalf : (2 * q + ofBit b) / 2 = q := by
    cases b
    · simp [ofBit]
    · simp [ofBit]
      omega
  rw [Nat.testBit_two_pow_mul_add _ hr]
  obtain hk | rfl | hk := Nat.lt_trichotomy k i
  · simp [hk, Nat.ne_of_lt hk]
  · cases b <;> simp [ofBit, Nat.testBit_zero]
  · obtain ⟨j, hj⟩ : ∃ j, k - i = j + 1 := ⟨k - i - 1, by omega⟩
    rw [if_neg (Nat.lt_asymm hk), if_neg (Nat.ne_of_gt hk), if_neg (Nat.lt_asymm hk), hj, Nat.testBit_succ, hhalf,
      Nat.add_sub_cancel]

theorem exists_split (n i : Nat) : ∃ q r, r < 2 ^ i ∧ n = 2 ^ i * (2 * q + ofBit (n.testBit i)) + r := by
  have hbit : n / 2 ^ i % 2 = ofBit (n.testBit i) := by
    rw [Nat.testBit_eq_decide_div_mod_eq]
    rcases Nat.mod_two_eq_zero_or_one (n / 2 ^ i) with h | h <;> simp [ofBit, h]
  refine ⟨n / 2 ^ i / 2, n % 2 ^ i, Nat.mod_lt _ (Nat.two_pow_pos i), ?_⟩
  rw [← hbit, Nat.div_add_mod, Nat.div_add_mod]

theorem bitOf_withBit {k : Nat} (hk : k < 32) (w : Word) (i : Nat) (b : Bool) :
    bitOf (withBit w i b) k = if k = i then b else bitOf w k := by
  obtain ⟨q, r, hr, hw⟩ := exists_split w.toNat i
  have hset : w.toNat - ofBit (bitOf w i) * 2 ^ i + ofBit b * 2 ^ i = 2 ^ i * (2 * q + ofBit b) + r := by
    have hold : 2 ^ i * (2 * q + ofBit (bitOf w i)) = 2 ^ i * (2 * q) + ofBit (bitOf w i) * 2 ^ i := by ring
    have hnew : 2 ^ i * (2 * q + ofBit b) = 2 ^ i * (2 * q) + ofBit b * 2 ^ i := by ring
    rw [← bitOf_eq_testBit] at hw
    omega
  rw [withBit, bitOf_wordOf hk, hset, testBit_split hr, bitOf_eq_testBit w k, hw, testBit_split hr]
  split <;> rfl

/-! `LNK_LANE_CTRL`: one field of 16 bits, never locked and never refused. -/

theorem refusal_laneCtrl (s : State) (v : Word) : refusal s 0x80004 4 v = none := rfl

theorem laneOn_storeFields {l : Nat} (hl : l < 16) (v : Word) (s : State) : laneOn (storeFields 0x80004 v s) l = bitOf v l := by
  have hrow : reg (storeFields 0x80004 v s) 0x80004 = wordOf (0 + bitsOf v 0 16 * 2 ^ 0) := reg_setReg _ _ _
  rw [laneOn, hrow, bitOf_wordOf (by omega), bitOf_eq_testBit, bitsOf, Nat.zero_add, Nat.pow_zero, Nat.mul_one, Nat.div_one,
    Nat.testBit_mod_two_pow, decide_eq_true hl, Bool.true_and]

theorem laneOn_of_kept {s t : State} (h : t.kept = s.kept) (l : Nat) : laneOn t l = laneOn s l := by
  have hregs : t.regs = s.regs := congrArg (fun k => k.setup.regs) h
  simp only [laneOn, reg, hregs]

theorem getLane_of_aside {s t : State} (h : t.aside = s.aside) (l : Nat) : getLane t l = getLane s l := by
  simp only [getLane, lanes_of_aside h]

/-! What a per-lane reset and a changed `ENABLE` bit do to the lanes. -/

theorem getLane_laneTo (l st k : Nat) (s : State) :
    getLane (laneTo l st s) k = if k = l then { getLane s l with st := st } else getLane s k :=
  tget_tset _ _ _ _ _

theorem getLane_modLane_any (l k : Nat) (f : Lane → Lane) (s : State) :
    getLane (modLane l f s) k = if k = l then f (getLane s l) else getLane s k :=
  tget_tset _ _ _ _ _

theorem getLane_laneReset (l k : Nat) (s : State) : getLane (laneReset l s) k =
    if k = l then { resetting := true, noClkSaid := (getLane s l).noClkSaid } else getLane s k := by
  have hlanes := getLane_of_aside (cutMessage_aside l s)
  have hreset : (laneReset l s).aside = (laneTo l 0 (modLane l (fun L => { resetting := true, noClkSaid := L.noClkSaid })
      (cutMessage l s))).aside := by simp [laneReset]
  rw [getLane_of_aside hreset, getLane_laneTo, getLane_modLane_any, getLane_modLane_any, hlanes, hlanes]
  split
  · simp
  · rfl

theorem laneSwitched_same {l : Nat} {was : Bool} {s : State} (h : was = laneOn s l) : laneSwitched l was s = s := if_pos h

theorem getLane_switchedOff {l : Nat} {s : State} (hoff : laneOn s l = false) (k : Nat) : getLane (laneSwitched l true s) k =
    if k = l then { resetting := true, noClkSaid := (getLane s l).noClkSaid } else getLane s k := by
  have heq : laneSwitched l true s = modDom (128 + l) Dom.laid (laneReset l s) := by simp [laneSwitched, hoff]
  rw [heq, getLane_of_aside (modDom_aside _ _ _), getLane_laneReset]

theorem getLane_switchedOn {l : Nat} {s : State} (hon : laneOn s l = true) (hreset : (getLane s l).resetting = false) (k : Nat) :
    getLane (laneSwitched l false s) k =
      if k = l then { getLane s l with noClkSaid := false, st := 1 } else getLane s k := by
  have hlanes : ∀ j, getLane (wakeDom 213 (wakeDom (128 + l) s)) j = getLane s j :=
    getLane_of_aside (by simp)
  have heq : laneSwitched l false s = laneTo l 1 (modLane l (fun L => { L with noClkSaid := false })
      (wakeDom 213 (wakeDom (128 + l) s))) := by simp [laneSwitched, hon, hlanes, hreset]
  rw [heq, getLane_laneTo, getLane_modLane_any, getLane_modLane_any, hlanes, hlanes]
  split
  · simp
  · rfl

/-- One at a time over the numbers below `n`, where all but one of the steps do nothing. -/
theorem eachBelow_only {α : Type} {P : α → Prop} {f : Nat → α → α} {l n : Nat}
    (hidle : ∀ a, P a → ∀ k < n, k ≠ l → f k a = a) (hkeeps : ∀ a, P a → P (f l a)) {a : α} (ha : P a) :
    eachBelow n f a = if l < n then f l a else a := by
  induction n with
  | zero => rfl
  | succ n ih =>
    have hlast : eachBelow (n + 1) f a = f n (eachBelow n f a) := by simp [eachBelow, List.range_succ]
    rw [hlast, ih fun a ha k hk => hidle a ha k (by omega)]
    obtain h | rfl | h := Nat.lt_trichotomy l n
    · rw [if_pos h, if_pos (by omega), hidle _ (hkeeps a ha) n (by omega) (by omega)]
    · rw [if_neg (by omega), if_pos (by omega)]
    · rw [if_neg (by omega), if_neg (by omega), hidle a ha n (by omega) (by omega)]

/-! The write of `LNK_LANE_CTRL` with one bit changed. -/

theorem laneCtrlWrite_of_running {s : State} (hs : s.phase = .running) (v : Word) : laneCtrlWrite 4 v s =
    eachBelow 16 (fun k u => laneSwitched k (bitOf (reg s 0x80004) k) u) (storeFields 0x80004 v s) :=
  windowWrite_of_allowed hs (refusal_laneCtrl s v) _

theorem laneCtrlWrite_of_not_running {s : State} (hs : s.phase ≠ .running) (v : Word) : laneCtrlWrite 4 v s = s := by
  unfold laneCtrlWrite
  exact windowWrite_of_not_running hs _ _ _ _

/-- A change of bit `l` alone switches lane `l` alone, in the state with the word stored. -/
theorem laneCtrlWrite_withBit {s : State} (hs : s.phase = .running) (l : Fin 16) (b : Bool) :
    ∃ u, laneCtrlWrite 4 (withBit (reg s 0x80004) l b) s = laneSwitched l (laneOn s l) u ∧
      (∀ k, getLane u k = getLane s k) ∧ ∀ k < 16, laneOn u k = if k = l then b else laneOn s k := by
  have hu (k : Nat) (hk : k < 16) :
      laneOn (storeFields 0x80004 (withBit (reg s 0x80004) l b) s) k = if k = l then b else laneOn s k := by
    rw [laneOn_storeFields hk, bitOf_withBit (by omega)]
    rfl
  refine ⟨storeFields 0x80004 (withBit (reg s 0x80004) l b) s, (laneCtrlWrite_of_running hs _).trans ?_, fun k => rfl, hu⟩
  refine (eachBelow_only (P := fun t => ∀ k < 16, laneOn t k = if k = l.val then b else laneOn s k) (l := l)
    (fun t ht k hk hne => ?_) (fun t ht k hk => ?_) hu).trans (if_pos l.isLt)
  · exact laneSwitched_same ((ht k hk).trans (if_neg hne)).symm
  · rw [laneOn_of_kept (laneSwitched_kept _ _ _), ht k hk]

/-! Ordered sets at a lane with symbol lock (R232, R234). -/

section OrderedSet
variable {s : State} {l : Nat} (hslow : isSlow (getLane s l) = true) (hlock : (getLane s l).symLock = true)
include hslow hlock

theorem orderedSet_ignored {type : Byte} {ps : List Byte} {x : SetTail} (hbad : x.type ≠ type ∨ setOk ps x = false)
    (f : State → State) : orderedSet l type ps x f s =
      lstat (lanePort l) 23 1 (if x.errors = 0 then s else addCtr (laneCtr l) x.errors s) := by
  have hnot : (decide (x.type = type) && setOk ps x) = false := by
    obtain h | h := hbad
    · simp [h]
    · simp [h]
  simp [orderedSet, hslow, hlock, hnot]

theorem orderedSet_taken {ps : List Byte} {x : SetTail} (hok : setOk ps x = true) (herr : x.errors = 0) (f : State → State) :
    orderedSet l x.type ps x f s = f s := by
  simp [orderedSet, hslow, hlock, hok, herr]

end OrderedSet

/-! A lane's time limit (R230, R235). -/

theorem timeLimit_of_no_mismatch {s : State} {l : Nat} (hlo : 2 ≤ (getLane s l).st) (hhi : (getLane s l).st ≤ 4)
    (h : (getLane s l).st ≠ 4 ∨ (getLane s l).sawBad = false ∨ (getLane s l).cap ≠ []) :
    timeLimit l s = raise 0x811 (wordOf l) (wordOf (getLane s l).st) (laneReset l s) := by
  have hrange : ¬ ((getLane s l).st < 2 ∨ 4 < (getLane s l).st) := by omega
  have hno : ¬ ((decide ((getLane s l).st = 4) && (getLane s l).sawBad && (getLane s l).cap.isEmpty) = true) := by
    obtain h | h | h := h
    · simp [h]
    · simp [h]
    · simp [h]
  simp only [timeLimit, if_neg hrange, if_neg hno]

theorem timeLimit_of_mismatch {s : State} {l : Nat} (hst : (getLane s l).st = 4) (hbad : (getLane s l).sawBad = true)
    (hcap : (getLane s l).cap = []) :
    timeLimit l s = raise 0x811 (wordOf l) 4 (laneReset l (raise 0x815 (wordOf (lanePort l)) 2 s)) := by
  simp [timeLimit, hst, hbad, hcap]
  rfl

end Sys2Proof.Machine

namespace Sys2Proof.Proofs

open Sys2Proof.Machine

/-- Settles O43: a write of one bit switches that lane alone (`laneCtrlWrite_withBit`), a lane's reset leaves the others
(`getLane_laneReset`), and a set is taken or counted by its CRC and type (`orderedSet_taken`, `orderedSet_ignored`). -/
theorem laneTraining : Obligations.LaneTraining := by
  refine ⟨?written, ?inReset, ?enabled, ?disabled, ?resetDone, ?probe, ?trainOrLock, ?exchange, ?aligned, ?lockLost, ?badSet,
    ?training, ?trained, ?locking⟩
  case written =>
    intro s l hs
    exact ⟨congrArg Host.Outcome.next (laneCtrlWrite_of_running hs _),
      congrArg Host.Outcome.next (laneCtrlWrite_of_running hs _)⟩
  case inReset =>
    intro s l hs
    exact ⟨congrArg Host.Outcome.next (laneCtrlWrite_of_not_running hs _),
      congrArg Host.Outcome.next (laneCtrlWrite_of_not_running hs _)⟩
  case enabled =>
    intro s l hs hoff hreset
    obtain ⟨u, hwrite, hlanes, hon⟩ := laneCtrlWrite_withBit hs l true
    have hkeep (k : Nat) : laneOn (laneSwitched l false u) k = laneOn u k := laneOn_of_kept (laneSwitched_kept _ _ _) k
    have hlane := getLane_switchedOn (l := l) (s := u) (by rw [hon l l.isLt, if_pos rfl]) (by rw [hlanes, hreset])
    rw [hoff] at hwrite
    refine ⟨_, congrArg Host.Outcome.next hwrite, ?_, ?_, fun k hk hne => ⟨?_, ?_⟩⟩
    · rw [hkeep, hon l l.isLt, if_pos rfl]
    · rw [hlane, if_pos rfl]
    · rw [hkeep, hon k hk, if_neg hne]
    · rw [hlane, if_neg hne, hlanes]
  case disabled =>
    intro s l hs hon'
    obtain ⟨u, hwrite, hlanes, hon⟩ := laneCtrlWrite_withBit hs l false
    have hkeep (k : Nat) : laneOn (laneSwitched l true u) k = laneOn u k := laneOn_of_kept (laneSwitched_kept _ _ _) k
    have hlane := getLane_switchedOff (l := l) (s := u) (by rw [hon l l.isLt, if_pos rfl])
    rw [hon'] at hwrite
    refine ⟨_, congrArg Host.Outcome.next hwrite, ?_, ?_, ?_, fun k hk hne => ⟨?_, ?_⟩⟩
    · rw [hkeep, hon l l.isLt, if_pos rfl]
    · rw [hlane, if_pos rfl]
    · rw [hlane, if_pos rfl]
    · rw [hkeep, hon k hk, if_neg hne]
    · rw [hlane, if_neg hne, hlanes]
  case resetDone =>
    intro s l hs hreset
    exact next_whenRunning hs (if_pos hreset)
  case probe =>
    rintro s u l found hs hst rfl
    have hdetect : ¬ (getLane s l).st ≠ 1 := by simp [hst]
    exact ⟨next_whenRunning hs (if_neg hdetect), next_whenRunning hs (if_neg hdetect), next_whenRunning hs (if_neg hdetect)⟩
  case trainOrLock =>
    intro s l hs hst
    exact next_whenRunning hs (timeLimit_of_no_mismatch (by omega) (by omega) (.inl (by omega)))
  case exchange =>
    intro s l hs hst
    have hword : wordOf (getLane s l).st = 4 := congrArg wordOf hst
    exact ⟨fun h => next_whenRunning hs (hword ▸ timeLimit_of_no_mismatch (by omega) (by omega) (.inr h)),
      fun hbad hcap => next_whenRunning hs (timeLimit_of_mismatch hst hbad hcap)⟩
  case aligned =>
    intro s l hs hslow
    exact next_whenRunning hs (if_pos hslow)
  case lockLost =>
    intro s l n hs hslow hlock
    refine ⟨fun hst => next_whenRunning hs ?_, fun hst => next_whenRunning hs ?_⟩
    · simp [symbolLost, hslow, hlock, hst]
    · simp [symbolLost, hslow, hlock, hst]
  case badSet =>
    intro s l ps x clean hs hslow hlock
    refine ⟨fun hbad herr => ?_, fun hbad herr => next_whenRunning hs ?_, fun htype herr => next_whenRunning hs ?_⟩
    · have hsame {type : Byte} (f : State → State) : orderedSet l type ps x f s = lstat (lanePort l) 23 1 s :=
        (orderedSet_ignored hslow hlock (.inr hbad) f).trans (by rw [if_pos herr])
      exact ⟨next_whenRunning hs (hsame _), next_whenRunning hs (hsame _), next_whenRunning hs (hsame _),
        next_whenRunning hs (hsame _)⟩
    · rw [orderedSet_ignored hslow hlock (.inr hbad), if_neg herr]
    · rw [orderedSet_ignored hslow hlock (.inl htype), if_pos herr]
  case training =>
    rintro s l ps ⟨type, crc, errors⟩ hs hslow hlock hst rfl hok herr
    refine next_whenRunning hs ((orderedSet_taken hslow hlock hok herr _).trans ?_)
    exact if_neg (not_not.2 hst)
  case trained =>
    intro s l hs hst
    exact ⟨fun hreq => next_whenRunning hs (if_pos (by simp [hst, hreq])),
      fun hreq => next_whenRunning hs (if_neg (by simp [hreq]))⟩
  case locking =>
    rintro s u l ps ⟨type, crc, errors⟩ clean n hs hslow hlock hst rfl hok herr rfl rfl
    refine next_whenRunning hs ((orderedSet_taken hslow hlock hok herr _).trans ?_)
    simp [lkIn, hst]

end Sys2Proof.Proofs
end

section
/-! Doorbells and indices (R29, R65, R66, R68, R69): what a doorbell and an index read do by the queue's state, and when the block's own
index word goes out. -/

namespace Sys2Proof.Machine

theorem ringBell_of_created {s : State} {q : Nat} (htype : qType q ≠ 7) (hst : (getQueue s q).st ≠ .notCreated) :
    ringBell q s = modQueue q (fun Q => { Q with bell := true }) s :=
  if_neg (by simp [htype, hst])

theorem ringBell_of_absent {s : State} {q : Nat} (h : qType q = 7 ∨ (getQueue s q).st = .notCreated) :
    ringBell q s = raise 0x120 (wordOf q) 0 (addCtr (hifCtr 0) 1 s) :=
  if_pos (by simpa using h)

theorem serveBell_of_pending {s : State} {q : Nat} (hbell : (getQueue s q).bell = true) (hst : (getQueue s q).st = .active) :
    serveBell q s = fabRead (.index q) (getQueue s q).cfg.indexAddr 8
      (perf 0 1 (modQueue q (fun Q => { Q with bell := false }) s)) :=
  if_pos (by simp [hbell, hst])

theorem serveBell_idle {s : State} {q : Nat} (h : (getQueue s q).bell = false ∨ (getQueue s q).st ≠ .active) :
    serveBell q s = s := by
  refine if_neg ?_
  obtain h | h := h
  · simp [h]
  · simp [h]

/-! An index area's two words. -/

section TakeIndex
variable {s : State} {q : Nat} (hst : (getQueue s q).st = .active)
include hst

theorem takeIndex_pi_in_range (htype : qType q < 3) {pi : Word} (hsize : gap pi (getQueue s q).ci ≤ ringSize (getQueue s q).cfg)
    (hfirm : gap (firmF s q) (getQueue s q).ci ≤ gap pi (getQueue s q).ci) (ci : Word) :
    takeIndex q pi ci s = modQueue q (fun Q => { Q with pi := pi }) s := by
  simp [takeIndex, takePi, htype, hst, Nat.not_lt.2 hsize, Nat.not_lt.2 hfirm]

theorem takeIndex_pi_out_of_range (htype : qType q < 3) {pi : Word} (h : ringSize (getQueue s q).cfg < gap pi (getQueue s q).ci ∨
    gap pi (getQueue s q).ci < gap (firmF s q) (getQueue s q).ci) (ci : Word) :
    takeIndex q pi ci s = raise 0x130 (wordOf q) pi (stopQueue q s) := by
  simp [takeIndex, takePi, htype, hst, h]

theorem takeIndex_ci_out_of_range (htype : 3 ≤ qType q) {ci : Word}
    (h : ringSize (getQueue s q).cfg < gap (getQueue s q).pi ci) (pi : Word) :
    takeIndex q pi ci s = raise 0x130 (wordOf q) ci (stopQueue q s) := by
  simp [takeIndex, takeCi, Nat.not_lt.2 htype, hst, h]

theorem takeIndex_ci_in_range (htype : 3 ≤ qType q) {ci : Word}
    (h : gap (getQueue s q).pi ci ≤ ringSize (getQueue s q).cfg) (pi : Word) :
    takeIndex q pi ci s =
      if qType q = 3 then
        endEpisode q (drainPend (getQueue s q).pend.length q (modQueue q (fun Q => { Q with ci := ci }) s))
      else withHalves (drainEvents 66 q) (modQueue q (fun Q => { Q with ci := ci }) s) := by
  simp [takeIndex, takeCi, Nat.not_lt.2 htype, hst, Nat.not_lt.2 h]

end TakeIndex

theorem indexIn_of_oldest {s : State} {q : Nat} (h : (s.fab.reads.any fun r => r.use = .index q) = true) (pi ci : Word) :
    indexIn q pi ci s = takeIndex q pi ci (returnFirst (.index q) s) :=
  if_pos h

/-! The block's own index word. -/

theorem access_hif (d : Nat) (s : State) : (access d s).hif = s.hif := by
  unfold access
  split <;> rfl

theorem getQueue_indexWrite (q r : Nat) (v : Word) (s : State) : getQueue (indexWrite q v s) r = getQueue s r := by
  have hhif : (indexWrite q v s).hif = s.hif := access_hif 208 s
  simp only [getQueue, hhif]

theorem modQueue_congr {q : Nat} {f g : Queue → Queue} {s : State} (h : f (getQueue s q) = g (getQueue s q)) :
    modQueue q f s = modQueue q g s := by
  unfold getQueue at h
  simp only [modQueue, State.modHif, h]

/-- A mark of a due index word changes nothing of what its acknowledgements are counted from. -/
theorem ringBack_modQueue (q : Nat) (v : Option Word) (s : State) :
    ringBack (modQueue q (fun Q => { Q with idxAt := v }) s) q = ringBack s q := by
  simp only [ringBack, getQueue_modQueue]
  rfl

theorem gap_self (w : Word) : gap w w = 0 := by simp [gap]

section IndexOut
variable {s : State} {q : Nat} (hun : (getQueue s q).unreported ≠ 0)
include hun

theorem indexOut_consumed (htype : qType q < 3) :
    indexOut q s = modQueue q (fun Q => { Q with unreported := 0 }) (indexWrite q (getQueue s q).ci s) := by
  simp [indexOut, hun, htype]

theorem indexOut_ring (htype : 3 ≤ qType q) (hdue : (getQueue s q).idxAt = none) :
    indexOut q s = indexTry q (modQueue q (fun Q => { Q with idxAt := some (getQueue s q).pi }) s) := by
  have hmark : modQueue q (fun Q => { Q with idxAt := some (Q.idxAt.getD Q.pi) }) s =
      modQueue q (fun Q => { Q with idxAt := some (getQueue s q).pi }) s := modQueue_congr (by rw [hdue]; rfl)
  simp only [indexOut, if_neg hun, if_neg (Nat.not_lt.2 htype), hmark]

end IndexOut

/-- A marked word goes out, or waits, by whether every entry that it reports is acknowledged. -/
theorem indexTry_marked {s u : State} {q : Nat} (hu : u = modQueue q (fun Q => { Q with idxAt := some (getQueue s q).pi }) s) :
    indexTry q u = if 0 < ringBack s q then u
      else modQueue q (fun Q => { Q with idxAt := none, unreported := 0 }) (indexWrite q (getQueue s q).pi u) := by
  have hq : getQueue u q = { getQueue s q with idxAt := some (getQueue s q).pi } := hu ▸ getQueue_modQueue _ _ _
  have hback : ringBack u q = ringBack s q := hu ▸ ringBack_modQueue q _ s
  simp only [indexTry, hq, hback, gap_self]
  split
  · rfl
  · exact modQueue_congr (by rw [getQueue_indexWrite, hq, gap_self])

end Sys2Proof.Machine

namespace Sys2Proof.Proofs

open Sys2Proof.Machine

/-- Settles O19: the queue's state decides what a doorbell does (`ringBell_of_created`, `ringBell_of_absent`), and its pending bit what
the service does. -/
theorem doorbells : Obligations.Doorbells := by
  refine ⟨?created, ?absent, ?inReset, ?read, ?served, ?idle⟩
  case created =>
    intro s b hs htype hst
    exact next_whenRunning hs (ringBell_of_created htype hst)
  case absent =>
    intro s b hs h
    exact next_whenRunning hs (ringBell_of_absent h)
  case inReset =>
    intro s b hs
    exact congrArg Host.Outcome.next (whenRunning_of_not_running hs _)
  case read =>
    exact fun _ => rfl
  case served =>
    intro s q hs hbell hst
    exact next_whenRunning hs (serveBell_of_pending hbell hst)
  case idle =>
    intro s q hs h
    exact next_whenRunning hs (serveBell_idle h)

/-- Settles O21: the oldest read of the queue gives its two words to `takeIndex`, whose range check has a lemma each way; the block's
own word goes out as `indexOut_consumed` and `indexOut_ring` say. -/
theorem indices : Obligations.Indices := by
  refine ⟨?response, ?timer, ?own⟩
  case response =>
    rintro s u q pi ci hs hread rfl hst
    have hnext {t : State} (h : takeIndex q pi ci (returnFirst (.index q) s) = t) :
        exec (.indexReadResponse q pi ci) s = .next t :=
      next_whenRunning hs ((indexIn_of_oldest hread pi ci).trans h)
    refine ⟨fun htype hsize hfirm => hnext ?_, fun htype h => hnext ?_, fun htype h => hnext ?_, fun htype h => hnext ?_,
      fun htype h => hnext ?_⟩
    · exact takeIndex_pi_in_range hst htype hsize hfirm ci
    · exact takeIndex_pi_out_of_range hst htype h ci
    · exact takeIndex_ci_out_of_range hst htype h pi
    · exact (takeIndex_ci_in_range hst (by omega) h pi).trans (if_pos htype)
    · exact (takeIndex_ci_in_range hst (by omega) h pi).trans (if_neg (by omega))
  case timer =>
    intro s q hs
    exact next_whenRunning hs rfl
  case own =>
    intro s q hun
    refine ⟨indexOut_consumed hun, fun htype hdue hback => ⟨_, ?_, rfl⟩, fun htype hdue hback => ?_⟩
    · rw [indexOut_ring hun htype hdue, indexTry_marked rfl, if_neg (by omega)]
    · rw [indexOut_ring hun htype hdue, indexTry_marked rfl, if_pos (by omega)]

end Sys2Proof.Proofs
end

section
/-! The hand-off of a downstream frame (R31, R107, R188, R204, R205, R293). -/

namespace Sys2Proof.Machine

/-! Whether a queued frame still has its context. -/

theorem ctxLost_of_control {s : State} {d : DsItem} (hsrc : d.src = none) : ctxLost s d = false := by
  simp [ctxLost, hsrc]

theorem ctxLost_of_descriptor {s : State} {d : DsItem} {q : Nat} {idx : Word} {x : Tx} (hsrc : d.src = some (q, idx))
    (hx : findTx s q idx = some x) : ctxLost s d = (slotOfFlow s (txFlow x.ws)).isNone := by
  simp [ctxLost, hsrc, hx]

theorem itemCtx_of_slot {s : State} {q : Nat} {idx : Word} {x : Tx} {i : Nat} (hx : findTx s q idx = some x)
    (hi : slotOfFlow s (txFlow x.ws) = some i) : itemCtx s q idx = (getSlot s i).ctx := by
  simp [itemCtx, hx, hi]

section HandOff
variable {s : State} {p t : Nat} {d : DsItem} {sub : Nat} {poison : Fin 3}

/-- The tree's next frame leaves its queue. -/
def unqueued (d : DsItem) (s : State) : State := s.modTpt fun x => { x with dsq := dropFirst (fun e => e = d) x.dsq }

/-- What its first beat counts. -/
def beatCounted (p : Nat) (d : DsItem) (s : State) : State :=
  stat p (5 + sizeBucket d.bytes.length) 1 (perf (257 + 4 * p) 1 (perf (256 + 4 * p) (min beatBytes d.bytes.length) (unqueued d s)))

/-- The frame is on the bus with its side-band values, taken from a context. -/
def onBus (p sub : Nat) (poison : Fin 3) (d : DsItem) (c : Ctx) (s : State) : State :=
  modPort p (fun P => { P with xfer := some {
    item := d, nonce := if c.clear then 0 else c.nonce, keyIdx := if c.clear then 0 else c.keyIndex, clear := c.clear,
    stamp := shortStamp (captured (unqueued d s) sub (reg s (0x10060 + p * 0x400)).toInt),
    poisoned := decide (poison = 1) } }) (beatCounted p d s)

theorem handOff_idle (h : ∀ t, treeOn s p = some t → handable s p t = false ∨ nextDown s t = none) :
    handOff p sub poison s = s := by
  cases htree : treeOn s p with
  | none => simp [handOff, htree]
  | some t =>
    obtain h | h := h t htree
    · simp [handOff, htree, h]
    · simp [handOff, htree, h]

variable (htree : treeOn s p = some t) (hhand : handable s p t = true) (hnext : nextDown s t = some d)
include htree hhand hnext

theorem handOff_lost {q : Nat} {idx : Word} (hsrc : d.src = some (q, idx)) (hlost : ctxLost s d = true) :
    handOff p sub poison s = txDone q idx 0x0A 255 (unqueued d s) := by
  have hlost' : ctxLost (unqueued d s) d = true := hlost
  simp only [handOff, htree, hhand, hnext, hsrc, if_true]
  exact if_pos hlost'

theorem handOff_badBus (hlost : ctxLost s d = false) : handOff p sub 2 s =
    match d.src with
    | some (q, idx) => txDone q idx 7 13 (stat p 13 1 (busParity (unqueued d s)))
    | none => freeDs p d.cells d.poolCells (stat p 13 1 (busParity (unqueued d s))) := by
  have hlost' : ¬ ctxLost (unqueued d s) d = true := by rw [show ctxLost (unqueued d s) d = false from hlost]; decide
  simp only [handOff, htree, hhand, hnext, if_true]
  exact if_neg hlost'

theorem handOff_control (hsrc : d.src = none) (hp : poison ≠ 2) :
    handOff p sub poison s = parityError poison 0 p (onBus p sub poison d { clear := true } s) := by
  have hlost : ¬ ctxLost (unqueued d s) d = true := by rw [ctxLost_of_control hsrc]; decide
  simp only [handOff, htree, hhand, hnext, hsrc, if_true]
  exact (if_neg hlost).trans (if_neg hp)

theorem handOff_descriptor {q : Nat} {idx : Word} {x y : Tx} {i : Nat} (hsrc : d.src = some (q, idx))
    (hx : findTx s q idx = some x) (hi : slotOfFlow s (txFlow x.ws) = some i) (hp : poison ≠ 2)
    (hy : findTx (onBus p sub poison d (getSlot s i).ctx s) q idx = some y) :
    handOff p sub poison s = parityError poison 0 p
      (takeNonce y d.bytes.length (stampTx y p sub (onBus p sub poison d (getSlot s i).ctx s))) := by
  have hlost : ¬ ctxLost (unqueued d s) d = true := by
    rw [show ctxLost (unqueued d s) d = (slotOfFlow s (txFlow x.ws)).isNone from ctxLost_of_descriptor hsrc hx, hi]
    exact Bool.false_ne_true
  have hctx : itemCtx (unqueued d s) q idx = (getSlot s i).ctx := itemCtx_of_slot hx hi
  simp only [handOff, htree, hhand, hnext, hsrc, if_true]
  refine ((if_neg hlost).trans (if_neg hp)).trans (congrArg (parityError poison 0 p) ?_)
  change (match findTx (onBus p sub poison d (itemCtx (unqueued d s) q idx) s) q idx with
    | some t => takeNonce t d.bytes.length (stampTx t p sub (onBus p sub poison d (itemCtx (unqueued d s) q idx) s))
    | none => onBus p sub poison d (itemCtx (unqueued d s) q idx) s) = _
  rw [hctx, hy]

end HandOff

/-! The counter moves on by one at a hand-off (R205). -/

/-- The end of a frame's hold on its slot leaves every context as it was. -/
theorem ctx_releaseCtx (x : Tx) (s : State) (i : Nat) : (getSlot (releaseCtx x s) i).ctx = (getSlot s i).ctx := by
  have hreserved : ∀ u, (getSlot (if x.inP then modFlow (txFlow x.ws) (fun x => { x with p := x.p - 1 }) u else u) i) =
      getSlot u i := fun u => by split <;> rfl
  simp only [releaseCtx]
  split
  · split
    · next j hj =>
      by_cases hij : i = j
      · rw [hij, getSlot_modSlot, ← hij, hreserved]
      · rw [getSlot_modSlot_ne hij, hreserved]
    · rw [hreserved]
  · rw [hreserved]

theorem ctx_takeNonce {s : State} {x : Tx} {i : Nat} (hi : (getFlow s (txFlow x.ws)).slot = some i)
    (hclear : (getSlot s i).ctx.clear = false) (hfar : (getSlot s i).ctx.nonce + 1 < nonceEnd - 1048575) (len : Nat) :
    (getSlot (takeNonce x len s) i).ctx.nonce = (getSlot s i).ctx.nonce + 1 ∧
    (getSlot (takeNonce x len s) i).ctx.keyIndex = (getSlot s i).ctx.keyIndex := by
  have hfar' : (getSlot s i).ctx.nonce + 1 ≠ nonceEnd - 1048575 := by omega
  simp [takeNonce, hi, hclear, hfar', ctx_releaseCtx, changeCtx]

end Sys2Proof.Machine

namespace Sys2Proof.Proofs

open Sys2Proof.Machine

/-- Settles O26: the tree's next frame is given by its source and its context, each case a lemma (`handOff_control`,
`handOff_descriptor`, `handOff_lost`, `handOff_badBus`), and `ctx_takeNonce` follows the counter through the hand-off. -/
theorem handoff : Obligations.Handoff := by
  refine ⟨?control, ?descriptor, ?badBus, ?lost, ?idle, ?counter⟩
  case control =>
    intro s p sub poison t d hs htree hhand hnext hsrc
    refine ⟨fun hp => next_whenRunning hs (handOff_control htree hhand hnext hsrc hp), ?_⟩
    rintro rfl
    refine next_whenRunning hs ((handOff_badBus htree hhand hnext (ctxLost_of_control hsrc)).trans ?_)
    rw [hsrc]
    rfl
  case descriptor =>
    rintro s u p sub poison t q idx d x y i hs htree hhand hnext hsrc hx hi hp rfl hy
    exact next_whenRunning hs (handOff_descriptor htree hhand hnext hsrc hx hi hp hy)
  case badBus =>
    intro s p sub t q idx d x i hs htree hhand hnext hsrc hx hi
    have hlost : ctxLost s d = false := by rw [ctxLost_of_descriptor hsrc hx, hi]; rfl
    refine next_whenRunning hs ((handOff_badBus htree hhand hnext hlost).trans ?_)
    rw [hsrc]
    rfl
  case lost =>
    intro s p sub poison t q idx d x hs htree hhand hnext hsrc hx hi
    have hlost : ctxLost s d = true := by rw [ctxLost_of_descriptor hsrc hx, hi]; rfl
    exact next_whenRunning hs (handOff_lost htree hhand hnext hsrc hlost)
  case idle =>
    intro s p sub poison h
    exact next_whenRunning_of_fixed (handOff_idle h)
  case counter =>
    intro s x len i hi hclear hfar
    exact ctx_takeNonce hi hclear hfar len

end Sys2Proof.Proofs
end

section
/-! The end of a downstream frame (R24, R54, R107, R117): what it counts, and what its source is given back. -/

namespace Sys2Proof.Machine

theorem whenLive_of_live {s : State} (hs : s.phase = .running ∨ s.phase = .quiesce) (f : State → State) : whenLive f s = f s := by
  obtain h | h := hs
  · simp [whenLive, running, h]
  · simp [whenLive, h]

/-- A command whose arm is one operation of the phases that carry work on. -/
theorem next_whenLive {s u : State} {f : State → State} (hs : s.phase = .running ∨ s.phase = .quiesce) (h : f s = u) :
    (.next (whenLive f s) : Host.Outcome State Fault Refusal) = .next u := by
  rw [whenLive_of_live hs, h]

theorem next_whenLive_of_fixed {s : State} {f : State → State} (h : f s = s) :
    (.next (whenLive f s) : Host.Outcome State Fault Refusal) = .next s := by
  unfold whenLive
  split
  · rw [h]
  · rfl

/-- A frame has left port `p`: its last bytes, its beats and the port's statistics. -/
def frameCounted (p : Nat) (x : Xfer) (bad : Bool) (out : List Byte) (s : State) : State :=
  let s := perf (256 + 4 * p) (out.length - min beatBytes x.item.bytes.length)
    (modPort p (fun P => { P with xfer := none, lastOut := out }) s)
  if bad then stat p 12 1 s
  else
    let s := stat p 1 x.item.bytes.length (stat p 0 1 s)
    if isBroadcast x.item.bytes then stat p 3 1 s else if isMulticast x.item.bytes then stat p 2 1 s else s

section FrameOver
variable {s : State} {p : Nat} {x : Xfer} {bad : Bool} {out : List Byte}

theorem downOver_control (hsrc : x.item.src = none) : downOver p x bad out out.length s =
    let u := freeDs p x.item.cells x.item.poolCells (frameCounted p x bad out s)
    if bad then u else addCtr (rngCtr x.item.tree 10) 1 u := by
  simp only [downOver, hsrc]
  rfl

theorem downOver_descriptor {q : Nat} {idx : Word} {t : Tx} (hsrc : x.item.src = some (q, idx))
    (ht : findTx (frameCounted p x bad out s) q idx = some t) : downOver p x bad out out.length s =
      if t.tsWait then
        modTx q idx (fun t => { t with stage := .stampWait, status := if bad then 0x0F else 0, cells := 0, poolCells := 0 })
          (freeDs t.port t.cells t.poolCells (frameCounted p x bad out s))
      else txDone q idx (if bad then 0x0F else 0) (if bad then 12 else 0) (frameCounted p x bad out s) := by
  simp only [frameCounted] at ht
  simp only [downOver, hsrc, frameCounted, ht]

end FrameOver

/-- At the end of a frame its bytes are out, or those sent and the inverse of their FCS. -/
theorem downEnd_of_xfer {s : State} {p : Nat} {x : Xfer} (hx : (getPort s p).xfer = some x) (sent : Nat) :
    downEnd p false sent s =
      let bad := x.poisoned || x.truncated
      let out := if bad then cutBytes x.item.bytes sent else x.item.bytes
      downOver p x bad out out.length s := by
  simp [downEnd, hx]

theorem downEnd_idle {s : State} {p : Nat} (hx : (getPort s p).xfer = none) (cut : Bool) (sent : Nat) :
    downEnd p cut sent s = s := by
  simp [downEnd, hx]

theorem cutBytes_of_sent {bs : List Byte} {sent : Nat} (hlo : 64 ≤ sent) (hhi : sent ≤ bs.length - 4) :
    cutBytes bs sent = bs.take sent ++ wordBytes (~~~ wordOf (crc32 (bs.take sent))) := by
  have hmax : max (min beatBytes (bs.length - 4)) (min sent (bs.length - 4)) = sent := by
    simp only [beatBytes]
    omega
  simp only [cutBytes, hmax]

end Sys2Proof.Machine

namespace Sys2Proof.Proofs

open Sys2Proof.Machine

/-- Settles O27: the frame on the port's bus ends as `downEnd_of_xfer` says, and its source gets back its cells, its stamp's wait, or
its completion (`downOver_control`, `downOver_descriptor`). -/
theorem downstreamFrameEnd : Obligations.DownstreamFrameEnd := by
  unfold Obligations.DownstreamFrameEnd
  intro cut counted
  have hcounted (p sent : Nat) (x : Xfer) (s : State) : counted p sent x s =
      frameCounted p x (cut x) (if cut x then cutBytes x.item.bytes sent else x.item.bytes) s := rfl
  refine ⟨?control, ?descriptor, ?idle, ?bytes⟩
  case control =>
    intro s p sent x hs hx hsrc
    refine next_whenLive hs ((downEnd_of_xfer hx sent).trans ((downOver_control hsrc).trans ?_))
    rw [hcounted]
  case descriptor =>
    intro s p sent x q idx t hs hx hsrc ht
    rw [hcounted] at ht ⊢
    have hend := (downEnd_of_xfer hx sent).trans (downOver_descriptor hsrc ht)
    exact ⟨fun hwait => next_whenLive hs (hend.trans (if_neg (by simp [hwait]))),
      fun hwait => next_whenLive hs (hend.trans (if_pos hwait))⟩
  case idle =>
    intro s p sent hx
    exact next_whenLive_of_fixed (downEnd_idle hx false sent)
  case bytes =>
    intro bs sent _ hlo hhi
    exact cutBytes_of_sent hlo hhi

end Sys2Proof.Proofs
end

section
/-! Responses of the fabric and the cipher engine (R24–R26, R36, R68): the request that a response names, and what its use does then. -/

namespace Sys2Proof.Machine

section Writes
variable {s : State} {id : Nat}

theorem writeAck_of_outstanding {w : WrReq} (hw : (s.fab.writes.find? fun w => w.id = id) = some w) :
    writeAck id s = writeAcked w (endWrite id s) := by
  simp only [writeAck, hw]

theorem writeAck_of_none (hw : (s.fab.writes.find? fun w => w.id = id) = none) : writeAck id s = s := by
  simp only [writeAck, hw]

theorem fabricError_write {w : WrReq} (hw : (s.fab.writes.find? fun w => w.id = id) = some w) (k : Fin 4) :
    fabricError ⟨true, k⟩ id s = writeFailed w (addrEvent 0x111 w.addr w.use.code (fabParity k w.addr (endWrite id s))) := by
  simp only [fabricError, hw, if_true]

theorem fabricTimeout_write {w : WrReq} (hw : (s.fab.writes.find? fun w => w.id = id) = some w) :
    fabricTimeout true id s = writeFailed w (addrEvent 0x112 w.addr w.use.code (endWrite id s)) := by
  simp only [fabricTimeout, hw, if_true]

theorem fabricError_read {r : RdReq} (hr : (s.fab.reads.find? fun r => r.id = id) = some r) (k : Fin 4) :
    fabricError ⟨false, k⟩ id s = readFailed r (addrEvent 0x110 r.addr r.use.code (fabParity k r.addr (endRead id s))) := by
  simp only [fabricError, hr, Bool.false_eq_true, if_false]

theorem fabricTimeout_read {r : RdReq} (hr : (s.fab.reads.find? fun r => r.id = id) = some r) :
    fabricTimeout false id s = readFailed r (quarantine id (addrEvent 0x112 r.addr r.use.code (endRead id s))) := by
  simp only [fabricTimeout, hr, Bool.false_eq_true, if_false]

end Writes

/-- A completion's failed write goes out once more, and the second time stops its ring. -/
theorem writeFailed_cpl {w : WrReq} {q : Nat} {c : Cpl} (hw : w.use = .cpl q c) (s : State) :
    writeFailed w s = if w.retried then stopWith q w s else reissue w s := by
  simp only [writeFailed, hw]

theorem readFailed_descriptor {r : RdReq} {q : Nat} {idx : Word} (hr : r.use = .payload q idx ∨ r.use = .segList q idx)
    (s : State) : readFailed r s = txDone q idx 9 255 s := by
  obtain h | h := hr
  · simp only [readFailed, h]
  · simp only [readFailed, h]

theorem lateResponse_of_none {s : State} {b : ReadBack} (h : (s.fab.reads.find? fun r => r.id = b.id && r.use.plain) = none) :
    lateResponse b s = admitReads { s with fab := { s.fab with
      quar := dropFirst (fun k => k = b.id) s.fab.quar,
      quarEp := s.fab.quarEp && !(dropFirst (fun k => k = b.id) s.fab.quar).isEmpty } } := by
  simp only [lateResponse, h]
  rfl

theorem lateResponse_of_plain {s : State} {b : ReadBack} {r : RdReq}
    (h : (s.fab.reads.find? fun r => r.id = b.id && r.use.plain) = some r) :
    lateResponse b s = reread r b.ws (returnRead r s) := by
  simp only [lateResponse, h]

theorem cipherTimeout_of_held {s : State} {f : Nat} {o : PageOp} (ho : cipherOp s f = some o) : cipherTimeout f s =
    cipherErr f 0x10000 (endReq f { s with pgr := { s.pgr with quarTags := s.pgr.quarTags ++ o.tags } }) := by
  simp only [cipherTimeout, ho]
  rfl

theorem cipherTimeout_of_none {s : State} {f : Nat} (ho : cipherOp s f = none) : cipherTimeout f s = s := by
  simp only [cipherTimeout, ho]

end Sys2Proof.Machine

namespace Sys2Proof.Proofs

open Sys2Proof.Machine

/-- Settles O31: the write leaves the list (`writeAck_of_outstanding`), and its use names what `writeAcked` does. -/
theorem writeAcknowledge : Obligations.WriteAcknowledge := by
  refine ⟨?acked, ?none⟩
  case acked =>
    intro s id w hs hw u
    have hnext {t : State} (h : writeAcked w u = t) : exec (.fabricWriteAck id) s = .next t :=
      next_whenLive hs ((writeAck_of_outstanding hw).trans h)
    refine ⟨hnext rfl, fun q h => hnext ?_, fun q c h => hnext ?_, fun q lev h => hnext ?_, fun k h => hnext ?_,
      fun f h => hnext ?_⟩
    all_goals rw [writeAcked, h]
  case none =>
    intro s id hw
    exact next_whenLive_of_fixed (writeAck_of_none hw)

/-- Settles O32: each response finds its request (`fabricError_read`, `fabricTimeout_write` and their like), and the use decides what
its failure does (`readFailed_descriptor`, `writeFailed_cpl`). -/
theorem fabricFailures : Obligations.FabricFailures := by
  refine ⟨?read, ?write, ?parity, ?descriptor, ?completion, ?late, ?plain, ?cipher, ?noCipher, ?cipherLate⟩
  case read =>
    intro s id k r hs hr
    exact ⟨next_whenLive hs (fabricError_read hr k), next_whenLive hs (fabricTimeout_read hr)⟩
  case write =>
    intro s id k w hs hw
    exact ⟨next_whenLive hs (fabricError_write hw k), next_whenLive hs (fabricTimeout_write hw)⟩
  case parity =>
    exact fun s a => ⟨rfl, rfl, rfl, rfl⟩
  case descriptor =>
    intro s id r q idx hs hr huse
    exact ⟨next_whenLive hs ((fabricError_read hr 0).trans (readFailed_descriptor huse _)),
      next_whenLive hs ((fabricTimeout_read hr).trans (readFailed_descriptor huse _))⟩
  case completion =>
    intro s id q w c hs hw huse
    have hcode : w.use.code = 4 := by rw [huse]; rfl
    have herror := (fabricError_write hw 0).trans (writeFailed_cpl huse _)
    have htimeout := (fabricTimeout_write hw).trans (writeFailed_cpl huse _)
    rw [hcode] at herror htimeout
    exact ⟨fun h => next_whenLive hs (herror.trans (if_neg (by simp [h]))), fun h => next_whenLive hs (herror.trans (if_pos h)),
      fun h => next_whenLive hs (htimeout.trans (if_pos h))⟩
  case late =>
    intro s b hs h
    exact next_whenLive hs (lateResponse_of_none h)
  case plain =>
    intro s b r hs h
    exact next_whenLive hs (lateResponse_of_plain h)
  case cipher =>
    intro s f o hs ho
    exact next_whenLive hs (congrArg settleMigIns (cipherTimeout_of_held ho))
  case noCipher =>
    intro s f hs ho
    exact next_whenLive hs (congrArg settleMigIns (cipherTimeout_of_none ho))
  case cipherLate =>
    exact fun s => rfl

end Sys2Proof.Proofs
end

section
/-! A frame at stage 6 (R24, R112, R244): it takes its buffers, or is given up. -/

namespace Sys2Proof.Machine

section Stage6
variable {s : State} {id : Nat} {u : Us} (hu : findUs s id = some u)
include hu

theorem rxTake_takes (hstage : u.stage = .buffers) (hahead : aheadAt6 s u = false) {Q : Queue} (hQ : Q = getQueue s (4096 + u.ring))
    (hst : Q.st ≠ .notCreated) (hep : (getQueue s Q.cfg.cq).episode = false) {n : Nat}
    (hn : n = bufsNeeded s u.ring u.kept.length) (hroom : n ≤ Q.cache.length) :
    rxTake id s = writeBufs id (bufBytes Q.cfg) (Q.cache.take n) u.kept
      (modUs id (fun u => { u with stage := .writing, bufs := Q.cache.take n,
                                   mark := u.mark.map fun m => (m.at 4 (stampNow s)).at 5 (stampNow s) })
        (modQueue (4096 + u.ring) (fun Q => { Q with cache := Q.cache.drop n }) s)) := by
  subst hQ hn
  simp only [rxTake, hu]
  exact if_neg (by simp [hstage, hahead, hst, hep, hroom])

theorem rxTake_waits {Q : Queue} (hQ : Q = getQueue s (4096 + u.ring)) (h : u.stage ≠ .buffers ∨ aheadAt6 s u = true ∨
    Q.st = .notCreated ∨ (getQueue s Q.cfg.cq).episode = true ∨ Q.cache.length < bufsNeeded s u.ring u.kept.length) :
    rxTake id s = s := by
  subst hQ
  simp only [rxTake, hu]
  refine if_pos ?_
  simpa only [Bool.or_eq_true, decide_eq_true_eq, or_assoc] using h

/-- The frame's DATA message, if one waits, waits no more. -/
def unsent (id : Nat) (s : State) : State := s.modLnk fun l => { l with out := l.out.filter fun m => m.us ≠ some id }

theorem rxGiveUp_of_waiting (h : u.stage = .buffers ∨ (u.stage = .link ∧ leaving s id = false)) :
    rxGiveUp id s =
      match u.link with
      | some (c, _) => dropUs id (raise 0x150 (wordOf (4096 + u.ring)) (wordOf c) (lstat c 7 1 (unsent id s)))
      | none =>
        if u.err then dropUs id (traceUs u (errCounter u.status)
          (raise 0x150 (wordOf (4096 + u.ring)) (wordOf u.port) (unsent id s)))
        else endUs id 35 (raise 0x150 (wordOf (4096 + u.ring)) (wordOf u.port) (unsent id s)) := by
  have hwaits : (decide (u.stage = .buffers) || (decide (u.stage = .link) && !leaving s id)) = true := by simpa using h
  simp only [rxGiveUp, hu]
  exact if_pos hwaits

theorem rxGiveUp_of_leaving (hstage : u.stage ≠ .buffers) (h : u.stage ≠ .link ∨ leaving s id = true) : rxGiveUp id s = s := by
  simp only [rxGiveUp, hu]
  refine if_neg ?_
  obtain h | h := h
  · simp [hstage, h]
  · simp [hstage, h]

end Stage6

end Sys2Proof.Machine

namespace Sys2Proof.Proofs

open Sys2Proof.Machine

/-- Settles O38: a frame at stage 6 takes its buffers where nothing stands in its way (`rxTake_takes`, `rxTake_waits`), and a frame
that still waits is given up by where it came from (`rxGiveUp_of_waiting`). -/
theorem receiveDelivery : Obligations.ReceiveDelivery := by
  refine ⟨?takes, ?waits, ?givenUp, ?left⟩
  case takes =>
    intro s id n u Q hs hu hstage hahead hQ hst hep hn hroom
    exact next_whenRunning hs (rxTake_takes hu hstage hahead hQ hst hep hn hroom)
  case waits =>
    intro s id u Q hs hu hQ h
    exact next_whenRunning hs (rxTake_waits hu hQ h)
  case givenUp =>
    intro s id u hs hu h
    have hgive := rxGiveUp_of_waiting hu h
    refine ⟨fun hlink herr => next_whenRunning hs (hgive.trans ?_), fun hlink herr => next_whenRunning hs (hgive.trans ?_),
      fun c k hlink => next_whenRunning hs (hgive.trans ?_)⟩
    · rw [hlink, herr]
      rfl
    · rw [hlink, herr]
      rfl
    · rw [hlink]
      rfl
  case left =>
    intro s id u hs hu hstage h
    exact next_whenRunning hs (rxGiveUp_of_leaving hu hstage h)

end Sys2Proof.Proofs
end

section
/-! Cycle pulses (R34, R35, R46, R140, R164, R175): how far a pulse lies from its place, and what the cycle that it starts leaves. -/

namespace Sys2Proof.Machine

/-- A pulse's stamp is kept, and the port's pulses are no longer lost. -/
def pulseNoted (p sub : Nat) (s : State) : State :=
  modPort p (fun P => { P with sPulse := some (now16 s + sub), cycLost := false }) s

section CycleStart
variable {s : State} {p sub : Nat} (hhears : hears (getPort s p) = true)
include hhears

theorem cycleStart_first (h : (getPort s p).sPulse = none ∨ (getPort s p).cycLost = true) {t : Nat}
    (ht : treeOn (pulseNoted p sub s) p = some t) :
    cycleStart p sub s = nextCycle t (now16 s + sub) false (pulseNoted p sub s) := by
  unfold pulseNoted at ht
  have hnoslip : decide (32000 < (0 : Int).natAbs) = false := rfl
  cases hpulse : (getPort s p).sPulse with
  | none => simp only [cycleStart, hhears, hpulse, hnoslip, Bool.not_true, Bool.false_eq_true, if_false, ht, pulseNoted]
  | some x =>
    have hlost : (getPort s p).cycLost = true := h.resolve_left (by simp [hpulse])
    simp only [cycleStart, hhears, hpulse, hlost, hnoslip, Bool.not_true, Bool.false_eq_true, if_true, if_false, ht, pulseNoted]

section Later
variable {x : Int} (hpulse : (getPort s p).sPulse = some x) (hlost : (getPort s p).cycLost = false) {t : Nat}
include hpulse hlost

theorem cycleStart_in_place (hplace : (now16 s + sub - (x + cycle16)).natAbs ≤ 32000)
    (ht : treeOn (pulseNoted p sub s) p = some t) :
    cycleStart p sub s = nextCycle t (now16 s + sub) false (pulseNoted p sub s) := by
  have hslip : decide (32000 < (now16 s + sub - (x + cycle16)).natAbs) = false := decide_eq_false (Nat.not_lt.2 hplace)
  unfold pulseNoted at ht
  simp only [cycleStart, hhears, hpulse, hlost, hslip, Bool.not_true, Bool.false_eq_true, if_false, ht, pulseNoted]

theorem cycleStart_slipped (hplace : 32000 < (now16 s + sub - (x + cycle16)).natAbs)
    (ht : treeOn (raise 0x211 (wordOf p) (wordOfInt ((now16 s + sub - (x + cycle16)) / 16)) (pulseNoted p sub s)) p = some t) :
    cycleStart p sub s = nextCycle t (now16 s + sub) true
      (raise 0x211 (wordOf p) (wordOfInt ((now16 s + sub - (x + cycle16)) / 16)) (pulseNoted p sub s)) := by
  have hslip : decide (32000 < (now16 s + sub - (x + cycle16)).natAbs) = true := decide_eq_true hplace
  unfold pulseNoted at ht
  simp only [cycleStart, hhears, hpulse, hlost, hslip, Bool.not_true, Bool.false_eq_true, if_false, if_true, ht, pulseNoted]

end Later

end CycleStart

/-! The tree's state once its next cycle is in force. -/

theorem getGTree_expectCycle (t cyc r : Nat) (sc : Int) (es : List GEntry) (s : State) :
    getGTree (expectCycle t cyc sc es s) r = getGTree s r := rfl

theorem getGTree_nextCycle (t : Nat) (at' : Int) (slip : Bool) (s : State) :
    (getGTree (nextCycle t at' slip s) t).cycle =
      (if (getGTree s t).counting then ((getGTree s t).cycle + 1) % 4294967296 else 0) ∧
    (getGTree (nextCycle t at' slip s) t).skipNext = slip ∧ (getGTree (nextCycle t at' slip s) t).counting = true := by
  simp only [nextCycle, getGTree_expectCycle, getGTree_modGTree]
  exact ⟨trivial, trivial, trivial⟩

/-! Lost and garbled pulses. -/

theorem cycleLost_reported {s : State} {p : Nat} (hreads : reads (getPort s p) = true) (hlost : (getPort s p).cycLost = false) :
    cycleLost p s = raise 0x212 (wordOf p) 0 (modPort p (fun P => { P with cycLost := true }) s) :=
  if_neg (by simp [hreads, hlost])

theorem cycleLost_idle {s : State} {p : Nat} (h : reads (getPort s p) = false ∨ (getPort s p).cycLost = true) :
    cycleLost p s = s := by
  refine if_pos ?_
  obtain h | h := h
  · simp [h]
  · simp [h]

theorem indication_unread {s : State} {i : Ind} (hreads : reads (getPort s i.p) = false) (f : State → State) :
    indication i f s = s :=
  if_neg (by simp [hreads])

theorem garble_hits {s : State} {p t : Nat} (hreads : reads (getPort s p) = true) (ht : treeOn s p = some t) (sub : Nat) :
    garble p sub s =
      let hit := fun x : Slot => if x.lo ≤ now16 s + sub ∧ now16 s + sub < x.hi then { x with garbled := x.garbled + 1 } else x
      modRTree t (fun r => { r with slots := r.slots.map hit, wins := r.wins.map hit }) s := by
  simp only [garble, ht, hreads, Bool.not_true, Bool.false_eq_true, if_false]

end Sys2Proof.Machine

namespace Sys2Proof.Proofs

open Sys2Proof.Machine

/-- Settles O39: a pulse that is heard starts the next cycle by its place (`cycleStart_first`, `cycleStart_in_place`,
`cycleStart_slipped`), and `getGTree_nextCycle` reads that cycle's number. -/
theorem cyclePulses : Obligations.CyclePulses := by
  refine ⟨?first, ?later, ?dropped, ?numbers, ?lost, ?lostIdle, ?garbled⟩
  case first =>
    intro s p sub t hs hhears h ht
    refine next_whenRunning hs ?_
    rw [if_pos hhears]
    exact cycleStart_first hhears h ht
  case later =>
    rintro s u p sub t x hs hhears hpulse hlost rfl
    have hnext {v : State} (h : cycleStart p sub s = v) : exec (.cycleStart ⟨p, false⟩ sub) s = .next v := by
      refine next_whenRunning hs ?_
      rw [if_pos hhears]
      exact h
    exact ⟨fun hplace ht => hnext (cycleStart_in_place hhears hpulse hlost hplace ht),
      fun hplace ht => hnext (cycleStart_slipped hhears hpulse hlost hplace ht)⟩
  case dropped =>
    intro s p sub hs
    refine ⟨fun hhears => next_whenRunning hs ?_, fun hdeaf lost => next_whenRunning hs ?_, fun hreads => ?_,
      fun hreads lost => ?_⟩
    · rw [if_pos hhears]
      rfl
    · rw [if_neg (by simp [hdeaf])]
      rfl
    · exact next_whenRunning hs (indication_lost hreads _)
    · exact next_whenRunning hs (indication_unread hreads _)
  case numbers =>
    exact fun s t a slip => getGTree_nextCycle t a slip s
  case lost =>
    intro s p hs hreads hlost
    exact next_whenRunning hs (cycleLost_reported hreads hlost)
  case lostIdle =>
    intro s p h
    exact next_whenRunning_of_fixed (cycleLost_idle h)
  case garbled =>
    intro s p sub t hs hreads ht
    refine next_whenRunning hs ((if_pos hreads).trans ?_)
    exact garble_hits hreads ht sub

end Sys2Proof.Proofs
end

section
/-! Re-homing (R35, R264, R265, R269): what a protection pulse does by the tree it is about, and the steps that follow it. -/

namespace Sys2Proof.Machine

/-- A pulse's side and time are kept with its port. -/
def pulseSeen (p : Nat) (side : Bool) (s : State) : State :=
  modPort p (fun P => { P with protSide := side, lastProt := some s.uptime }) s

/-- A pulse is reported with its port, its tree and its side. -/
def pulseTold (p t : Nat) (side : Bool) (s : State) : State := raise 0x215 (wordOf p) (wordOf (t + ofBit side * 256)) s

/-- A tree with no re-homing in progress begins one. -/
def rehomeBegun (t : Nat) (side : Bool) (s : State) : State :=
  modProt t (fun r => { r with phase := 1, target := side, t0 := s.uptime, equalised := false }) s

/-- The local partner of a tree wakes at the pulse. -/
def partnerWoken (t : Nat) (v : State) : State :=
  if protKind v t = 1 && (getPort v (otherHome v t)).enabled then startWake (64 + otherHome v t) (startWake (otherHome v t) v) else v

/-- The port had a pulse in the last two milliseconds. -/
def pulsedLately (s : State) (p : Nat) : Bool :=
  match (getPort s p).lastProt with
  | some u => decide (s.uptime < u + 2000000)
  | none => false

section Pulse
variable {s u : State} {p : Nat} {side : Bool} (hreads : reads (getPort s p) = true) (hu : u = pulseSeen p side s)
include hreads hu

theorem protSwitch_seen :
    protSwitch p side s =
      match pulseTree u p with
      | none => u
      | some t =>
        let v := if 1 ≤ (getProt u t).phase ∧ (getProt u t).phase ≤ 3 then modProt t (fun r => { r with target := side }) u else u
        if pbReaction (pbEntry v 0x215) ≠ 7 then pulseTold p t side v
        else if (getPort v (homeOf v t)).held then pulseTold p t side (reacted false v)
        else if pulseStarts (reacted true v) p t side (pulsedLately s p) then
          rehomeCheck t (pulseTold p t side (freeze t (partnerWoken t (rehomeBegun t side (reacted true v)))))
        else pulseTold p t side (reacted true v) := by
  subst hu
  exact if_neg (by simp [hreads])

theorem protSwitch_noTree (ht : pulseTree u p = none) : protSwitch p side s = u := by
  rw [protSwitch_seen hreads hu, ht]

section Tree
variable {t : Nat} (ht : pulseTree u p = some t) (hphase : (getProt u t).phase = 0)
include ht hphase

theorem protSwitch_tree :
    protSwitch p side s =
      if pbReaction (pbEntry u 0x215) ≠ 7 then pulseTold p t side u
      else if (getPort u (homeOf u t)).held then pulseTold p t side (reacted false u)
      else if pulseStarts (reacted true u) p t side (pulsedLately s p) then
        rehomeCheck t (pulseTold p t side (freeze t (partnerWoken t (rehomeBegun t side (reacted true u)))))
      else pulseTold p t side (reacted true u) := by
  have hidle : ¬ (1 ≤ (getProt u t).phase ∧ (getProt u t).phase ≤ 3) := by omega
  rw [protSwitch_seen hreads hu, ht]
  simp only [if_neg hidle]

theorem protSwitch_otherReaction (hreact : pbReaction (pbEntry u 0x215) ≠ 7) : protSwitch p side s = pulseTold p t side u := by
  rw [protSwitch_tree hreads hu ht hphase, if_pos hreact]

section Rehome
variable (hreact : pbReaction (pbEntry u 0x215) = 7)
include hreact

theorem protSwitch_held (hheld : (getPort u (homeOf u t)).held = true) :
    protSwitch p side s = pulseTold p t side (reacted false u) := by
  rw [protSwitch_tree hreads hu ht hphase, if_neg (not_not.2 hreact), if_pos hheld]

theorem protSwitch_starts (hheld : (getPort u (homeOf u t)).held = false) (hfirst : (getPort s p).lastProt = none)
    (hstarts : pulseStarts (reacted true u) p t side false = true) :
    protSwitch p side s =
      rehomeCheck t (pulseTold p t side (freeze t (partnerWoken t (rehomeBegun t side (reacted true u))))) := by
  have hlately : pulsedLately s p = false := by simp [pulsedLately, hfirst]
  rw [protSwitch_tree hreads hu ht hphase, if_neg (not_not.2 hreact), if_neg (by simp [hheld]), hlately, if_pos hstarts]

end Rehome

end Tree

end Pulse

theorem partnerWoken_other {t : Nat} {v : State} (h : protKind v t ≠ 1) : partnerWoken t v = v :=
  if_neg (by simp [h])

theorem partnerWoken_local {t : Nat} {v : State} (h : protKind v t = 1) (hen : (getPort v (otherHome v t)).enabled = true) :
    partnerWoken t v = startWake (64 + otherHome v t) (startWake (otherHome v t) v) :=
  if_pos (by simp [h, hen])

theorem protKind_rehomeBegun (t : Nat) (side : Bool) (u : State) :
    protKind (rehomeBegun t side (reacted true u)) t = protKind u t := rfl

theorem getPort_rehomeBegun (t q : Nat) (side : Bool) (u : State) :
    getPort (rehomeBegun t side (reacted true u)) q = getPort u q := rfl

/-! The check, the rebind and the resume. -/

theorem rehomeCheck_clear {s : State} {t : Nat} (h : rehomeFault s t = none) :
    rehomeCheck t s = if protKind s t = 2 then migStart t (protInstance s t) none s else s := by
  simp only [rehomeCheck, h]

theorem rehomeCheck_fault {s : State} {t k : Nat} (h : rehomeFault s t = some k) : rehomeCheck t s = rehomeFail t k s := by
  simp only [rehomeCheck, h]

section Steps
variable {s : State} {t : Nat}

theorem rehomeRebind_partnerGone (hphase : (getProt s t).phase = 1) (hkind : protKind s t = 1)
    (hgood : (getPort s (otherHome s t)).good = false) : rehomeRebind t s = rehomeFail t 0 s := by
  simp [rehomeRebind, hphase, hkind, hgood]

theorem rehomeRebind_moves (hphase : (getProt s t).phase = 1)
    (hgood : protKind s t ≠ 1 ∨ (getPort s (otherHome s t)).good = true) :
    rehomeRebind t s =
      let goal := !(getProt s t).side
      let w := equalise t (deltaTo s t goal) goal (if protKind s t = 1 then rebind t (downCut (homeOf s t) s) else s)
      if (getProt s t).target ≠ goal then modProt t (fun x => { x with side := goal }) w
      else resumeParked (fun x => x.tree = t) (modProt t (fun x => { x with side := goal, phase := 2, equalised := true }) w) := by
  have hstays : (protKind s t = 1 && !(getPort s (otherHome s t)).good) = false := by
    obtain h | h := hgood
    · simp [h]
    · simp [h]
  simp only [rehomeRebind, hphase, hstays, ne_eq, not_true_eq_false, Bool.false_eq_true, if_false]

section Resume
variable (hphase : (getProt s t).phase = 2) (heq : (getProt s t).equalised = true)
include hphase heq

theorem rehomeResume_again (h : (getProt s t).target ≠ (getProt s t).side) :
    rehomeResume t s = freeze t (modProt t (fun x => { x with phase := 1, equalised := false }) s) := by
  simp [rehomeResume, hphase, heq, h]

theorem rehomeResume_ends (h : (getProt s t).target = (getProt s t).side) :
    rehomeResume t s =
      let u := addCtr (protCtr 0) 1 (treeResumes t s)
      raise 0x231 (wordOf t) (wordOf ((u.uptime - (getProt s t).t0) / 1000)) u := by
  simp [rehomeResume, hphase, heq, h]

end Resume

end Steps

end Sys2Proof.Machine

namespace Sys2Proof.Proofs

open Sys2Proof.Machine

/-- Settles O49: a pulse by the tree it is about and the reaction of the playbook (`protSwitch_noTree` and what follows it), then
the check (`rehomeCheck_clear`, `rehomeCheck_fault`), the rebind and the resume. -/
theorem rehoming : Obligations.Rehoming := by
  unfold Obligations.Rehoming
  intro noted
  have hnoted (s : State) (p : Nat) (side : Bool) : noted s p side = pulseSeen p side s := rfl
  have hpulse {s t : State} {p : Fin 64} {side : Bool} (hs : s.phase = .running) (hreads : reads (getPort s p) = true)
      (h : protSwitch p side s = t) : exec (.protSwitch ⟨p, false⟩ side) s = .next t :=
    next_whenRunning hs ((if_pos hreads).trans h)
  refine ⟨?idle, ?tree, ?clear, ?fault, ?gone, ?rebind, ?resume⟩
  case idle =>
    intro s p side hs
    exact ⟨fun hreads => next_whenRunning hs (indication_unread hreads _),
      fun hreads => next_whenRunning hs (indication_lost hreads _),
      fun hreads ht => hpulse hs hreads (protSwitch_noTree hreads (hnoted s p side) ht)⟩
  case tree =>
    intro s u p side t hs hreads hu ht hphase
    refine ⟨fun hreact => hpulse hs hreads (protSwitch_otherReaction hreads hu ht hphase hreact),
      fun hreact hheld => hpulse hs hreads (protSwitch_held hreads hu ht hphase hreact hheld),
      fun v hreact hheld hfirst hstarts hv => ?_⟩
    have hstart := protSwitch_starts hreads hu ht hphase hreact hheld hfirst hstarts
    have hv' : rehomeBegun t side (reacted true u) = v := hv.symm
    rw [hv'] at hstart
    refine ⟨fun hkind => hpulse hs hreads (hstart.trans ?_), fun hkind hen => hpulse hs hreads (hstart.trans ?_)⟩
    · rw [partnerWoken_other (by rw [← hv', protKind_rehomeBegun]; exact hkind)]
      rfl
    · have hlocal : protKind v t = 1 := by rw [← hv', protKind_rehomeBegun, hkind]
      have hport : getPort v (otherHome v t) = getPort u (otherHome v t) := by rw [← hv', getPort_rehomeBegun]
      rw [partnerWoken_local hlocal (by rw [hport, hen])]
      rfl
  case clear =>
    intro s t h
    refine ⟨fun hkind => ?_, fun hkind => ?_⟩
    · rw [rehomeCheck_clear h, if_neg hkind]
    · rw [rehomeCheck_clear h, if_pos hkind]
  case fault =>
    exact fun s t k h => rehomeCheck_fault h
  case gone =>
    intro s t hs hphase hkind hgood
    exact next_whenRunning hs (rehomeRebind_partnerGone hphase hkind hgood)
  case rebind =>
    rintro s v w t goal hs hphase hgood rfl rfl rfl
    refine ⟨fun h => next_whenRunning hs ?_, fun h => next_whenRunning hs ?_⟩
    · exact (rehomeRebind_moves hphase hgood).trans (if_neg (not_not.2 h))
    · exact (rehomeRebind_moves hphase hgood).trans (if_pos h)
  case resume =>
    intro s t hs hphase heq
    refine ⟨fun h => next_whenRunning hs (rehomeResume_again hphase heq h), ?_⟩
    rintro u h rfl
    exact next_whenRunning hs (rehomeResume_ends hphase heq h)

end Sys2Proof.Proofs
end

section
/-! The transmit stamp ring and the trace ring (R25, R221–R225, R325): what an enable, a CI read and its response do. -/

namespace Sys2Proof.Machine

theorem storeFields_tim (off : Nat) (v : Word) (s : State) : (storeFields off v s).tim = s.tim := by
  unfold storeFields
  split
  · rfl
  · rfl

theorem storeFields_mon (off : Nat) (v : Word) (s : State) : (storeFields off v s).mon = s.mon := by
  unfold storeFields
  split
  · rfl
  · rfl

theorem reg_storeFields_ne {off r : Nat} (h : r ≠ off) (v : Word) (s : State) : reg (storeFields off v s) r = reg s r := by
  unfold storeFields
  split
  · exact reg_setReg_ne h _ s
  · rfl

theorem regAddr_storeFields_ne {off r : Nat} (hlow : r ≠ off) (hhigh : r + 4 ≠ off) (v : Word) (s : State) :
    regAddr (storeFields off v s) r = regAddr s r := by
  simp only [regAddr, reg_storeFields_ne hlow, reg_storeFields_ne hhigh]

theorem areaStart_agree (i : Word) : areaStart (.data (i, i)) = some i := if_pos rfl

theorem areaStart_none {index : Answer (Word × Word)} (h : ∀ i, index ≠ .data (i, i)) : areaStart index = none := by
  cases index with
  | data x =>
    obtain ⟨pi, ci⟩ := x
    have hne : pi ≠ ci := fun heq => h pi (by rw [heq])
    exact if_neg hne
  | error => rfl
  | timeout => rfl

/-! An enable. -/

theorem tsqStart_runs {s : State} (h : s.tim.tsqEn = true) (index : Answer (Word × Word)) : tsqStart index s = s := if_pos h

theorem traceStart_runs {s : State} (h : s.mon.trEn = true) (index : Answer (Word × Word)) : traceStart index s = s := if_pos h

section Start
variable {s : State} {index : Answer (Word × Word)}

theorem tsqStart_agree {i : Word} (hen : s.tim.tsqEn = false) (hi : areaStart index = some i) :
    tsqStart index s = (areaRead (regAddr s 0x70030) index s).modTim fun t =>
      { t with tsqEn := true, tsqBad := false, tsqPi := i, tsqCi := i, tsqUnrep := 0, tsqIdx := none } := by
  simp only [tsqStart, hen, hi, Bool.false_eq_true, if_false]

theorem tsqStart_bad (hen : s.tim.tsqEn = false) (hi : areaStart index = none) :
    tsqStart index s = (areaRead (regAddr s 0x70030) index s).modTim fun t => { t with tsqBad := true } := by
  simp only [tsqStart, hen, hi, Bool.false_eq_true, if_false]

theorem traceStart_agree {i : Word} (hen : s.mon.trEn = false) (hi : areaStart index = some i) :
    traceStart index s = (areaRead (regAddr s 0xB0020) index s).modMon fun m =>
      { m with trEn := true, trBad := false, trStopped := false, trPi := i, trCi := i, trUnrep := 0, trIdx := none } := by
  simp only [traceStart, hen, hi, Bool.false_eq_true, if_false]

theorem traceStart_bad (hen : s.mon.trEn = false) (hi : areaStart index = none) :
    traceStart index s = (areaRead (regAddr s 0xB0020) index s).modMon fun m => { m with trBad := true } := by
  simp only [traceStart, hen, hi, Bool.false_eq_true, if_false]

end Start

section Enable
variable {s : State} (hs : s.phase = .running) {v : Word} (index : Answer (Word × Word))
include hs

theorem tsqEnable_starts (hok : refusal s 0x70020 4 v = none) (hbit : bitOf v 0 = true) :
    tsqEnable v index s = tsqStart index (storeFields 0x70020 v s) :=
  (windowWrite_of_allowed hs hok _).trans (if_pos hbit)

theorem tsqEnable_stored (hok : refusal s 0x70020 4 v = none) (h : bitOf v 0 = false ∨ s.tim.tsqEn = true) :
    tsqEnable v index s = storeFields 0x70020 v s := by
  cases hbit : bitOf v 0 with
  | false => exact (windowWrite_of_allowed hs hok _).trans (if_neg (by simp [hbit]))
  | true =>
    have hen : (storeFields 0x70020 v s).tim.tsqEn = true := by
      rw [storeFields_tim]
      exact h.resolve_left (by simp [hbit])
    rw [tsqEnable_starts hs index hok hbit, tsqStart_runs hen]

theorem traceEnable_starts (hok : refusal s 0xB0010 4 v = none) (hbit : bitOf v 0 = true) :
    traceEnable v index s = traceStart index (storeFields 0xB0010 v s) :=
  (windowWrite_of_allowed hs hok _).trans (if_pos hbit)

theorem traceEnable_stored (hok : refusal s 0xB0010 4 v = none) (h : bitOf v 0 = false ∨ s.mon.trEn = true) :
    traceEnable v index s = storeFields 0xB0010 v s := by
  cases hbit : bitOf v 0 with
  | false => exact (windowWrite_of_allowed hs hok _).trans (if_neg (by simp [hbit]))
  | true =>
    have hen : (storeFields 0xB0010 v s).mon.trEn = true := by
      rw [storeFields_mon]
      exact h.resolve_left (by simp [hbit])
    rw [traceEnable_starts hs index hok hbit, traceStart_runs hen]

end Enable

/-! A CI read and its response. -/

theorem ciReadOk_due {s : State} {u : RdUse} (hask : asked s u = false) {at' : Option Nat}
    (h : ∀ n, at' = some n → n + 1000 ≤ s.uptime) : ciReadOk s true true u at' = true := by
  cases at' with
  | none => simp [ciReadOk, hask]
  | some n => simp [ciReadOk, hask, h n rfl]

theorem tsqCiRead_due {s : State} (hen : s.tim.tsqEn = true) (hstop : s.tim.tsqStopped = false)
    (hfull : gap s.tim.tsqPi s.tim.tsqCi = 128) (hask : asked s .tsqCi = false)
    (h : ∀ n, s.tim.tsqReadAt = some n → n + 1000 ≤ s.uptime) :
    tsqCiRead s = addCtr (timCtr 3) 1
      (fabRead .tsqCi (regAddr s 0x70030) 8 (s.modTim fun t => { t with tsqReadAt := some s.uptime })) := by
  refine if_pos ?_
  simp only [hen, hstop, hfull, decide_true, Bool.not_false, Bool.and_self]
  exact ciReadOk_due hask h

theorem traceCiRead_due {s : State} (hen : s.mon.trEn = true) (hstop : s.mon.trStopped = false)
    (hfull : gap s.mon.trPi s.mon.trCi = 2 ^ traceSize s) (hask : asked s .traceCi = false)
    (h : ∀ n, s.mon.trReadAt = some n → n + 1000 ≤ s.uptime) :
    traceCiRead s = fabRead .traceCi (regAddr s 0xB0020) 8 (s.modMon fun m => { m with trReadAt := some s.uptime }) := by
  refine if_pos ?_
  simp only [hen, hstop, hfull, decide_true, Bool.not_false, Bool.and_self]
  exact ciReadOk_due hask h

theorem tsqCiIn_reading {s : State} (h : reading s .tsqCi = true) (ci : Word) :
    tsqCiIn ci s =
      let u := returnReads (fun x => x = .tsqCi) s
      if 128 < gap u.tim.tsqPi ci then
        settleStamps (u.tim.tsqHold.foldl (fun s e => loseStamp e s)
          (raise 0x722 u.tim.tsqPi ci (u.modTim fun t => { t with tsqStopped := true, tsqHold := [] })))
      else stampsWait (drainStamps 16 (u.modTim fun t => { t with tsqCi := ci })) :=
  if_neg (by simp [h])

theorem traceCiIn_reading {s u : State} (h : reading s .traceCi = true) (hu : u = returnReads (fun x => x = .traceCi) s)
    (hen : u.mon.trEn = true) (hstop : u.mon.trStopped = false) (ci : Word) :
    traceCiIn ci s =
      if 2 ^ traceSize u < gap u.mon.trPi ci then
        perf 30 u.mon.trHold.length (u.modMon fun m =>
          { m with trStopped := true, trHold := [], trLost := u.mon.trLost + u.mon.trHold.length })
      else drainTrace 32 (u.modMon fun m => { m with trCi := ci }) := by
  subst hu
  exact (if_neg (by simp [h])).trans (if_neg (by simp [hen, hstop]))

end Sys2Proof.Machine

namespace Sys2Proof.Proofs

open Sys2Proof.Machine

/-- Settles O53: an enable by its two words (`areaStart_agree`, `areaStart_none`), a CI read that is due, and its response in
and out of range. -/
theorem stampAndTraceRings : Obligations.StampAndTraceRings := by
  refine ⟨?writes, ?stampEnable, ?stampRead, ?stampCi, ?traceEnable, ?traceRead, ?traceCi⟩
  case writes =>
    intro s v index hs
    exact ⟨fun k h => congrArg Host.Outcome.next (windowWrite_of_refused hs h _),
      fun hok h => congrArg Host.Outcome.next (tsqEnable_stored hs index hok h),
      fun k h => congrArg Host.Outcome.next (windowWrite_of_refused hs h _),
      fun hok h => congrArg Host.Outcome.next (traceEnable_stored hs index hok h)⟩
  case stampEnable =>
    rintro s u v index hs hok hbit hen rfl
    have hfree : (storeFields 0x70020 v s).tim.tsqEn = false := by rw [storeFields_tim, hen]
    rw [← regAddr_storeFields_ne (by decide : 0x70030 ≠ 0x70020) (by decide) v s]
    refine ⟨?_, fun h =>
      congrArg Host.Outcome.next ((tsqEnable_starts hs index hok hbit).trans (tsqStart_bad hfree (areaStart_none h)))⟩
    rintro i rfl
    exact congrArg Host.Outcome.next ((tsqEnable_starts hs _ hok hbit).trans (tsqStart_agree hfree (areaStart_agree i)))
  case stampRead =>
    intro s hs hen hstop hfull hask h
    exact next_whenRunning hs (tsqCiRead_due hen hstop hfull hask h)
  case stampCi =>
    rintro s u ci hs hread rfl
    exact ⟨fun hin => next_whenRunning hs ((tsqCiIn_reading hread ci).trans (if_neg (Nat.not_lt.2 hin))),
      fun hout => next_whenRunning hs ((tsqCiIn_reading hread ci).trans (if_pos hout))⟩
  case traceEnable =>
    rintro s u v index hs hok hbit hen rfl
    have hfree : (storeFields 0xB0010 v s).mon.trEn = false := by rw [storeFields_mon, hen]
    rw [← regAddr_storeFields_ne (by decide : 0xB0020 ≠ 0xB0010) (by decide) v s]
    refine ⟨?_, fun h =>
      congrArg Host.Outcome.next ((traceEnable_starts hs index hok hbit).trans (traceStart_bad hfree (areaStart_none h)))⟩
    rintro i rfl
    exact congrArg Host.Outcome.next ((traceEnable_starts hs _ hok hbit).trans (traceStart_agree hfree (areaStart_agree i)))
  case traceRead =>
    intro s hs hen hstop hfull hask h
    exact next_whenRunning hs (traceCiRead_due hen hstop hfull hask h)
  case traceCi =>
    intro s u ci hs hread hu hen hstop
    exact ⟨fun hin => next_whenRunning hs ((traceCiIn_reading hread hu hen hstop ci).trans (if_neg (Nat.not_lt.2 hin))),
      fun hout => next_whenRunning hs ((traceCiIn_reading hread hu hen hstop ci).trans (if_pos hout))⟩

end Sys2Proof.Proofs
end

section
/-! The time island (R37, R47, R212, R214–R216, R225–R228): its reference, a step of its time base, and the whistles. -/

namespace Sys2Proof.Machine

/-! Guards. -/

theorem timeAlive_of_running {s : State} (hs : s.phase = .running) : timeAlive s = true := by simp [timeAlive, hs]

theorem atTurn_of_due {s : State} {q op : Nat} {idx : Word} {a : Adm} (hfind : findAdm s (5120 + q) idx = some a)
    (hop : aOp a.ws = op) (hok : turnOk s a = true) (f : Adm → State → State) : atTurn q idx op f s = f a s := by
  simp [atTurn, hfind, hop, hok]

/-! The time reference. -/

section Reference
variable {s : State} (hs : s.phase = .running)
include hs

theorem refLost_running : refLost s = raise 0x710 0 0 (s.modTim fun t => { t with refLock := false, refLostSeen := true }) :=
  (if_neg (by simp [timeAlive_of_running hs])).trans (whenRunning_of_running (by exact hs) _)

theorem refBack_running : refBack s = raise 0x711 0 0 (s.modTim fun t => { t with refLock := true }) :=
  (if_neg (by simp [timeAlive_of_running hs])).trans (whenRunning_of_running (by exact hs) _)

end Reference

/-! A step of the time base. -/

theorem timeStep_first {s : State} (h : s.tim.stepped = false) (a : Adm) :
    timeStep a s =
      let w := (tick s).modTim (stepTime a.ws)
      let d := now32 w.tim - now32 (tick s).tim
      admDone a.q a.idx 0 [] (bwEnd true (eachBelow 8 (whistleStep (decide (0 < d)))
        (launchAll (raise 0x712 (wordOfInt (d / 4294967296)) (wordOfInt (d / 4294967296 / 4294967296))
          (shiftTimes (d / 268435456) w))))) :=
  if_neg (by simp [h])

theorem timeStep_again {s : State} (h : s.tim.stepped = true) (a : Adm) : timeStep a s = admDone a.q a.idx 2 [] s := if_pos h

/-- After a step the time base, its rate and the uptime are those of the edge that took the value given. -/
theorem timeStep_kept {s : State} (h : s.tim.stepped = false) (a : Adm) :
    (timeStep a s).kept = ((tick s).modTim (stepTime a.ws)).kept := by
  rw [timeStep_first h]
  simp

theorem tick_kept {s : State} (hs : s.phase = .running) :
    (tick s).kept = ({ s with tim := timeEdge s.tim, uptime := s.uptime + 1 } : State).kept := by
  simp only [tick, timeAlive_of_running hs, Bool.not_true, Bool.false_eq_true, if_false]
  exact whenLive_kept _ _ fun x => by simp

theorem uptime_of_kept {s t : State} (h : t.kept = s.kept) : t.uptime = s.uptime :=
  congrArg (fun k => k.base.uptime) h

theorem rate_of_kept {s t : State} (h : t.kept = s.kept) : t.tim.rate = s.tim.rate :=
  congrArg (fun k => k.base.rate) h

theorem timeBase_of_kept {s t : State} (h : t.kept = s.kept) :
    t.tim.sec = s.tim.sec ∧ t.tim.ns = s.tim.ns ∧ t.tim.frac = s.tim.frac :=
  ⟨congrArg (fun k => k.base.sec) h, congrArg (fun k => k.base.ns) h, congrArg (fun k => k.base.frac) h⟩

theorem stepTime_rate (ws : List Word) (t : Tim) : (stepTime ws t).rate = t.rate := by
  cases t
  rfl

theorem tim_modTim (f : Tim → Tim) (u : State) : (u.modTim f).tim = f u.tim := rfl

theorem rate_modTim_stepTime (ws : List Word) (u : State) : (u.modTim (stepTime ws)).tim.rate = u.tim.rate := by
  rw [tim_modTim, stepTime_rate]

theorem timeBase_modTim_stepTime (ws : List Word) (u : State) :
    (u.modTim (stepTime ws)).tim.sec = (aData ws 0).toNat + bitsOf (aParam ws) 0 16 * 4294967296 ∧
    (u.modTim (stepTime ws)).tim.ns = bitsOf (aData ws 1) 0 30 ∧ (u.modTim (stepTime ws)).tim.frac = (aData ws 2).toNat := by
  simp only [State.modTim, stepTime, and_self]

theorem timeEdge_rate (t : Tim) : (timeEdge t).rate = t.rate := by
  simp only [timeEdge]
  split
  · rfl
  · rfl

theorem timeStep_base {s : State} (hs : s.phase = .running) (h : s.tim.stepped = false) (a : Adm) :
    (timeStep a s).uptime = s.uptime + 1 ∧ (timeStep a s).tim.rate = s.tim.rate ∧
    (timeStep a s).tim.sec = (aData a.ws 0).toNat + bitsOf (aParam a.ws) 0 16 * 4294967296 ∧
    (timeStep a s).tim.ns = bitsOf (aData a.ws 1) 0 30 ∧ (timeStep a s).tim.frac = (aData a.ws 2).toNat := by
  have hk := timeStep_kept h a
  have ht := tick_kept hs
  obtain ⟨hsec, hns, hfrac⟩ := timeBase_of_kept hk
  obtain ⟨hsetSec, hsetNs, hsetFrac⟩ := timeBase_modTim_stepTime a.ws (tick s)
  refine ⟨?_, ?_, hsec.trans hsetSec, hns.trans hsetNs, hfrac.trans hsetFrac⟩
  · calc (timeStep a s).uptime = ((tick s).modTim (stepTime a.ws)).uptime := uptime_of_kept hk
      _ = (tick s).uptime := State.modTim_uptime _ _
      _ = s.uptime + 1 := uptime_of_kept ht
  · calc (timeStep a s).tim.rate = ((tick s).modTim (stepTime a.ws)).tim.rate := rate_of_kept hk
      _ = (tick s).tim.rate := rate_modTim_stepTime a.ws (tick s)
      _ = (timeEdge s.tim).rate := rate_of_kept ht
      _ = s.tim.rate := timeEdge_rate s.tim

/-! `TIM_NOW`. -/

theorem refusal_timNow (s : State) : refusal s 0x70004 4 1 = none := rfl

theorem timNowSnap_running {s : State} (hs : s.phase = .running) :
    windowWrite 0x70004 4 1 nowSnap s = nowSnap (storeFields 0x70004 1 s) :=
  windowWrite_of_allowed hs (refusal_timNow s) _

theorem storeFields_hif (off : Nat) (v : Word) (s : State) : (storeFields off v s).hif = s.hif := by
  unfold storeFields
  split
  · rfl
  · rfl

/-! A whistle's programme. -/

section Programme
variable {s : State} {a : Adm}

theorem whistleSet_off (h : bitsOf (aData a.ws 0) 0 2 = 0) :
    whistleSet a s = admDone a.q a.idx 0 [] (modWhistle (target a) (fun x => { missed := x.missed, fallAt := x.fallAt }) s) :=
  if_pos h

variable {mode start first : Nat} (hmode : mode = bitsOf (aData a.ws 0) 0 2) (hon : mode ≠ 0)
  (hstart : start = epochNs s + ((aData a.ws 1).toNat + bitsOf (aData a.ws 2) 0 16 * 4294967296) * 1000000000 +
    (aData a.ws 3).toNat)
  (hfirst : first = if mode = 1 then start else nextPulse start (aData a.ws 4).toNat (soonest s))
include hmode hon hstart hfirst

theorem whistleSet_on :
    whistleSet a s = if first < soonest s then admRefuse a 4 s
      else admDone a.q a.idx 0
        [wordOf (first / 1000000000 % 4294967296), wordOf (first / 1000000000 / 4294967296 % 65536), wordOf (first % 1000000000)]
        (modWhistle (target a) (fun x => { x with
          mode := mode, width := bitsOf (aData a.ws 0) 8 24, period := (aData a.ws 4).toNat, start := start, nextAt := first }) s) := by
  subst hmode hstart hfirst
  exact if_neg hon

end Programme

theorem ceilDiv_le_iff {a b c : Nat} (hb : 0 < b) : ceilDiv a b ≤ c ↔ a ≤ b * c := ceilDiv_le_iff_le_mul hb

section NextPulse
variable {start period now : Nat} (hperiod : 0 < period)

theorem start_le_nextPulse : start ≤ nextPulse start period now := by
  unfold nextPulse
  split
  · exact Nat.le_refl _
  · exact Nat.le_add_right _ _

theorem nextPulse_in_step : (nextPulse start period now - start) % period = 0 := by
  unfold nextPulse
  split
  · simp
  · simp

include hperiod

theorem le_nextPulse : now ≤ nextPulse start period now := by
  unfold nextPulse
  split
  · assumption
  · have h : now - start ≤ period * ceilDiv (now - start) period := (ceilDiv_le_iff hperiod).1 (Nat.le_refl _)
    rw [Nat.mul_comm] at h
    omega

theorem nextPulse_least {k : Nat} (h : now ≤ start + k * period) : nextPulse start period now ≤ start + k * period := by
  unfold nextPulse
  split
  · exact Nat.le_add_right _ _
  · have hk : ceilDiv (now - start) period ≤ k := (ceilDiv_le_iff hperiod).2 (by rw [Nat.mul_comm]; omega)
    exact Nat.add_le_add_left (Nat.mul_le_mul_right period hk) start

end NextPulse

/-! A whistle's pulse. -/

section Pulse
variable {s : State} {w : Nat}

section Rise
variable (hmode : (getWhistle s w).mode ≠ 0) (hdue : (getWhistle s w).nextAt ≤ nowAbs s)
include hmode hdue

theorem whistleRise_emitted (hs : s.phase = .running) :
    whistleRise w s = addCtr (timCtr 2) 1 (pulsePast w
      (modWhistle w (fun x => { x with fallAt := some (x.nextAt + x.width) }) s)) := by
  have hlate : ¬ nowAbs s < (getWhistle s w).nextAt := Nat.not_lt.2 hdue
  simp [whistleRise, timeAlive_of_running hs, hmode, hlate, (running_iff s).2 hs]

theorem whistleRise_missed (hs : s.phase = .quiesce ∨ s.phase = .warmInit) :
    whistleRise w s = missPulse w (getWhistle s w).nextAt (pulsePast w s) := by
  have hlate : ¬ nowAbs s < (getWhistle s w).nextAt := Nat.not_lt.2 hdue
  have halive : timeAlive s = true := by
    obtain h | h := hs
    · simp [timeAlive, h]
    · simp [timeAlive, h]
  have hrun : running s = false := by
    obtain h | h := hs
    · simp [running, h]
    · simp [running, h]
  simp [whistleRise, halive, hmode, hlate, hrun]

end Rise

theorem whistleFall_due {n : Nat} (hfall : (getWhistle s w).fallAt = some n) :
    whistleFall w s = if n ≤ nowAbs s then modWhistle w (fun x => { x with fallAt := none }) s else s := by
  simp only [whistleFall, hfall]

end Pulse

end Sys2Proof.Machine

namespace Sys2Proof.Proofs

open Sys2Proof.Machine

/-- Settles O51: a step of the time base is one edge that takes the value given (`timeStep_first`, `timeStep_base`), a
programme's first pulse is the least one far enough ahead (`nextPulse_least`), and a pulse is emitted while the block runs. -/
theorem timeIsland : Obligations.TimeIsland := by
  have hturn {s t : State} {q : Fin 64} {idx : Word} {op : Nat} {a : Adm} {f : Adm → State → State} (hs : s.phase = .running)
      (hat : AtTurn s q idx op a) (h : f a s = t) : whenRunning (atTurn q idx op f) s = t := by
    obtain ⟨hfind, hop, hok⟩ := hat
    rw [whenRunning_of_running hs, atTurn_of_due hfind hop hok, h]
  refine ⟨?reference, ?step, ?stepBase, ?again, ?rate, ?snap, ?snapIdle, ?snapFrame, ?off, ?on, ?least, ?rise, ?fall⟩
  case reference =>
    intro s hs
    exact ⟨congrArg Host.Outcome.next (refLost_running hs), congrArg Host.Outcome.next (refBack_running hs),
      congrArg Host.Outcome.next (if_pos (timeAlive_of_running hs))⟩
  case step =>
    rintro s v w q idx a d hs hat hfirst rfl rfl rfl
    exact congrArg Host.Outcome.next (hturn hs hat (timeStep_first hfirst a))
  case stepBase =>
    intro s q idx a hs hat hfirst
    exact ⟨timeStep a s, congrArg Host.Outcome.next (hturn hs hat rfl), timeStep_base hs hfirst a⟩
  case again =>
    intro s q idx a hs hat hdone
    exact congrArg Host.Outcome.next (hturn hs hat (timeStep_again hdone a))
  case rate =>
    intro s q idx a hs hat
    exact congrArg Host.Outcome.next (hturn hs hat rfl)
  case snap =>
    intro s hs
    exact congrArg Host.Outcome.next (timNowSnap_running hs)
  case snapIdle =>
    intro s hs
    exact congrArg Host.Outcome.next (windowWrite_of_not_running hs _ _ _ _)
  case snapFrame =>
    intro s hs
    refine ⟨_, congrArg Host.Outcome.next (timNowSnap_running hs), ?_, fun off hoff => ?_, ?_⟩
    · simp only [nowSnap, State.modTim, storeFields_tim]
    · exact reg_storeFields_ne hoff 1 s
    · exact storeFields_hif 0x70004 1 s
  case off =>
    intro s q idx a hs hat hmode
    exact congrArg Host.Outcome.next (hturn hs hat (whistleSet_off hmode))
  case on =>
    intro s q idx a mode start first hs hat hmode hon hstart hfirst
    have hset := whistleSet_on hmode hon hstart hfirst
    exact ⟨fun hfar => congrArg Host.Outcome.next (hturn hs hat (hset.trans (if_neg (Nat.not_lt.2 hfar)))),
      fun hnear => congrArg Host.Outcome.next (hturn hs hat (hset.trans (if_pos hnear)))⟩
  case least =>
    intro start period now hperiod
    exact ⟨start_le_nextPulse, le_nextPulse hperiod, nextPulse_in_step, fun k h => nextPulse_least hperiod h⟩
  case rise =>
    intro s w hmode hdue
    exact ⟨fun hs => congrArg Host.Outcome.next (whistleRise_emitted hmode hdue hs),
      fun hs => congrArg Host.Outcome.next (whistleRise_missed hmode hdue hs)⟩
  case fall =>
    intro s w t hfall
    exact ⟨fun hdue => congrArg Host.Outcome.next ((whistleFall_due hfall).trans (if_pos hdue)),
      fun hearly => congrArg Host.Outcome.next ((whistleFall_due hfall).trans (if_neg (Nat.not_le.2 hearly)))⟩

end Sys2Proof.Proofs
end

section
/-! What the lanes carry (R231, R232, R237, R238, R240, R242): the coding of bits, blocks, messages and ordered sets, each read back. -/

namespace Sys2Proof.Machine

/-! The scrambler (R238). -/

theorem scramble_length (st : BitVec 58) (bs : List Bool) : (scramble st bs).1.length = bs.length := by
  induction bs generalizing st with
  | nil => rfl
  | cons b r ih => exact congrArg (· + 1) (ih _)

/-- The descrambler undoes the scrambler from the same history. -/
theorem descramble_scramble (st : BitVec 58) (bs : List Bool) :
    descramble st (scramble st bs).1 = (bs, (scramble st bs).2) := by
  induction bs generalizing st with
  | nil => rfl
  | cons b r ih =>
    have hbit : scramBit st (scramBit st b) = b := by simp [scramBit]
    simp only [scramble, descramble, ih, hbit]

/-! 64 bits and their number. -/

/-- The number whose bits, from bit 0 up, a list gives. -/
def bitsNat (bs : List Bool) : Nat := bs.foldr (fun b a => ofBit b + 2 * a) 0

theorem testBit_bitsNat (bs : List Bool) (i : Nat) : (bitsNat bs).testBit i = bs.getD i false := by
  induction bs generalizing i with
  | nil => simp [bitsNat]
  | cons b r ih =>
    have hnum : bitsNat (b :: r) = Nat.bit b (bitsNat r) := by
      cases b
      · simp [bitsNat, ofBit, Nat.bit]
      · simp [bitsNat, ofBit, Nat.bit]
        omega
    cases i with
    | zero => simp [hnum]
    | succ i => rw [hnum, Nat.testBit_bit_succ, ih, List.getD_cons_succ]

theorem getLsbD_ofBitsList (bs : List Bool) (i : Nat) : (ofBitsList bs).getLsbD i = (decide (i < 64) && bs.getD i false) := by
  rw [← testBit_bitsNat]
  exact BitVec.getLsbD_ofNat 64 (bitsNat bs) i

theorem bitsList_ofBitsList {bs : List Bool} (h : bs.length = 64) : bitsList (ofBitsList bs) = bs := by
  refine List.ext_getElem (by simp [bitsList, h]) fun i hi hi' => ?_
  have hlt : i < 64 := h ▸ hi'
  simp [bitsList, getLsbD_ofBitsList, hlt, hi']

theorem ofBitsList_bitsList (v : BitVec 64) : ofBitsList (bitsList v) = v := by
  refine BitVec.eq_of_getLsbD_eq fun i hi => ?_
  rw [getLsbD_ofBitsList]
  simp [bitsList, hi]

/-! The bytes of a number. -/

theorem leNat_lt (bs : List Byte) : leNat bs < 256 ^ bs.length := by
  induction bs with
  | nil => simp [leNat]
  | cons b r ih =>
    have hb : b.toNat < 256 := b.isLt
    simp only [leNat, List.length_cons, Nat.pow_succ]
    omega

theorem bytes_leNat (bs : List Byte) : ((List.range bs.length).map fun i => BitVec.ofNat 8 (leNat bs / 256 ^ i)) = bs := by
  induction bs with
  | nil => rfl
  | cons b r ih =>
    have hb : b.toNat < 256 := b.isLt
    have hhead : BitVec.ofNat 8 (leNat (b :: r) / 256 ^ 0) = b := by
      refine BitVec.eq_of_toNat_eq ?_
      simp only [leNat, BitVec.toNat_ofNat]
      omega
    have htail (i : Nat) : leNat (b :: r) / 256 ^ (i + 1) = leNat r / 256 ^ i := by
      rw [Nat.pow_succ', ← Nat.div_div_eq_div_mul, leNat, Nat.add_mul_div_left _ _ (by decide), Nat.div_eq_of_lt hb, Nat.zero_add]
    rw [List.length_cons, List.range_succ_eq_map, List.map_cons, hhead, List.map_map]
    exact congrArg (b :: ·) ((List.map_congr_left fun i _ => congrArg (BitVec.ofNat 8) (htail i)).trans ih)

theorem bytes_blockNum {bs : List Byte} (h : bs.length = 8) :
    ((List.range 8).map fun i => BitVec.ofNat 8 ((BitVec.ofNat 64 (leNat bs)).toNat / 256 ^ i)) = bs := by
  have hlt : leNat bs < 2 ^ 64 := by
    have hlt := leNat_lt bs
    rwa [h] at hlt
  have hbytes := bytes_leNat bs
  rw [h] at hbytes
  rwa [BitVec.toNat_ofNat, Nat.mod_eq_of_lt hlt]

/-- The payload bits of a block before its scrambler. -/
def blockBits (b : Block) : List Bool := bitsList (BitVec.ofNat 64 (leNat b.bytes))

theorem lineBlock_eq (st : BitVec 58) (b : Block) :
    lineBlock st b = ({ header := if b.ctl then 0b10 else 0b01, payload := ofBitsList (scramble st (blockBits b)).1 },
      (scramble st (blockBits b)).2) := by
  simp only [lineBlock, blockBits]

/-- A block is read back, and both ends have the same history after it. -/
theorem readBlock_lineBlock (st : BitVec 58) {b : Block} (h : b.bytes.length = 8) :
    readBlock st (lineBlock st b).1 = (some b, (lineBlock st b).2) := by
  have hlen : (scramble st (blockBits b)).1.length = 64 := by
    rw [scramble_length]
    simp [blockBits, bitsList]
  have hbytes := bytes_blockNum h
  simp only [lineBlock_eq, readBlock, bitsList_ofBitsList hlen, descramble_scramble]
  simp only [blockBits, ofBitsList_bitsList, hbytes]
  cases b with
  | mk ctl bytes =>
    cases ctl
    · simp
    · simp

/-! A message as blocks (R240). -/

theorem map_getD_range {n : Nat} {xs : List Byte} (h : xs.length = n) : ((List.range n).map fun i => xs.getD i 0) = xs := by
  subst h
  refine List.ext_getElem (by simp) fun i hi hi' => ?_
  simp [hi']

theorem ctlBlock_length (type : Byte) (bs : List Byte) : (ctlBlock type bs).bytes.length = 8 := by simp [ctlBlock]

theorem ctlBlock_take (type : Byte) {bs : List Byte} (h : bs.length ≤ 7) :
    ((ctlBlock type bs).bytes.drop 1).take bs.length = bs := by
  refine List.ext_getElem (by simp [ctlBlock, h]) fun i hi hi' => ?_
  simp [ctlBlock, hi']

/-- The data blocks of a list of bytes: eight bytes each, without the rest. -/
def dataBlocks (bs : List Byte) : List Block :=
  (List.range (bs.length / 8)).map fun k => { ctl := false, bytes := (bs.drop (8 * k)).take 8 }

/-- The block that ends a message: the bytes that no data block holds. -/
def endBlock (bs : List Byte) : Block :=
  ctlBlock (BitVec.ofNat 8 (0xE0 + bs.length % 8)) (bs.drop (8 * (bs.length / 8)))

theorem dataBlocks_length (bs : List Byte) : (dataBlocks bs).length = bs.length / 8 := by simp [dataBlocks]

theorem dataBlocks_short {bs : List Byte} (h : bs.length < 8) : dataBlocks bs = [] := by
  rw [dataBlocks, Nat.div_eq_of_lt h]
  rfl

theorem endBlock_short {bs : List Byte} (h : bs.length < 8) : endBlock bs = ctlBlock (BitVec.ofNat 8 (0xE0 + bs.length)) bs := by
  rw [endBlock, Nat.div_eq_of_lt h, Nat.mod_eq_of_lt h]
  rfl

section Long
variable {bs : List Byte} (h : 8 ≤ bs.length)
include h

theorem dataBlocks_long : dataBlocks bs = { ctl := false, bytes := bs.take 8 } :: dataBlocks (bs.drop 8) := by
  have hcount : bs.length / 8 = (bs.drop 8).length / 8 + 1 := by
    rw [List.length_drop]
    omega
  rw [dataBlocks, hcount, List.range_succ_eq_map, List.map_cons, List.map_map]
  refine congrArg _ (List.map_congr_left fun k _ => ?_)
  simp [Nat.mul_succ, Nat.add_comm]

theorem endBlock_long : endBlock bs = endBlock (bs.drop 8) := by
  have hcount : 8 * (bs.length / 8) = 8 + 8 * ((bs.length - 8) / 8) := by omega
  have hrest : bs.length % 8 = (bs.length - 8) % 8 := by omega
  simp only [endBlock, List.length_drop, List.drop_drop, hcount, hrest]

end Long

theorem restBlocks_eq {n : Nat} {bs : List Byte} (h : bs.length ≤ n) : restBlocks n bs = dataBlocks bs ++ [endBlock bs] := by
  induction n generalizing bs with
  | zero =>
    have hshort : bs.length < 8 := by omega
    rw [dataBlocks_short hshort, endBlock_short hshort]
    rfl
  | succ n ih =>
    unfold restBlocks
    split
    · next hshort =>
      rw [dataBlocks_short hshort, endBlock_short hshort]
      rfl
    · next hlong =>
      have hrest : (bs.drop 8).length ≤ n := by
        rw [List.length_drop]
        omega
      rw [ih hrest, dataBlocks_long (bs := bs) (by omega), endBlock_long (bs := bs) (by omega)]
      rfl

theorem msgBlocks_eq (bs : List Byte) :
    msgBlocks bs = ctlBlock 0x2D (bs.take 7) :: (dataBlocks (bs.drop 7) ++ [endBlock (bs.drop 7)]) := by
  rw [msgBlocks, restBlocks_eq (by rw [List.length_drop]; omega)]

theorem flatMap_drop_take (bs : List Byte) (k : Nat) :
    ((List.range k).flatMap fun i => (bs.drop (8 * i)).take 8) = bs.take (8 * k) := by
  induction k with
  | zero => simp
  | succ k ih => rw [List.range_succ, List.flatMap_append, ih, Nat.mul_succ, List.take_add]; simp

theorem flatMap_dataBlocks (bs : List Byte) : ((dataBlocks bs).flatMap fun b => b.bytes) = bs.take (8 * (bs.length / 8)) := by
  rw [← flatMap_drop_take, dataBlocks, List.flatMap_map]

theorem endBlock_bytes (bs : List Byte) : ((endBlock bs).bytes.drop 1).take (bs.length % 8) = bs.drop (8 * (bs.length / 8)) := by
  have hlen : (bs.drop (8 * (bs.length / 8))).length = bs.length % 8 := by
    rw [List.length_drop]
    omega
  have htake := ctlBlock_take (BitVec.ofNat 8 (0xE0 + bs.length % 8)) (bs := bs.drop (8 * (bs.length / 8))) (by omega)
  rwa [hlen] at htake

/-- The data blocks and the END together hold the bytes after the first seven. -/
theorem dataBlocks_endBlock (bs : List Byte) :
    ((dataBlocks bs).flatMap fun b => b.bytes) ++ ((endBlock bs).bytes.drop 1).take (bs.length % 8) = bs := by
  rw [flatMap_dataBlocks, endBlock_bytes, List.take_append_drop]

theorem dataBlocks_bytes {bs : List Byte} {b : Block} (h : b ∈ dataBlocks bs) : b.bytes.length = 8 := by
  obtain ⟨k, hk, rfl⟩ := List.mem_map.1 h
  have hlt := List.mem_range.1 hk
  simp only [List.length_take, List.length_drop]
  omega

theorem msgBlocks_bytes {bs : List Byte} {b : Block} (h : b ∈ msgBlocks bs) : b.bytes.length = 8 := by
  rw [msgBlocks_eq] at h
  obtain rfl | h := List.mem_cons.1 h
  · exact ctlBlock_length _ _
  · obtain h | h := List.mem_append.1 h
    · exact dataBlocks_bytes h
    · rw [List.mem_singleton.1 h]
      exact ctlBlock_length _ _

theorem msgBlocks_start {bs : List Byte} (h : 7 ≤ bs.length) :
    ((msgBlocks bs).head?.map fun b => b.bytes) = some (0x2D :: bs.take 7) := by
  have htake : (bs.take 7).length = 7 := by
    rw [List.length_take]
    omega
  exact congrArg (fun l => some (0x2D :: l)) (map_getD_range htake)

/-! A message's bytes (R242). -/

theorem length_beBytes (n v : Nat) : (beBytes n v).length = n := by simp [beBytes]

theorem length_headBytes (m : Msg) : (headBytes m).length = 16 := by simp [headBytes, length_beBytes]

/-! Ordered sets (R231, R232). -/

theorem codes_length (rd : Bool) (bs : List Byte) : (codes rd bs).1.length = bs.length := by
  induction bs generalizing rd with
  | nil => rfl
  | cons b r ih => exact congrArg (· + 1) (ih _)

theorem setBytes_length (type : Byte) (ps : List Byte) : (setBytes type ps).length = 15 := by simp [setBytes, wordBytes]

theorem setCodes_length (rd : Bool) (type : Byte) (ps : List Byte) : (setCodes rd type ps).1.length = 16 :=
  congrArg (· + 1) ((codes_length _ _).trans (setBytes_length type ps))

theorem crcBit_lt {r : Nat} (h : r < 2 ^ 16) : crcBit 0x8408 r < 2 ^ 16 := by
  have hhalf : r / 2 < 2 ^ 16 := by omega
  unfold crcBit
  split
  · exact Nat.xor_lt_two_pow hhalf (by decide)
  · exact hhalf

theorem crcRun_lt {r : Nat} (h : r < 2 ^ 16) (bs : List Byte) : crcRun 0x8408 r bs < 2 ^ 16 := by
  induction bs generalizing r with
  | nil => exact h
  | cons b bs ih =>
    have hbyte : b.toNat < 2 ^ 16 := by
      have hlt := b.isLt
      omega
    exact ih (crcBit_lt (crcBit_lt (crcBit_lt (crcBit_lt (crcBit_lt (crcBit_lt (crcBit_lt (crcBit_lt
      (Nat.xor_lt_two_pow h hbyte)))))))))

theorem crc16_lt (bs : List Byte) : crc16 bs < 2 ^ 16 := Nat.xor_lt_two_pow (crcRun_lt (by decide) bs) (by decide)

/-- A set that carries the CRC-16 of its type and payload passes the check. -/
theorem setOk_crc16 (ps : List Byte) (type : Byte) (n : Nat) :
    setOk ps ⟨type, BitVec.ofNat 16 (crc16 (type :: (List.range 12).map fun i => ps.getD i 0)), n⟩ = true := by
  simp only [setOk, BitVec.toNat_ofNat, Nat.mod_eq_of_lt (crc16_lt _), decide_true]

/-! Bits held on the line (R231). -/

theorem flatMap_replicate_length {α : Type} (f : Nat → α) (m n : Nat) :
    ((List.range n).flatMap fun i => List.replicate m (f i)).length = n * m := by
  induction n with
  | zero => simp
  | succ n ih => simp [List.range_succ, List.flatMap_append, ih, Nat.succ_mul]

theorem flatMap_replicate_get {α : Type} (f : Nat → α) {m n k : Nat} (h : k < n * m) :
    ((List.range n).flatMap fun i => List.replicate m (f i))[k]? = some (f (k / m)) := by
  induction n with
  | zero => omega
  | succ n ih =>
    have hlen := flatMap_replicate_length f m n
    rw [Nat.succ_mul] at h
    rw [List.range_succ, List.flatMap_append]
    by_cases hk : k < n * m
    · rw [List.getElem?_append_left (by omega), ih hk]
    · have hdiv : k / m = n := Nat.div_eq_of_lt_le (by omega) (by rw [Nat.succ_mul]; omega)
      rw [List.getElem?_append_right (by omega), hlen, hdiv]
      simp [show k - n * m < m by omega]

end Sys2Proof.Machine
end

section
/-! Pin states (R39, R40, R230): what a whistle's pulse, a lane's training and a port's low-power idle do to their pins. -/

namespace Sys2Proof.Machine

/-! An event leaves the link. -/

theorem takeToken_lnk {code : Nat} {s t : State} (h : takeToken code s = some t) : t.lnk = s.lnk := by
  simp only [takeToken] at h
  split at h
  · cases h
    rfl
  · split at h
    · cases h
    · cases h
      rfl

theorem foldl_keeps {α β : Type} {p : State → β} {g : State → α → State} (h : ∀ x a, p (g x a) = p x) (l : List α)
    (s : State) : p (l.foldl g s) = p s := by
  induction l generalizing s with
  | nil => rfl
  | cons a l ih => rw [List.foldl_cons, ih, h]

theorem ite_lnk (c : Prop) [Decidable c] (a b : State) : (if c then a else b).lnk = if c then a.lnk else b.lnk :=
  apply_ite State.lnk c a b

theorem logWrite_lnk (code lev : Nat) (a0 a1 : Word) (s : State) : (logWrite code lev a0 a1 s).lnk = s.lnk := by
  simp only [logWrite, ite_lnk, State.modErr_lnk, ite_self]

theorem access_lnk (d : Nat) (s : State) : (access d s).lnk = s.lnk := by
  unfold access
  split
  · rfl
  · rfl

theorem issueWrite_lnk (use : WrUse) (addr len : Nat) (ws : List Word) (s : State) :
    (issueWrite use addr len ws s).lnk = s.lnk := access_lnk 208 s

theorem indexWrite_lnk (q : Nat) (v : Word) (s : State) : (indexWrite q v s).lnk = s.lnk := by
  simp [indexWrite, issueWrite_lnk]

theorem indexTry_lnk (q : Nat) (s : State) : (indexTry q s).lnk = s.lnk := by
  simp only [indexTry]
  split
  · rfl
  · split
    · rfl
    · simp [indexWrite_lnk]

theorem indexOut_lnk (q : Nat) (s : State) : (indexOut q s).lnk = s.lnk := by
  simp only [indexOut]
  split
  · rfl
  · split
    · simp [indexWrite_lnk]
    · simp [indexTry_lnk]

theorem writeEvent_lnk (q : Nat) (e : EvEnt) (s : State) : (writeEvent q e s).lnk = s.lnk := by
  simp [writeEvent, ite_lnk, indexOut_lnk, issueWrite_lnk]

theorem toRing_lnk (q : Nat) (e : EvEnt) (s : State) : (toRing q e s).lnk = s.lnk := by
  simp only [toRing]
  split
  · simp
  · split
    · exact writeEvent_lnk q e s
    · split
      · simp
      · simp

theorem report_lnk (e stamp : Word) (code : Nat) (a0 a1 : Word) (s : State) : (report e stamp code a0 a1 s).lnk = s.lnk := by
  simp only [report]
  split
  · simp
  · split
    · split
      · simp [logWrite_lnk]
      · simp
    · next h =>
      rw [toRing_lnk, takeToken_lnk h]
      split
      · simp [logWrite_lnk]
      · simp

theorem emitFuel_lnk (n code : Nat) (a0 a1 : Word) (s : State) : (emitFuel n code a0 a1 s).lnk = s.lnk := by
  induction n generalizing code a0 a1 s with
  | zero => exact report_lnk _ _ _ _ _ _
  | succ n ih =>
    refine (foldl_keeps (p := State.lnk) (fun x k => ?_) _ _).trans (report_lnk _ _ _ _ _ _)
    split
    · rfl
    · exact ih _ _ _ _

theorem lstat_lnk (p k v : Nat) (s : State) : (lstat p k v s).lnk = s.lnk := by
  simp only [lstat]
  split
  · simp
  · exact (emitFuel_lnk 6 _ _ _ _).trans (addCtr_lnk _ _ _)

/-! Blocks on a lane leave its state of training. -/

/-- A lane's state and whether it is in its reset: what its pins show of it. -/
def Lane.mode (L : Lane) : Nat × Bool := (L.st, L.resetting)

theorem mode_modLane {f : Lane → Lane} (h : ∀ L, (f L).mode = L.mode) (l k : Nat) (s : State) :
    (getLane (modLane l f s) k).mode = (getLane s k).mode := by
  rw [getLane_modLane_any]
  split
  · next hk => rw [h, hk]
  · rfl

theorem mode_modCPort (c k : Nat) (f : CPort → CPort) (s : State) : (getLane (modCPort c f s) k).mode = (getLane s k).mode := rfl

theorem mode_putLane (l k : Nat) (b : Block) (s : State) : (getLane (putLane l b s) k).mode = (getLane s k).mode := by
  unfold putLane
  split
  · refine mode_modLane (fun L => ?_) l k s
    rfl
  · rfl

theorem mode_newLines (c k : Nat) (s : State) : (getLane (newLines c s) k).mode = (getLane s k).mode := by
  refine foldl_keeps (p := fun x => (getLane x k).mode) (fun x i => ?_) _ _
  beta_reduce
  split
  · rfl
  · refine mode_modLane (fun L => ?_) _ k x
    rfl

theorem mode_alignRow (c k : Nat) (s : State) : (getLane (alignRow c s) k).mode = (getLane s k).mode :=
  (foldl_keeps (p := fun x => (getLane x k).mode) (fun x _ => mode_putLane _ k _ x) _ _).trans (mode_modCPort c k _ s)

theorem mode_putBlock (c k : Nat) (b : Block) (s : State) : (getLane (putBlock c b s) k).mode = (getLane s k).mode := by
  simp only [putBlock, mode_putLane, mode_modCPort]
  split
  · exact mode_alignRow c k s
  · rfl

theorem mode_putBlocks (c k : Nat) (bs : List Block) (s : State) : (getLane (putBlocks c bs s) k).mode = (getLane s k).mode :=
  foldl_keeps (p := fun x => (getLane x k).mode) (fun x b => mode_putBlock c k b x) bs s

theorem mode_fillRow (c k : Nat) (s : State) : (getLane (fillRow c s) k).mode = (getLane s k).mode := mode_putBlocks c k _ s

/-! The pins by the state that they follow from. -/

theorem whistlePin_reset {s : State} (hs : s.phase ≠ .running) (w : Nat) : whistlePin s w = .highZ := if_pos hs

section Whistle
variable {s : State} {w : Nat} (hs : s.phase = .running)
include hs

theorem whistlePin_high (h : (getWhistle s w).fallAt.isSome = true) : whistlePin s w = .high :=
  (if_neg (not_not.2 hs)).trans (if_pos h)

theorem whistlePin_low (h : (getWhistle s w).fallAt = none) : whistlePin s w = .low :=
  (if_neg (not_not.2 hs)).trans (if_neg (by simp [h]))

end Whistle

theorem lanePins_off {s : State} {l : Nat} (h : s.phase ≠ .running ∨ (getLane s l).resetting = true ∨ (getLane s l).st = 0) :
    lanePins s l = { tx := .off, rxTerm := false } := by
  refine if_pos ?_
  obtain h | h | h := h
  · simp [h]
  · simp [h]
  · simp [h]

section Trained
variable {s : State} {l : Nat} (hs : s.phase = .running) (hreset : (getLane s l).resetting = false)
include hs hreset

theorem lanePins_idle (hst : (getLane s l).st ≠ 0) (h : (getLane s l).st = 1 ∨ (getCPort s (lanePort l)).asleep = true) :
    lanePins s l = { tx := .idle, rxTerm := true } := by
  refine (if_neg (by simp [hs, hreset, hst])).trans (if_pos ?_)
  obtain h | h := h
  · simp [h]
  · simp [h]

theorem lanePins_driving (hst : 2 ≤ (getLane s l).st) (hawake : (getCPort s (lanePort l)).asleep = false) :
    lanePins s l = { tx := .driving, rxTerm := true } := by
  have hzero : (getLane s l).st ≠ 0 := by omega
  have hone : (getLane s l).st ≠ 1 := by omega
  exact (if_neg (by simp [hs, hreset, hzero])).trans (if_neg (by simp [hone, hawake]))

end Trained

/-! A whistle's pulse. -/

theorem getWhistle_modWhistle (w : Nat) (f : Whistle → Whistle) (s : State) :
    getWhistle (modWhistle w f s) w = f (getWhistle s w) := tget_tset_same _ _ _ _

theorem fallAt_pulsePast (w : Nat) (s : State) : (getWhistle (pulsePast w s) w).fallAt = (getWhistle s w).fallAt := by
  rw [pulsePast, getWhistle_modWhistle]
  split
  · rfl
  · rfl

theorem whistlePin_emitted {s : State} (hs : s.phase = .running) (w n : Nat) (f : Whistle → Nat) :
    whistlePin (addCtr (timCtr 2) n (pulsePast w (modWhistle w (fun x => { x with fallAt := some (f x) }) s))) w = .high := by
  have hfall : (getWhistle (pulsePast w (modWhistle w (fun x => { x with fallAt := some (f x) }) s)) w).fallAt =
      some (f (getWhistle s w)) := by
    rw [fallAt_pulsePast, getWhistle_modWhistle]
  refine whistlePin_high (by exact hs) ?_
  exact congrArg Option.isSome hfall

theorem whistlePin_fallen {s : State} (hs : s.phase = .running) (w : Nat) :
    whistlePin (modWhistle w (fun x => { x with fallAt := none }) s) w = .low := by
  refine whistlePin_low (by exact hs) ?_
  rw [getWhistle_modWhistle]

/-! A lane's training. -/

theorem laneResetDone_enabled {s : State} {l : Nat} (hreset : (getLane s l).resetting = true) (hon : laneOn s l = true) :
    laneResetDone l s = laneTo l 1 (modLane l (fun L => { L with resetting := false }) s) :=
  (if_pos hreset).trans (if_pos hon)

/-- The lanes that share a reference clock no longer report its loss. -/
def clockFound (l : Nat) (s : State) : State :=
  eachBelow 8 (fun i s => modLane (l / 8 * 8 + i) (fun L => { L with noClkSaid := false }) s) s

theorem probe_found {s : State} {l : Nat} (hst : (getLane s l).st = 1) :
    probe l true true s = laneTo l 2 (modLane l (fun _ => {}) (clockFound l s)) :=
  if_neg (by simp [hst])

theorem getCPort_clockFound (l c : Nat) (s : State) : getCPort (clockFound l s) c = getCPort s c :=
  foldl_keeps (p := fun x => getCPort x c) (fun x i => by rfl) _ s

theorem phase_clockFound (l : Nat) (s : State) : (clockFound l s).phase = s.phase :=
  foldl_keeps (p := State.phase) (fun x i => by rfl) _ s

section Changed
variable {s : State} (hs : s.phase = .running) (l : Nat)
include hs

theorem lanePins_reset_ended :
    lanePins (laneTo l 1 (modLane l (fun L => { L with resetting := false }) s)) l = { tx := .idle, rxTerm := true } := by
  have hlane : getLane (laneTo l 1 (modLane l (fun L => { L with resetting := false }) s)) l =
      { getLane s l with resetting := false, st := 1 } := by
    rw [getLane_laneTo, if_pos rfl, getLane_modLane]
  refine lanePins_idle hs (congrArg Lane.resetting hlane) ?_ (.inl (congrArg Lane.st hlane))
  rw [congrArg Lane.st hlane]
  exact Nat.one_ne_zero

theorem lanePins_trains (hawake : (getCPort s (lanePort l)).asleep = false) :
    lanePins (laneTo l 2 (modLane l (fun _ => {}) s)) l = { tx := .driving, rxTerm := true } := by
  have hlane : getLane (laneTo l 2 (modLane l (fun _ => {}) s)) l = { st := 2 } := by
    rw [getLane_laneTo, if_pos rfl, getLane_modLane]
  have hport : getCPort (laneTo l 2 (modLane l (fun _ => {}) s)) (lanePort l) =
      { getCPort s (lanePort l) with blocked := false } := getCPort_modCPort _ _ _
  exact lanePins_driving hs (congrArg Lane.resetting hlane) (le_of_eq (congrArg Lane.st hlane).symm)
    ((congrArg CPort.asleep hport).trans hawake)

end Changed

/-! Low-power idle. -/

/-- The state of a port's link as it falls asleep. -/
def slept (c : Nat) (s : State) : State :=
  lstat c 21 1 (modCPort c (fun C => { C with asleep := true })
    (putBlocks c (List.replicate 64 sleepBlock) (fillRow c (newLines c s))))

theorem lpiEnter_due {s : State} {c : Nat} (hup : (getCPort s c).up = true) (hawake : (getCPort s c).asleep = false)
    (hidle : lpiIdle s c ≠ 0) (hwork : hasWork s c = false) : lpiEnter c s = slept c s :=
  if_pos (by simp [hup, hawake, hidle, hwork])

theorem asleep_slept (c : Nat) (s : State) : (getCPort (slept c s) c).asleep = true := by
  simp only [slept, getCPort, lstat_lnk]
  exact congrArg CPort.asleep (getCPort_modCPort c _ _)

theorem mode_slept (c k : Nat) (s : State) : (getLane (slept c s) k).mode = (getLane s k).mode := by
  rw [slept, getLane_of_aside (lstat_aside _ _ _ _), mode_modCPort, mode_putBlocks, mode_fillRow, mode_newLines]

theorem phase_slept (c : Nat) (s : State) : (slept c s).phase = s.phase := phase_of_kept (by simp [slept])

theorem lanePins_slept {s : State} (hs : s.phase = .running) {c l : Nat} (hport : lanePort l = c) (hst : (getLane s l).st = 5)
    (hreset : (getLane s l).resetting = false) : lanePins (slept c s) l = { tx := .idle, rxTerm := true } := by
  have hmode : (getLane (slept c s) l).mode = (5, false) := by rw [mode_slept, Lane.mode, hst, hreset]
  have hst' : (getLane (slept c s) l).st = 5 := congrArg Prod.fst hmode
  refine lanePins_idle ((phase_slept c s).trans hs) (congrArg Prod.snd hmode) ?_ (.inr ?_)
  · rw [hst']
    decide
  · rw [hport]
    exact asleep_slept c s

end Sys2Proof.Machine

namespace Sys2Proof.Proofs

open Sys2Proof.Machine

/-- Settles O52: the pins follow from a whistle's pulse, a lane's mode and its port's sleep (`whistlePin_high`,
`lanePins_idle`, `lanePins_driving`), and what goes out on a lane is read back (`readBlock_lineBlock`, `dataBlocks_endBlock`). -/
theorem pinStates : Obligations.PinStates := by
  refine ⟨?inReset, ?off, ?rise, ?fall, ?resetDone, ?probe, ?sleep, ?scrambler, ?blocks, ?wire, ?set, ?intervals, ?crc⟩
  case inReset =>
    exact fun s w l hs => ⟨whistlePin_reset hs w, lanePins_off (.inl hs)⟩
  case off =>
    exact fun s l h => lanePins_off (.inr h)
  case rise =>
    intro s w hs hmode hdue
    exact ⟨_, congrArg Host.Outcome.next (whistleRise_emitted hmode hdue hs), whistlePin_emitted hs w 1 _⟩
  case fall =>
    intro s w n hs hfall hdue
    exact ⟨_, congrArg Host.Outcome.next ((whistleFall_due hfall).trans (if_pos hdue)), whistlePin_fallen hs w⟩
  case resetDone =>
    intro s l hs hreset hon
    exact ⟨_, next_whenRunning hs (laneResetDone_enabled hreset hon), lanePins_reset_ended hs l⟩
  case probe =>
    intro s l hs hst hawake
    refine ⟨_, next_whenRunning hs (probe_found hst), lanePins_trains ((phase_clockFound l s).trans hs) l ?_⟩
    rw [getCPort_clockFound, hawake]
  case sleep =>
    intro s c i hs hi hup hawake hidle hwork hst hreset
    have hport : lanePort (4 * c + i) = c := by
      unfold lanePort
      omega
    exact ⟨_, next_whenRunning hs (lpiEnter_due hup hawake hidle hwork), lanePins_slept hs hport hst hreset⟩
  case scrambler =>
    exact fun st b h => readBlock_lineBlock st h
  case blocks =>
    intro bs h
    have hlen : (bs.drop 7).length = bs.length - 7 := List.length_drop
    refine ⟨msgBlocks_start h, ?_, fun b hb => msgBlocks_bytes hb, ?_, ?_⟩
    · simp only [msgBlocks_eq, List.length_cons, List.length_append, List.length_nil, dataBlocks_length, hlen]
      omega
    · rw [← hlen]
      simp only [msgBlocks_eq, List.tail_cons, List.dropLast_concat, List.getLast?_cons, List.getLast?_concat]
      exact dataBlocks_endBlock (bs.drop 7)
    · rw [← hlen]
      simp only [msgBlocks_eq, List.getLast?_cons, List.getLast?_concat]
      rfl
  case wire =>
    exact fun m => ⟨rfl, length_headBytes m⟩
  case set =>
    exact fun rd type ps => ⟨setCodes_length rd type ps, rfl⟩
  case intervals =>
    exact fun c => ⟨flatMap_replicate_length _ 8 10, fun i hi => flatMap_replicate_get (fun j => c.getLsbD (9 - j)) hi⟩
  case crc =>
    exact fun ps type n => setOk_crc16 ps type n

end Sys2Proof.Proofs
end

section
/-! The time base, the reset record and `SESSION` (R48, R51, R53, R59, R214, R235): which commands move them. The other commands that
change anything of `Standing` change its phase alone. -/

namespace Sys2Proof.Machine

/-! What a guarded act leaves, its guard leaves. -/

theorem whenRunning_keeps {α : Type} (g : State → α) {f : State → State} {s : State}
    (h : s.phase = .running → g (f s) = g s) : g (whenRunning f s) = g s := by
  by_cases hs : s.phase = .running
  · rw [whenRunning_of_running hs, h hs]
  · rw [whenRunning_of_not_running hs]

theorem atTurn_keeps {α : Type} (g : State → α) (q : Nat) (idx : Word) (op : Nat) {f : Adm → State → State} {s : State}
    (h : ∀ a, g (f a s) = g s) : g (atTurn q idx op f s) = g s := by
  unfold atTurn
  split
  · split
    · exact h _
    · rfl
  · rfl

theorem onBit_keeps {α : Type} (g : State → α) (v : Word) (i : Nat) {f : State → State} {s : State} (h : g (f s) = g s) :
    g (onBit v i f s) = g s := by
  unfold onBit
  split
  · exact h
  · rfl

/-! What stands, but for the phase. -/

/-- All of `Standing` but the phase. -/
def State.standing (s : State) : Standing := { s.kept.base with phase := .off }

theorem standing_of_base {s t : State} (h : t.kept.base = s.kept.base) : t.standing = s.standing :=
  congrArg (fun b : Standing => { b with phase := .off }) h

theorem startWarm_standing (cause : Nat) (s : State) : (startWarm cause s).standing = s.standing :=
  (standing_of_base (congrArg Kept.base (startWarm_kept cause s))).trans rfl

theorem keyed_standing (right : Prop) [Decidable right] (s : State) :
    ((if right then startWarm 2 else refuseWrite 0x80 4) s).standing = s.standing := by
  split
  · exact startWarm_standing 2 s
  · exact standing_of_base (congrArg Kept.base (refuseWrite_kept 0x80 4 s))

theorem registerWrite_resetKey_standing (width : Nat) (v : Word) (s : State) :
    (registerWrite 0x80 width v s).standing = s.standing := by
  by_cases hw : width = 4
  · rw [hw, registerWrite_resetKey]
    exact whenRunning_keeps State.standing fun _ => onBit_keeps State.standing v 0 (keyed_standing _ s)
  · rw [registerWrite_of_not_word (.inl hw)]
    exact standing_of_base (windowWrite_base _ _ _ _ _ fun _ => rfl)

/-- The commands that change more of `Standing` than the phase. -/
inductive SetsStanding : Instr → Prop
  | coldReset (short : Bool) : SetsStanding (.coldReset short)
  | initDone : SetsStanding .resetInitialisationDone
  | quiesceEnd (bound : Bool) : SetsStanding (.quiesceEnd bound)
  | timeStep (q : Fin 64) (idx : Word) : SetsStanding (.timeStep q idx)
  | timeRate (q : Fin 64) (idx : Word) : SetsStanding (.timeRate q idx)

theorem exec_standing_of_moves {c : Instr} (hc : ¬ SetsStanding c) (hm : MovesStanding c) (s : State) :
    ∃ t, exec c s = .next t ∧ t.standing = s.standing := by
  cases hm with
  | coldReset => exact absurd (.coldReset _) hc
  | initDone => exact absurd .initDone hc
  | quiesceEnd => exact absurd (.quiesceEnd _) hc
  | timeStep => exact absurd (.timeStep _ _) hc
  | timeRate => exact absurd (.timeRate _ _) hc
  | coldResetRelease =>
    refine ⟨_, rfl, ?_⟩
    split <;> rfl
  | warmPin => exact ⟨_, rfl, whenRunning_keeps State.standing fun _ => startWarm_standing 1 s⟩
  | warmKey key => exact ⟨_, rfl, whenRunning_keeps State.standing fun _ => keyed_standing (key = 0xA5C3) s⟩
  | supplyOff => exact ⟨_, rfl, rfl⟩
  | keyWrite width v => exact ⟨_, exec_registerWrite 0x80 width v s, registerWrite_resetKey_standing width v s⟩

/-- No other command changes anything of `Standing` but the phase. -/
theorem exec_standing {c : Instr} (hc : ¬ SetsStanding c) {s t : State} (ht : exec c s = .next t) : t.standing = s.standing := by
  have hkept : ∃ u, exec c s = .next u ∧ u.standing = s.standing := by
    by_cases hm : MovesStanding c
    · exact exec_standing_of_moves hc hm s
    · obtain ⟨u, hu, hbase⟩ := exec_keeps_standing hm s
      exact ⟨u, hu, standing_of_base hbase⟩
  obtain ⟨u, hu, hstanding⟩ := hkept
  cases hu.symm.trans ht
  exact hstanding

/-! The time base (R212, R216). -/

/-- The time base and its rate are the same. -/
def SameTimeBase (s t : State) : Prop :=
  t.tim.sec = s.tim.sec ∧ t.tim.ns = s.tim.ns ∧ t.tim.frac = s.tim.frac ∧ t.tim.rate = s.tim.rate

theorem sameTimeBase_of_standing {s t : State} (h : t.standing = s.standing) : SameTimeBase s t :=
  ⟨congrArg Standing.sec h, congrArg Standing.ns h, congrArg Standing.frac h, congrArg Standing.rate h⟩

theorem initDone_sameTimeBase (s : State) : SameTimeBase s (initDone s) := by
  unfold initDone
  split
  · split <;> exact ⟨rfl, rfl, rfl, rfl⟩
  · exact ⟨rfl, rfl, rfl, rfl⟩

theorem quiesceEnd_sameTimeBase (bound : Bool) (s : State) : SameTimeBase s (quiesceEnd bound s) := by
  by_cases h : s.phase = .quiesce ∧ (bound = true ∨ quiesceDone s = true)
  · obtain ⟨hs, hdone⟩ := h
    obtain ⟨r, e, hlost, -, -⟩ := logLost_frame s
    rw [quiesceEnd_of_done hs hdone, hlost]
    exact ⟨rfl, rfl, rfl, rfl⟩
  · have hwaits : quiesceEnd bound s = s := quiesceEnd_waits (by grind)
    rw [hwaits]
    exact ⟨rfl, rfl, rfl, rfl⟩

/-! The reset record (R48, R51, R53) and `SESSION` (R235). -/

/-- The reset record is the same. -/
def SameRecord (s t : State) : Prop :=
  t.hif.cause = s.hif.cause ∧ t.hif.quiesceTimeout = s.hif.quiesceTimeout ∧ t.hif.unwritten = s.hif.unwritten ∧
  t.hif.wbLost = s.hif.wbLost

theorem initDone_sameRecord (s : State) : SameRecord s (initDone s) := by
  unfold initDone
  split
  · split <;> exact ⟨rfl, rfl, rfl, rfl⟩
  · exact ⟨rfl, rfl, rfl, rfl⟩

/-- All of `Standing` but the phase and what the commands of the time base set. -/
def State.untimed (s : State) : Standing := { s.standing with uptime := 0, sec := 0, ns := 0, frac := 0, rate := 0 }

theorem untimed_of_standing {s t : State} (h : t.standing = s.standing) : t.untimed = s.untimed :=
  congrArg (fun b : Standing => { b with uptime := 0, sec := 0, ns := 0, frac := 0, rate := 0 }) h

theorem untimed_of_kept {s t : State} (h : t.kept = s.kept) : t.untimed = s.untimed :=
  congrArg (fun k : Kept => { k.base with phase := .off, uptime := 0, sec := 0, ns := 0, frac := 0, rate := 0 }) h

theorem untimed_modTim (f : Tim → Tim) (s : State) : (s.modTim f).untimed = s.untimed := rfl

theorem untimed_setTime (t : Tim) (n : Nat) (s : State) : ({ s with tim := t, uptime := n } : State).untimed = s.untimed := rfl

theorem tick_untimed {s : State} (hs : s.phase = .running) : (tick s).untimed = s.untimed :=
  (untimed_of_kept (tick_kept hs)).trans (untimed_setTime _ _ s)

theorem timeStep_untimed (a : Adm) {s : State} (hs : s.phase = .running) : (timeStep a s).untimed = s.untimed := by
  cases h : s.tim.stepped with
  | true => rw [timeStep_again h]; exact untimed_of_kept (admDone_kept _ _ _ _ _)
  | false =>
    calc (timeStep a s).untimed = ((tick s).modTim (stepTime a.ws)).untimed := untimed_of_kept (timeStep_kept h a)
      _ = (tick s).untimed := untimed_modTim _ _
      _ = s.untimed := tick_untimed hs

theorem timeRate_untimed (a : Adm) (s : State) : (timeRate a s).untimed = s.untimed :=
  (untimed_of_kept (admDone_kept _ _ _ _ _)).trans (untimed_modTim _ _)

theorem sameRecord_of_untimed {s t : State} (h : t.untimed = s.untimed) : SameRecord s t :=
  ⟨congrArg Standing.cause h, congrArg Standing.quiesceTimeout h, congrArg Standing.unwritten h, congrArg Standing.wbLost h⟩

theorem session_of_untimed {s t : State} (h : t.untimed = s.untimed) : t.lnk.session = s.lnk.session :=
  congrArg Standing.session h

end Sys2Proof.Machine

namespace Sys2Proof.Proofs

open Sys2Proof.Machine

/-- Settles O5: of the five commands that set more of `Standing` than the phase, the end of a reset's initialisation and the end of
the quiesce phase leave the time base. -/
theorem timeBaseMovesOnlyByItsCommands : Obligations.TimeBaseMovesOnlyByItsCommands := by
  intro c s t ht hcold hstep hrate
  by_cases hc : SetsStanding c
  swap
  · exact sameTimeBase_of_standing (exec_standing hc ht)
  cases hc with
  | coldReset short => exact absurd rfl (hcold short)
  | timeStep q idx => exact absurd rfl (hstep q idx)
  | timeRate q idx => exact absurd rfl (hrate q idx)
  | initDone =>
    cases ht
    exact initDone_sameTimeBase s
  | quiesceEnd bound =>
    cases ht
    exact quiesceEnd_sameTimeBase bound s

/-- Settles O6: of the five commands that set more of `Standing` than the phase, those of the time base leave record and session
(`timeStep_untimed`, `timeRate_untimed`), and the end of a reset's initialisation leaves the record. -/
theorem resetRecordMovesOnlyByResets : Obligations.ResetRecordMovesOnlyByResets := by
  intro c s t ht
  by_cases hc : SetsStanding c
  swap
  · have h := untimed_of_standing (exec_standing hc ht)
    exact ⟨fun _ _ => sameRecord_of_untimed h, fun _ _ _ => session_of_untimed h⟩
  cases hc with
  | coldReset short => exact ⟨fun hcold => absurd rfl (hcold short), fun hcold => absurd rfl (hcold short)⟩
  | quiesceEnd bound => exact ⟨fun _ hend => absurd rfl (hend bound), fun _ hend => absurd rfl (hend bound)⟩
  | initDone =>
    cases ht
    exact ⟨fun _ _ => initDone_sameRecord s, fun _ _ hinit => absurd rfl hinit⟩
  | timeStep q idx =>
    cases ht
    have h := whenRunning_keeps State.untimed (s := s) fun hs =>
      atTurn_keeps State.untimed q idx 0x60 fun a => timeStep_untimed a hs
    exact ⟨fun _ _ => sameRecord_of_untimed h, fun _ _ _ => session_of_untimed h⟩
  | timeRate q idx =>
    cases ht
    have h := whenRunning_keeps State.untimed (s := s) fun _ =>
      atTurn_keeps State.untimed q idx 0x61 fun a => timeRate_untimed a s
    exact ⟨fun _ _ => sameRecord_of_untimed h, fun _ _ _ => session_of_untimed h⟩

end Sys2Proof.Proofs
end

section
/-! A cold reset (R48–R50, R213), and the state that the end of its initialisation leaves. -/

namespace Sys2Proof.Machine

theorem coldReset_short (s : State) :
    coldReset true s = if Config.shortPulseTaken s.freeCtr = true then coldState (drawn s) else drawn s := if_pos rfl

theorem exec_coldResetRelease {s : State} (hs : s.phase = .coldHeld) :
    exec .coldResetRelease s = .next { s with phase := .coldInit } :=
  congrArg Host.Outcome.next (if_pos hs)

theorem initDone_cold {s : State} (hs : s.phase = .coldInit) :
    initDone s = { s with phase := .running, tim := { s.tim with calibrations := s.tim.calibrations + 1 },
                          lnk := { s.lnk with session := (Config.session s.freeCtr).toNat }, freeCtr := s.freeCtr + 1 } := by
  simp only [initDone, hs]
  rfl

theorem initDone_warm {s : State} (hs : s.phase = .warmInit) :
    initDone s = { s with phase := .running, lnk := { s.lnk with session := (Config.session s.freeCtr).toNat },
                          freeCtr := s.freeCtr + 1 } := by
  simp only [initDone, hs]
  rfl

end Sys2Proof.Machine

namespace Sys2Proof.Proofs

open Sys2Proof.Machine

/-- Settles O10: each of the three commands in its phase (`coldReset_short`, `exec_coldResetRelease`, `initDone_cold`,
`initDone_warm`), and the three one after another from any state. -/
theorem coldReset : Obligations.ColdReset := by
  unfold Obligations.ColdReset
  intro held
  refine ⟨fun s => rfl, fun s => congrArg Host.Outcome.next (coldReset_short s), fun s hs => exec_coldResetRelease hs,
    fun s hs => congrArg Host.Outcome.next (initDone_cold hs), fun s hs => congrArg Host.Outcome.next (initDone_warm hs),
    fun n => (Config.session n).isLt, ?sequence⟩
  case sequence =>
    rintro s a b c rfl rfl rfl
    exact ⟨rfl, exec_coldResetRelease rfl, congrArg Host.Outcome.next (initDone_cold rfl)⟩

/-- Settles O8: at reset the time base and the reset record are 0, no register is away from its reset value, and the drawn `SESSION`
has 16 bits. -/
theorem resetHasInv : Obligations.ResetHasInv where
  time := by decide
  regs := ⟨.nil, by simp [State.reset]⟩
  cause := Nat.zero_le _
  unwritten := Nat.zero_le _
  wbLost := Nat.zero_le _
  session := (Config.session 0).isLt

end Sys2Proof.Proofs
end

section
/-! A lane from EXCHANGE to ACTIVE, and what takes it back (R46, R58, R235–R241). -/

namespace Sys2Proof.Machine

section Exchange
variable {s : State} {l : Nat} {ps : List Byte} (hst : (getLane s l).st = 4)
include hst

theorem capSetIn_valid (hvalid : psAt ps 1 = 0x11) {same : Nat}
    (hsame : same = if (getLane s l).cap = capSet ps then sat 3 ((getLane s l).capSame + 1) else 1) :
    capSetIn l ps s = modLane l (fun L =>
      { L with cap := capSet ps, capSame := same, ack := (getLane s l).ack || decide (3 ≤ same),
               farAck := L.farAck || decide (psAt ps 10 % 2 = 1) }) s := by
  rw [hsame, capSetIn, if_neg (not_not.2 hst), if_neg (not_not.2 hvalid)]

theorem capSetIn_invalid (hbad : psAt ps 1 ≠ 0x11) :
    capSetIn l ps s = modLane l (fun L => { L with sawBad := true, capSame := 0 }) s := by
  rw [capSetIn, if_neg (not_not.2 hst), if_pos hbad]

theorem markIn_exchange : markIn l ps s = modLane l (fun L => { L with markLeft := some (psAt ps 1 % 8) }) s :=
  if_neg (not_not.2 hst)

theorem rateSwitch_marked (hmark : (getLane s l).markLeft.isSome = true) :
    rateSwitch l s = modLane l (fun L => { L with full := true, markLeft := none, symLock := false }) s :=
  if_pos (by simp [hst, hmark])

theorem blockLock_full (hfull : (getLane s l).full = true) : blockLock l s = tryUp (lanePort l) (laneTo l 5 s) :=
  if_pos (by simp [hst, hfull])

end Exchange

section Active
variable {s : State} {l : Nat} (hst : (getLane s l).st = 5)
include hst

theorem checked_awake (hawake : (getCPort s (lanePort l)).rxAsleep = false) : checked s l = true := by
  simp [checked, hst, hawake]

theorem invalidBlock_active {x : RxBlocks} {b : Option Block} {st : BitVec 58}
    (hread : readLine (getLane s l).rxScr x.line = (some b, st)) :
    invalidBlock l x s =
      let u := modLane l (fun L => { L with rxScr := st }) s
      let v := addCtr (laneCtr l) 1 u
      if badBlock b = false ∧ x.poison = 0 then u
      else parityError x.poison 5 l
        (if x.mid = true ∧ (getCPort s (lanePort l)).up = true then lstat (lanePort l) 9 1 v else v) := by
  have hup (f : Lane → Lane) : getCPort (addCtr (laneCtr l) 1 (modLane l f s)) (lanePort l) = getCPort s (lanePort l) := rfl
  simp [invalidBlock, hread, hst, hup]

end Active

end Sys2Proof.Machine

namespace Sys2Proof.Proofs

open Sys2Proof.Machine

/-- Settles O44: a set that passes its checks is taken as its content says (`capSetIn_valid`, `capSetIn_invalid`,
`markIn_exchange`), the lane's state lets each further step act, and a block is counted by its code and its parity
(`invalidBlock_active`). -/
theorem laneToActive : Obligations.LaneToActive := by
  refine ⟨?sets, ?rateSwitch, ?blockLock, ?aligned, ?locksLost, ?clockLost, ?invalidBlock⟩
  case sets =>
    rintro s l ps ⟨type, crc, errors⟩ same hs hslow hlock hst hok herr hsame
    refine ⟨?cap, ?badCap, ?mark⟩
    case cap =>
      rintro rfl hvalid
      exact next_whenRunning hs ((orderedSet_taken hslow hlock hok herr _).trans (capSetIn_valid hst hvalid hsame))
    case badCap =>
      rintro rfl hbad
      exact next_whenRunning hs ((orderedSet_taken hslow hlock hok herr _).trans (capSetIn_invalid hst hbad))
    case mark =>
      rintro rfl
      exact next_whenRunning hs ((orderedSet_taken hslow hlock hok herr _).trans (markIn_exchange hst))
  case rateSwitch =>
    intro s l hs hst hmark
    exact next_whenRunning hs (rateSwitch_marked hst hmark)
  case blockLock =>
    intro s l hs hst hfull
    exact next_whenRunning hs (blockLock_full hst hfull)
  case aligned =>
    intro s l pos hs hst
    exact next_whenRunning hs (if_pos hst)
  case locksLost =>
    intro s l n hs hst hawake
    have hchecked := checked_awake hst hawake
    exact ⟨next_whenRunning hs (if_pos hchecked), next_whenRunning hs (if_pos hchecked)⟩
  case clockLost =>
    intro s l hs hst
    exact next_whenRunning hs (if_pos hst)
  case invalidBlock =>
    rintro s u l x b st hs hst hread rfl
    have hactive := invalidBlock_active hst hread
    refine ⟨fun hgood hclean => ?valid, fun hbad hmid hup => ?inMessage, fun hbad hout => ?outside⟩
    case valid =>
      exact next_whenRunning hs (hactive.trans (if_pos ⟨hgood, hclean⟩))
    all_goals have hcounted : ¬ (badBlock b = false ∧ x.poison = 0) := by simpa [imp_iff_not_or] using hbad
    case inMessage =>
      refine next_whenRunning hs (hactive.trans ((if_neg hcounted).trans ?_))
      rw [if_pos ⟨hmid, hup⟩]
    case outside =>
      refine next_whenRunning hs (hactive.trans ((if_neg hcounted).trans ?_))
      rw [if_neg (by simpa [imp_iff_not_or] using hout)]

end Sys2Proof.Proofs
end

section
/-! The arrival of an upstream frame (R33, R46, R52, R55, R60, R104, R108, R109, R118, R262): what the state of its port makes of
it. -/

namespace Sys2Proof.Machine

/-- The frame's bytes and its line errors are counted. -/
def usCounted (p : Nat) (f : UsPresented) (s : State) : State :=
  stat p 42 f.fecUncorr.toNat (stat p 41 f.fecCorr.toNat (perf (259 + 4 * p) 1 (perf (258 + 4 * p) f.bytes.length s)))

/-- The frame has taken its draw (R322). -/
def usDrawn (p : Nat) (f : UsPresented) (s : State) : State × Option Mark :=
  draw true (markPort (usCounted p f s) p) (shortStamp (captured (usCounted p f s) f.sub 0)) (usCounted p f s)

/-- The tree whose rebind to the port a frame of no tree waits for (R267). -/
def usWaits (v : State) (p : Nat) : Option Nat := if (usTree v p).isNone then rebindTree v p else none

theorem usWaits_of_tree {v : State} {p : Nat} (h : usTree v p ≠ none) : usWaits v p = none := if_neg (by simpa using h)

theorem usWaits_of_noTree {v : State} {p : Nat} (h : usTree v p = none) : usWaits v p = rebindTree v p := if_pos (by simp [h])

/-- The record of a frame that arrives, on a port of a longest frame. -/
def usRecord (p : Nat) (f : UsPresented) (mx : Nat) (v : State) (m : Option Mark) : Us :=
  { id := v.tpt.usNext, port := p, tree := ((usTree v p).or (usWaits v p)).getD p, stage := .ready,
    kept := f.bytes.take (min (f.bytes.length - 4) (mx - 4)), len := f.bytes.length, term := f.term, alloc := f.alloc,
    stamp := shortStamp (captured v f.sub (reg v (0x10064 + p * 0x400)).toInt), mark := m }

/-- The longest frame that a port takes (R101). -/
def maxFrame (s : State) (p : Nat) : Nat := bitsOf (reg s (0x10010 + p * 0x400)) 0 14

/-- A parity error at the frame's crossing is reported where the port is awake. -/
def usCrossed (p : Nat) (f : UsPresented) (v : State) : State :=
  if decide (2 ≤ (getDom v p).depth) then v else parityError f.poison 1 p v

/-- The state after the first frame of a burst has gone to the ranging unit. -/
def usRanged (p : Nat) (f : UsPresented) (v : State) : State := usBurst p (usTree v p) f (usCrossed p f v)

/-- A frame is counted by its fate and discarded. -/
def usReject (p k : Nat) (u : Us) (s : State) : State := traceUs u k (stat p k 1 s)

theorem usCrossed_eq (p : Nat) (f : UsPresented) (v : State) :
    usCrossed p f v = if (getDom v p).depth < 2 then parityError f.poison 1 p v else v := by
  by_cases h : (getDom v p).depth < 2
  · simp [usCrossed, h]
  · simp [usCrossed, h, Nat.le_of_not_lt h]

section Arrival
variable {s v : State} {p : Nat} {f : UsPresented} {u : Us} {m : Option Mark} (hv : (v, m) = usDrawn p f s)
  (hu : u = usRecord p f (maxFrame s p) v m)
include hv hu

/-- A port in per-port reset or without its clock. -/
theorem usArrive_out (hst : portState (getPort s p) = 2 ∨ portState (getPort s p) = 3) :
    usArrive p f s = usReject p 38 u v := by
  have hst' : (decide (portState (getPort s p) = 2) || decide (portState (getPort s p) = 3)) = true := by simpa using hst
  simp only [usDrawn, usCounted] at hv
  simp only [usArrive, ← hv, hst', Bool.true_or, if_true]
  rw [hu]
  rfl

/-- Any other port: its state, the frame's tree and the port's sleep decide. -/
theorem usArrive_in (h2 : portState (getPort s p) ≠ 2) (h3 : portState (getPort s p) ≠ 3) : usArrive p f s =
    if (portState (getPort s p) ≠ 1 && portState (getPort s p) ≠ 4) || ((usTree v p).isNone && (usWaits v p).isNone) then
      usReject p 39 u (usCrossed p f v)
    else if portState (getPort s p) = 4 then usReject p 39 u (usRanged p f v)
    else if decide (2 ≤ (getDom v p).depth) && (usWaits v p).isNone then
      usReject p 39 u (raise 0x219 (wordOf p) (wordOf f.term) (usRanged p f v))
    else usStore { u with cycle := (getPort (usRanged p f v) p).burst } f (cellsOf (min f.bytes.length (maxFrame s p)))
      (usWaits v p).isSome (usRanged p f v) := by
  simp only [usDrawn, usCounted] at hv
  simp only [usArrive, ← hv, h2, h3, decide_false, Bool.or_self, Bool.false_or, Bool.false_eq_true, if_false]
  rw [hu]
  rfl

/-- A port that is disabled or armed. -/
theorem usArrive_disabled (hst : portState (getPort s p) = 0 ∨ portState (getPort s p) = 5) :
    usArrive p f s = usReject p 39 u (usCrossed p f v) := by
  rw [usArrive_in hv hu (by omega) (by omega), if_pos]
  obtain h | h := hst
  · simp [h]
  · simp [h]

theorem usArrive_noTree (hst : portState (getPort s p) = 1 ∨ portState (getPort s p) = 4) (htree : usTree v p = none)
    (hwait : rebindTree v p = none) : usArrive p f s = usReject p 39 u (usCrossed p f v) := by
  rw [usArrive_in hv hu (by omega) (by omega), if_pos (by simp [htree, usWaits_of_noTree htree, hwait])]

theorem usArrive_held (hst : portState (getPort s p) = 4) (htree : usTree v p ≠ none ∨ rebindTree v p ≠ none) :
    usArrive p f s = usReject p 39 u (usRanged p f v) := by
  have hsome : ((usTree v p).isNone && (usWaits v p).isNone) = false := by
    by_cases h : usTree v p = none
    · simpa [h, usWaits_of_noTree h, Option.isSome_iff_ne_none] using htree
    · simp [h]
  rw [usArrive_in hv hu (by omega) (by omega), if_neg (by simp [hst, hsome]), if_pos hst]

section Up
variable (hst : portState (getPort s p) = 1)
include hst

theorem usArrive_asleep (htree : usTree v p ≠ none) (hasleep : 2 ≤ (getDom v p).depth) :
    usArrive p f s = usReject p 39 u (raise 0x219 (wordOf p) (wordOf f.term) (usRanged p f v)) := by
  rw [usArrive_in hv hu (by omega) (by omega), if_neg (by simp [hst, htree]), if_neg (by omega),
    if_pos (by simp [hasleep, usWaits_of_tree htree])]

theorem usArrive_stored
    (htaken : (usTree v p ≠ none ∧ (getDom v p).depth < 2) ∨ (usTree v p = none ∧ rebindTree v p ≠ none)) :
    usArrive p f s = usStore { u with cycle := (getPort (usRanged p f v) p).burst } f
      (cellsOf (min f.bytes.length (maxFrame s p))) (usTree v p).isNone (usRanged p f v) := by
  have hwaits : (usWaits v p).isSome = (usTree v p).isNone := by
    obtain ⟨htree, -⟩ | ⟨htree, hwait⟩ := htaken
    · simp [usWaits_of_tree htree, Option.isSome_iff_ne_none.2 htree]
    · simp [usWaits_of_noTree htree, Option.isSome_iff_ne_none.2 hwait, htree]
  have hsome : ((usTree v p).isNone && (usWaits v p).isNone) = false := by simp [← hwaits]
  have htake : (decide (2 ≤ (getDom v p).depth) && (usWaits v p).isNone) = false := by
    obtain ⟨-, hawake⟩ | ⟨htree, hwait⟩ := htaken
    · simp [hawake]
    · simp [usWaits_of_noTree htree, Option.isSome_iff_ne_none.2 hwait]
  rw [usArrive_in hv hu (by omega) (by omega), if_neg (by simp [hst, hsome]), if_neg (by omega), if_neg (by simp [htake]), hwaits]

end Up

end Arrival

/-! The frame's cells (R105, R108). -/

theorem usStore_noCells {s : State} {u : Us} {n : Nat} (h : usTake s u.port n = none) (f : UsPresented) (wait : Bool) :
    usStore u f n wait s = traceUs u 34 (stat u.port 34 1 s) := by
  simp [usStore, h]

theorem usStore_cells {s : State} {u : Us} {n pool : Nat} (h : usTake s u.port n = some pool) (f : UsPresented) (wait : Bool) :
    usStore u f n wait s =
      usStage2 { u with cells := n, poolCells := pool, banks := placeCells s n } f wait
        (State.modTpt (fun t => { t with us := t.us ++ [{ u with cells := n, poolCells := pool, banks := placeCells s n }],
                                         usNext := t.usNext + 1 })
          (modPort u.port (fun P => { P with usCells := P.usCells + n, usPool := P.usPool + pool })
            (wakeBanks (placeCells s n) s))) := by
  simp only [usStore, h]

/-! The two phases in which a frame comes (R52). -/

theorem exec_usFrameArrival_running {s t : State} (hs : s.phase = .running) {p : Fin 64} {f : UsPresented}
    (h : usArrive p f s = t) : exec (.usFrameArrival p f) s = .next t :=
  (congrArg Host.Outcome.next (if_neg (by simp [hs]))).trans (next_whenRunning hs h)

theorem exec_usFrameArrival_quiesce {s : State} (hs : s.phase = .quiesce) (p : Fin 64) (f : UsPresented) :
    exec (.usFrameArrival p f) s = .next (quiesceArrive p s) :=
  congrArg Host.Outcome.next (if_pos hs)

end Sys2Proof.Machine

namespace Sys2Proof.Proofs

open Sys2Proof.Machine

/-- Settles O37: the port's state and the frame's tree give each outcome of an arrival in a running block (`usArrive_out` to
`usArrive_stored`), and the cells that the port and the pool hold give what is kept of it (`usStore_noCells`, `usStore_cells`). -/
theorem upstreamArrival : Obligations.UpstreamArrival := by
  unfold Obligations.UpstreamArrival
  intro counted drawn' waits maxFrame record
  refine ⟨?arrives, ?noCells, ?cells, ?quiesce⟩
  case arrives =>
    intro s v w p f u m hs hv hu hw
    replace hw : w = usCrossed p f v := hw.trans (usCrossed_eq p f v).symm
    subst hw
    exact ⟨fun hst => exec_usFrameArrival_running hs (usArrive_out hv hu hst),
      fun hst => exec_usFrameArrival_running hs (usArrive_disabled hv hu hst),
      fun hst htree hwait => exec_usFrameArrival_running hs (usArrive_noTree hv hu hst htree hwait),
      fun hst htree => exec_usFrameArrival_running hs (usArrive_held hv hu hst htree),
      fun hst htree hasleep => exec_usFrameArrival_running hs (usArrive_asleep hv hu hst htree hasleep),
      fun hst htaken => exec_usFrameArrival_running hs (usArrive_stored hv hu hst htaken)⟩
  case noCells =>
    intro s u f n wait h
    exact usStore_noCells h f wait
  case cells =>
    rintro s u x f n pool wait h rfl
    exact usStore_cells h f wait
  case quiesce =>
    intro s p f hs
    exact exec_usFrameArrival_quiesce hs p f

end Sys2Proof.Proofs
end

section
/-! The commands of the classifier, the playbook, the ports and the lanes (R54, R56, R98, R100, R125, R130–R133, R136, R137,
R284). -/

namespace Sys2Proof.Machine

/-! A command at its turn (R99), and one whose words have come (R98). -/

theorem next_atTurn {s t : State} {q : Fin 64} {idx : Word} {op : Nat} {a : Adm} (hs : s.phase = .running)
    (hturn : AtTurn s q idx op a) {f : Adm → State → State} (h : f a s = t) :
    (.next (whenRunning (atTurn q idx op f) s) : Host.Outcome State Fault Refusal) = .next t := by
  obtain ⟨hfind, hop, hok⟩ := hturn
  exact next_whenRunning hs ((atTurn_of_due hfind hop hok f).trans h)

/-- A command whose turn starts the read of its buffer. -/
theorem next_turnRead {s : State} {q : Fin 64} {idx : Word} {op : Nat} {a : Adm} (hs : s.phase = .running)
    (hturn : AtTurn s q idx op a) (hbuffer : 0x10 ≤ op) :
    (.next (whenRunning (atTurn q idx op admTurnRead) s) : Host.Outcome State Fault Refusal) =
      .next (fabRead (.adminBuf a.q a.idx) (aAddr a.ws) (aLen a.ws) (admHold a s)) := by
  refine next_atTurn hs hturn ?_
  obtain ⟨-, rfl, -⟩ := hturn
  rw [admTurnRead, admRead, bufUse, if_neg (Nat.not_lt.2 hbuffer)]

theorem adminBufIn_of_here {s u : State} {q : Fin 64} {idx : Word} {op : Nat} {a : Adm} {ws : List Word}
    (hhere : BufferHere s q idx op a ws u) : adminBufIn (5120 + q) idx (some ws) s = bufferIn a ws u := by
  obtain ⟨hfind, -, hreading, hlen, rfl⟩ := hhere
  obtain ⟨r, hr⟩ : ∃ r, (s.fab.reads.find? fun r => r.use = bufUse a) = some r := by
    rw [← Option.isSome_iff_exists, List.find?_isSome]
    simpa [reading] using (Bool.and_eq_true_iff.1 hreading).1
  simp [adminBufIn, hfind, hr, hreading, hlen]

theorem next_adminBufferReadDone {s u t : State} {q : Fin 64} {idx : Word} {op : Nat} {a : Adm} {ws : List Word}
    (hs : s.phase = .running) (hhere : BufferHere s q idx op a ws u)
    (h : aOp a.ws = op → bufferIn a ws u = t) : exec (.adminBufferReadDone q idx (some ws)) s = .next t := by
  have hin := adminBufIn_of_here hhere
  obtain ⟨-, hop, -⟩ := hhere
  exact next_whenRunning hs (hin.trans (h hop))

section Buffer
variable {a : Adm} (ws : List Word) (u : State)

theorem bufferIn_ruleInsert (h : aOp a.ws = 0x30) : bufferIn a ws u = ruleIn a ws u := by simp [bufferIn, h]
theorem bufferIn_ruleDelete (h : aOp a.ws = 0x31) : bufferIn a ws u = ruleIn a ws u := by simp [bufferIn, h]
theorem bufferIn_ternaryStage (h : aOp a.ws = 0x32) : bufferIn a ws u = ternaryIn a ws u := by simp [bufferIn, h]
theorem bufferIn_parseStage (h : aOp a.ws = 0x33) : bufferIn a ws u = parseIn a ws u := by simp [bufferIn, h]
theorem bufferIn_playbookLoad (h : aOp a.ws = 0x41) : bufferIn a ws u = playbookIn a ws u := by simp [bufferIn, h]

end Buffer

/-! A read after writes of consecutive keys. -/

/-- What is read after values are put at `c`, `c + 1` and so on, where each put sets its own key alone. -/
theorem read_foldl_range {α β : Type} {read : α → Nat → β} {put : α → Nat → α} {val : Nat → β} {c : Nat}
    (hput : ∀ a i k, read (put a i) k = if k = c + i then val i else read a k) (n : Nat) (a : α) (k : Nat) :
    read ((List.range n).foldl put a) k = if c ≤ k ∧ k < c + n then val (k - c) else read a k := by
  induction n with
  | zero => rw [if_neg (by omega)]; rfl
  | succ n ih =>
    rw [List.range_succ, List.foldl_append, List.foldl_cons, List.foldl_nil, hput, ih]
    by_cases hk : k = c + n
    · rw [if_pos hk, if_pos (by omega), hk, Nat.add_sub_cancel_left]
    · rw [if_neg hk]
      exact if_congr (by omega) rfl rfl

theorem tfind_tput {α : Type} (t : Table α) (j k : Nat) (v : Option α) :
    tfind (tput t j v) k = if k = j then v else tfind t k := by
  split
  · next h => rw [h, tfind_tput_same]
  · next h => exact tfind_tput_ne h t v

/-! Rules (R130, R131). -/

section Rules
variable {a : Adm} {ws : List Word} {s : State}

section Buffered
variable (hbuf : a.buf = some (some ws))
include hbuf

theorem ruleBuf_of_buf : ruleBuf a = ws := by simp [ruleBuf, hbuf]

theorem ruleInsert_present (hhere : rulePresent s ws = true) : ruleInsert a s = admDone a.q a.idx 2 [] s := by
  simp only [ruleInsert, ruleBuf_of_buf hbuf, hhere, if_true]
  rfl

theorem ruleInsert_full (hnew : rulePresent s ws = false) (hfull : 8 ≤ emUsed s (emBucket (ruleProf ws) (ruleKey ws))) :
    ruleInsert a s = admDone a.q a.idx 5 [] s := by
  simp only [ruleInsert, ruleBuf_of_buf hbuf, hnew, Bool.false_eq_true, if_false, if_pos hfull]
  rfl

theorem ruleInsert_new (hnew : rulePresent s ws = false) (hroom : emUsed s (emBucket (ruleProf ws) (ruleKey ws)) < 8) :
    ruleInsert a s = admDone a.q a.idx 0 [] { s with cls := { s.cls with em :=
      s.cls.em ++ [{ prof := ruleProf ws, key := ruleKey ws, act0 := wAt ws 6, act1 := wAt ws 7 }] } } := by
  simp only [ruleInsert, ruleBuf_of_buf hbuf, hnew, Bool.false_eq_true, if_false, if_neg (Nat.not_le.2 hroom)]
  rfl

theorem ruleDelete_absent (hnone : rulePresent s ws = false) : ruleDelete a s = admDone a.q a.idx 2 [] s := by
  simp only [ruleDelete, ruleBuf_of_buf hbuf, hnone, Bool.not_false, if_true]
  rfl

theorem ruleDelete_present (hhere : rulePresent s ws = true) : ruleDelete a s = admDone a.q a.idx 0 []
    { s with cls := { s.cls with em := dropFirst (emIs (ruleProf ws) (ruleKey ws)) s.cls.em } } := by
  simp only [ruleDelete, ruleBuf_of_buf hbuf, hhere, Bool.not_true, Bool.false_eq_true, if_false]
  rfl

end Buffered

theorem ruleIn_refused (hop : aOp a.ws = 0x30) (hbad : ruleOk ws = false) : ruleIn a ws s = admDone a.q a.idx 4 [] s :=
  if_pos (by simp [hop, hbad])

theorem ruleIn_taken (h : ruleOk ws = true ∨ aOp a.ws ≠ 0x30) :
    ruleIn a ws s = modAdm a.q a.idx (fun x => { x with buf := some (some ws) }) s := by
  refine if_neg ?_
  obtain h | h := h
  · simp [h]
  · simp [h]

end Rules

/-! Staged rules and steps (R125, R133). -/

/-- The rules staged from a place on; one of all zeros unlists it. -/
def ternStaged (p : Nat) (rs : List (List Word)) (c : Cls) : Cls :=
  unflag 6 (8192 + p) rs.length { c with ternS := (List.range rs.length).foldl (fun t i =>
    tput t (p + i) (if (rs.getD i []).all (fun w => w = 0) then none else some (rs.getD i []))) c.ternS }

/-- The steps staged from a place on. -/
def parseStaged (p : Nat) (st : List (BitVec 64)) (c : Cls) : Cls :=
  unflag 7 (4096 + p) st.length
    { c with parseS := (List.range st.length).foldl (fun t i => tset t 0 (p + i) (st.getD i 0)) c.parseS }

theorem tfind_ternStaged (p : Nat) (rs : List (List Word)) (c : Cls) (k : Nat) : tfind (ternStaged p rs c).ternS k =
    if p ≤ k ∧ k < p + rs.length then
      if (rs.getD (k - p) []).all (fun w => w = 0) then none else some (rs.getD (k - p) [])
    else tfind c.ternS k :=
  read_foldl_range (read := tfind)
    (val := fun i => if (rs.getD i []).all (fun w => w = 0) then none else some (rs.getD i [])) (fun _ _ _ => tfind_tput _ _ _ _)
    rs.length c.ternS k

theorem tget_parseStaged (p : Nat) (st : List (BitVec 64)) (c : Cls) (k : Nat) : tget (parseStaged p st c).parseS k 0 =
    if p ≤ k ∧ k < p + st.length then st.getD (k - p) 0 else tget c.parseS k 0 :=
  read_foldl_range (read := fun t k => tget t k 0) (val := fun i => st.getD i 0) (fun _ _ _ => tget_tset _ _ _ _ _)
    st.length c.parseS k

section Staged
variable {a : Adm} {ws : List Word} {s : State}

theorem ternaryIn_refused (hbad : (groups ws.length 24 ws).all ternOk = false) :
    ternaryIn a ws s = admDone a.q a.idx 4 [] s := if_pos (by simp [hbad])

theorem ternaryIn_staged (hok : (groups ws.length 24 ws).all ternOk = true) : ternaryIn a ws s =
    admDone a.q a.idx 0 [] (s.modCls (ternStaged (aParam a.ws).toNat (groups ws.length 24 ws))) := if_neg (by simp [hok])

theorem parseIn_refused (hbad : ((groups ws.length 2 ws).map stepOf).all stepOk = false) :
    parseIn a ws s = admDone a.q a.idx 4 [] s := if_pos (by simp [hbad])

theorem parseIn_staged (hok : ((groups ws.length 2 ws).map stepOf).all stepOk = true) : parseIn a ws s =
    admDone a.q a.idx 0 [] (s.modCls (parseStaged (aParam a.ws).toNat ((groups ws.length 2 ws).map stepOf))) :=
  if_neg (by simp [hok])

end Staged

/-! CLASS_COMMIT (R136, R137). -/

theorem commitFlip_held {s : State} {q : Nat} {idx : Word} {a : Adm} (hhold : s.cls.hold = some (q, idx))
    (hfind : findAdm s q idx = some a) : commitFlip s =
      let u := restartEngines { s with cls := flipPages (bitOf (aParam a.ws) 0) (bitOf (aParam a.ws) 1) s.cls }
      admDone q idx 0 [] (u.modCls fun c => { c with
        hold := none, copy := some (bitOf (aParam a.ws) 0, bitOf (aParam a.ws) 1), commits := (c.commits + 1) % 65536 }) := by
  simp only [commitFlip, hhold, hfind]
  rfl

theorem restartEngines_idle {s : State} (h : engineUse s = 0) : restartEngines s = s := if_pos h

theorem engineUse_setCls (c : Cls) (s : State) : engineUse { s with cls := c } = engineUse s := rfl

theorem commits_flipPages (tern parse : Bool) (c : Cls) : (flipPages tern parse c).commits = c.commits := by
  cases tern <;> cases parse <;> rfl

theorem commitFlip_idle {s : State} {q : Nat} {idx : Word} {a : Adm} (hhold : s.cls.hold = some (q, idx))
    (hfind : findAdm s q idx = some a) (hidle : engineUse s = 0) : commitFlip s = admDone q idx 0 [] { s with cls :=
      { flipPages (bitOf (aParam a.ws) 0) (bitOf (aParam a.ws) 1) s.cls with
        hold := none, copy := some (bitOf (aParam a.ws) 0, bitOf (aParam a.ws) 1),
        commits := (s.cls.commits + 1) % 65536 } } := by
  rw [commitFlip_held hhold hfind, restartEngines_idle ((engineUse_setCls _ s).trans hidle),
    ← commits_flipPages (bitOf (aParam a.ws) 0) (bitOf (aParam a.ws) 1) s.cls]
  rfl

theorem copyDone_none {c : Cls} (h : c.copy = none) : copyDone c = c := by simp [copyDone, h]

theorem copyDone_some {c : Cls} {tern parse : Bool} (h : c.copy = some (tern, parse)) : copyDone c =
    { c with copy := none, ternS := if tern then c.ternA else c.ternS, parseS := if parse then c.parseA else c.parseS,
             badItems := (if parse then copyItems 7 4096 else id) ((if tern then copyItems 6 8192 else id) c.badItems) } := by
  simp only [copyDone, h]
  cases tern <;> cases parse <;> rfl

/-! PLAYBOOK_LOAD (R283, R284). -/

/-- The entries installed from a code on. -/
def pbLoaded (code : Nat) (ws : List Word) (s : State) : State :=
  eachBelow ws.length (fun i s => pbInstall (code + i) (wAt ws i) s) s

theorem pbEntry_pbInstall (j k : Nat) (e : Word) (s : State) :
    pbEntry (pbInstall j e s) k = if k = j then e else pbEntry s k := by
  by_cases h : k = j
  · simp [pbEntry, pbInstall, h]
  · simp [pbEntry, pbInstall, h, tget, tset, tfind_tput_ne h]

theorem pbEntry_pbLoaded (code : Nat) (ws : List Word) (s : State) (k : Nat) : pbEntry (pbLoaded code ws s) k =
    if code ≤ k ∧ k < code + ws.length then wAt ws (k - code) else pbEntry s k :=
  read_foldl_range (read := pbEntry) (val := wAt ws) (fun _ _ _ => pbEntry_pbInstall _ _ _ _) ws.length s k

/-- Installed entries change the error unit alone. -/
theorem foldl_pbInstall (code : Nat) (ws : List Word) (l : List Nat) (s : State) :
    ∃ e, l.foldl (fun s i => pbInstall (code + i) (wAt ws i) s) s = { s with err := e } := by
  induction l generalizing s with
  | nil => exact ⟨s.err, rfl⟩
  | cons i l ih => exact ih (pbInstall (code + i) (wAt ws i) s)

theorem pbLoaded_frame (code : Nat) (ws : List Word) (s : State) :
    pbLoaded code ws s = { s with err := (pbLoaded code ws s).err } := by
  obtain ⟨e, he⟩ : ∃ e, pbLoaded code ws s = { s with err := e } := foldl_pbInstall code ws (List.range ws.length) s
  rw [he]

section Playbook
variable {a : Adm} {ws : List Word} {s : State}

theorem playbookIn_refused (hbad : ∃ i < ws.length, pbOk (target a + i) (wAt ws i) = false) :
    playbookIn a ws s = admDone a.q a.idx 4 [] s := by
  obtain ⟨i, hi, hbad⟩ := hbad
  exact if_pos (by simpa using ⟨i, hi, hbad⟩)

theorem playbookIn_loaded (hok : ∀ i < ws.length, pbOk (target a + i) (wAt ws i) = true) :
    playbookIn a ws s = admDone a.q a.idx 0 [] (pbLoaded (target a) ws s) :=
  if_neg (by simpa [target] using hok)

end Playbook

/-! The port and lane commands (R17, R54, R56, R100, R269). -/

section Ports
variable {a : Adm} {s : State} {p : Nat} (hp : p = (aTarget a.ws).toNat)
include hp

theorem portEnable_refused (fc : FramerConst) (h : portState (getPort s p) ≠ 0 ∨ (getPort s p).good = false) :
    portEnable fc a s = admDone a.q a.idx 2 [] s := by
  subst hp
  exact if_pos (by simpa using h)

section Disabled
variable {fc : FramerConst} (hst : portState (getPort s p) = 0) (hgood : (getPort s p).good = true)
include hst hgood

theorem portEnable_badConsts (hbad : constsOk s p fc = false) : portEnable fc a s = admDone a.q a.idx 4 [] s := by
  subst hp
  exact (if_neg (by simp [hst, hgood])).trans (if_pos (by simp [hbad]))

theorem portEnable_service (hok : constsOk s p fc = true) :
    portEnable fc a s = admDone a.q a.idx 0 [] (portService p fc s) := by
  subst hp
  exact (if_neg (by simp [hst, hgood])).trans (if_neg (by simp [hok]))

end Disabled

theorem portDisable_busy (hbusy : portBusy s p = true) : portDisable a s = admDone a.q a.idx 2 [] s := by
  subst hp
  exact if_pos hbusy

theorem portRestart_busy (hbusy : portBusy s p = true) : portRestart a s = admDone a.q a.idx 2 [] s := by
  subst hp
  exact if_pos hbusy

theorem portRestart_noClock (hst : portState (getPort s p) = 3) (hbad : (getPort s p).good = false) :
    portRestart a s = admDone a.q a.idx 2 [] s := by
  subst hp
  cases hbusy : portBusy s (aTarget a.ws).toNat with
  | true => exact portRestart_busy rfl hbusy
  | false => exact (if_neg (by simp [hbusy])).trans (if_neg (by simp [hst, hbad]))

section Free
variable (hfree : portBusy s p = false)
include hfree

theorem portDisable_clockLost (hst : portState (getPort s p) = 3) :
    portDisable a s = admDone a.q a.idx 0 [] (portOff p s) := by
  subst hp
  exact (if_neg (by simp [hfree])).trans (if_pos hst)

theorem portDisable_resets (hst : portState (getPort s p) = 1 ∨ portState (getPort s p) = 4) :
    portDisable a s = startReset p false (some (a.q, a.idx)) (admHold a s) := by
  subst hp
  exact (if_neg (by simp [hfree])).trans ((if_neg (by omega)).trans (if_pos hst))

theorem portRestart_resets (hst : portState (getPort s p) = 1 ∨ portState (getPort s p) = 4 ∨
    (portState (getPort s p) = 3 ∧ (getPort s p).good = true)) :
    portRestart a s = startReset p true (some (a.q, a.idx)) (admHold a s) := by
  subst hp
  exact (if_neg (by simp [hfree])).trans (if_pos hst)

end Free

theorem retrain_taken (hon : laneOn s p = true) (hidle : (getLane s p).resetting = false) :
    retrain a s = admDone a.q a.idx 0 [] (laneReset p s) := by
  subst hp
  exact if_pos (by simpa using ⟨hon, hidle⟩)

theorem retrain_refused (h : laneOn s p = false ∨ (getLane s p).resetting = true) :
    retrain a s = admDone a.q a.idx 2 [] s := by
  subst hp
  exact if_neg (by simpa [imp_iff_not_or] using h)

end Ports

end Sys2Proof.Machine

namespace Sys2Proof.Proofs

open Sys2Proof.Machine

/-- Settles O60: a command at its turn, or one whose words have come, does what its own operation does (`next_atTurn`,
`next_adminBufferReadDone`), and each operation has a lemma for each of its answers; what a load leaves to be read follows from
`read_foldl_range`. -/
theorem adminClassifierPorts : Obligations.AdminClassifierPorts := by
  refine ⟨?ruleInsert, ?ruleDelete, ?bufferReads, ?ruleWords, ?ternaryWords, ?parseWords, ?playbookWords, ?commit, ?flip,
    ?restartIdle, ?flipIdle, ?copyNone, ?copyDone, ?copied, ?enable, ?disable, ?restart, ?retrain⟩
  case ruleInsert =>
    intro s q idx a ws hs hturn hbuf
    exact ⟨fun hhere => next_atTurn hs hturn (ruleInsert_present hbuf hhere),
      fun hnew hfull => next_atTurn hs hturn (ruleInsert_full hbuf hnew hfull),
      fun hnew hroom => next_atTurn hs hturn (ruleInsert_new hbuf hnew hroom)⟩
  case ruleDelete =>
    intro s q idx a ws hs hturn hbuf
    exact ⟨fun hnone => next_atTurn hs hturn (ruleDelete_absent hbuf hnone),
      fun hhere => next_atTurn hs hturn (ruleDelete_present hbuf hhere)⟩
  case bufferReads =>
    intro s q idx a hs
    exact ⟨fun hturn => next_turnRead hs hturn (by decide), fun hturn => next_turnRead hs hturn (by decide),
      fun hturn => next_turnRead hs hturn (by decide)⟩
  case ruleWords =>
    intro s u q idx a ws hs
    refine ⟨fun hhere hbad => ?refused, ?taken⟩
    case refused =>
      exact next_adminBufferReadDone hs hhere fun hop => (bufferIn_ruleInsert ws u hop).trans (ruleIn_refused hop hbad)
    case taken =>
      rintro (⟨hhere, hok⟩ | hhere)
      · exact next_adminBufferReadDone hs hhere fun hop => (bufferIn_ruleInsert ws u hop).trans (ruleIn_taken (.inl hok))
      · exact next_adminBufferReadDone hs hhere fun hop =>
          (bufferIn_ruleDelete ws u hop).trans (ruleIn_taken (.inr (by simp [hop])))
  case ternaryWords =>
    rintro s u q idx a ws rs hs hhere rfl
    refine ⟨fun hbad => next_adminBufferReadDone hs hhere fun hop => ?refused, fun hok =>
      ⟨u.modCls (ternStaged (aParam a.ws).toNat (groups ws.length 24 ws)),
        next_adminBufferReadDone hs hhere fun hop => ?staged, rfl, fun i hi => ?inside, fun k hk => ?outside, rfl⟩⟩
    case refused => exact (bufferIn_ternaryStage ws u hop).trans (ternaryIn_refused hbad)
    case staged => exact (bufferIn_ternaryStage ws u hop).trans (ternaryIn_staged hok)
    case inside => rw [State.modCls_cls, tfind_ternStaged, if_pos (by omega), Nat.add_sub_cancel_left]
    case outside => rw [State.modCls_cls, tfind_ternStaged, if_neg (by omega)]
  case parseWords =>
    rintro s u q idx a ws st hs hhere rfl
    refine ⟨fun hbad => next_adminBufferReadDone hs hhere fun hop => ?refused, fun hok =>
      ⟨u.modCls (parseStaged (aParam a.ws).toNat ((groups ws.length 2 ws).map stepOf)),
        next_adminBufferReadDone hs hhere fun hop => ?staged, rfl, fun i hi => ?inside, fun k hk => ?outside, rfl⟩⟩
    case refused => exact (bufferIn_parseStage ws u hop).trans (parseIn_refused hbad)
    case staged => exact (bufferIn_parseStage ws u hop).trans (parseIn_staged hok)
    case inside => rw [State.modCls_cls, tget_parseStaged, if_pos (by omega), Nat.add_sub_cancel_left]
    case outside => rw [State.modCls_cls, tget_parseStaged, if_neg (by omega)]
  case playbookWords =>
    intro s u q idx a ws hs hhere
    refine ⟨fun hbad => next_adminBufferReadDone hs hhere fun hop => ?refused, fun hok =>
      ⟨pbLoaded (target a) ws u, next_adminBufferReadDone hs hhere fun hop => ?loaded, fun i hi => ?inside,
        fun k hk => ?outside, pbLoaded_frame _ ws u⟩⟩
    case refused => exact (bufferIn_playbookLoad ws u hop).trans (playbookIn_refused hbad)
    case loaded => exact (bufferIn_playbookLoad ws u hop).trans (playbookIn_loaded hok)
    case inside => rw [pbEntry_pbLoaded, if_pos (by omega), Nat.add_sub_cancel_left]
    case outside => rw [pbEntry_pbLoaded, if_neg (by omega)]
  case commit =>
    intro s q idx a hs hturn
    exact next_atTurn hs hturn rfl
  case flip =>
    rintro s u q idx a hs hhold hfind rfl
    exact next_whenRunning hs (commitFlip_held hhold hfind)
  case restartIdle =>
    intro s hidle
    exact restartEngines_idle hidle
  case flipIdle =>
    intro s q idx a hs hhold hfind hidle
    exact next_whenRunning hs (commitFlip_idle hhold hfind hidle)
  case copyNone =>
    intro s hs hnone
    exact next_whenRunning hs (congrArg (fun c => { s with cls := c }) (copyDone_none hnone))
  case copyDone =>
    intro s tern parse hs hcopy
    exact next_whenRunning hs (congrArg (fun c => { s with cls := c }) (copyDone_some hcopy))
  case copied =>
    intro s tern parse hs hcopy
    refine ⟨s.modCls copyDone, next_whenRunning hs rfl, ?_⟩
    rw [State.modCls_cls, copyDone_some hcopy]
    exact ⟨rfl, rfl, rfl, rfl, rfl, congrArg (fun c => { s with cls := c }) (copyDone_some hcopy)⟩
  case enable =>
    intro s q idx fc a hs hturn
    exact ⟨fun h => next_atTurn hs hturn (portEnable_refused rfl fc h),
      fun hst hgood hbad => next_atTurn hs hturn (portEnable_badConsts rfl hst hgood hbad),
      fun hst hgood hok => next_atTurn hs hturn (portEnable_service rfl hst hgood hok)⟩
  case disable =>
    intro s q idx a hs hturn
    exact ⟨fun hbusy => next_atTurn hs hturn (portDisable_busy rfl hbusy),
      fun hfree hst => next_atTurn hs hturn (portDisable_clockLost rfl hfree hst),
      fun hfree hst => next_atTurn hs hturn (portDisable_resets rfl hfree hst)⟩
  case restart =>
    intro s q idx a hs hturn
    exact ⟨fun hbusy => next_atTurn hs hturn (portRestart_busy rfl hbusy),
      fun hst hbad => next_atTurn hs hturn (portRestart_noClock rfl hst hbad),
      fun hfree hst => next_atTurn hs hturn (portRestart_resets rfl hfree hst)⟩
  case retrain =>
    intro s q idx a hs hturn
    exact ⟨fun hon hidle => next_atTurn hs hturn (retrain_taken rfl hon hidle),
      fun h => next_atTurn hs hturn (retrain_refused rfl h)⟩

end Sys2Proof.Proofs
end

section
/-! The round robins of the transmit and admin queues (R74–R76): which queue a fetch visits, and what a visit's loop takes. -/

namespace Sys2Proof.Machine

theorem fetchTx_adminFirst {s : State} (h : adminFirst s = true) : fetchTx s = s := if_pos h

theorem fetchTx_next {s : State} {q : Nat} (hadm : adminFirst s = false) (hnext : nextQueue s 0 4096 s.hif.txPtr = some q) :
    fetchTx s = visit q { s with hif := { s.hif with txPtr := q + 1 } } := by
  simp only [fetchTx, hadm, hnext]
  rfl

theorem fetchAdmin_next {s : State} {q : Nat} (hnext : nextQueue s 5120 5184 s.hif.admPtr = some q) :
    fetchAdmin s = visit q { s with hif := { s.hif with admPtr := q + 1 } } := by
  simp only [fetchAdmin, hnext]
  rfl

/-- The entry at F is taken: F passes it, its credit is spent, and its record is in flight. -/
def takeFront (q : Nat) (s : State) : State :=
  (modQueue q (fun Q => { Q with f := Q.f + 1, credit := Q.credit - 16 }) s).modHif fun h =>
    if q < 4096 then { h with tx := h.tx ++ [{ q := q, idx := (getQueue s q).f }] }
    else { h with adm := h.adm ++ [{ q := q, idx := (getQueue s q).f }] }

theorem getQueue_takeFront (q p : Nat) (s : State) : getQueue (takeFront q s) p =
    getQueue (modQueue q (fun Q => { Q with f := Q.f + 1, credit := Q.credit - 16 }) s) p := by
  unfold takeFront
  split <;> rfl

theorem f_takeFront (q : Nat) (s : State) : (getQueue (takeFront q s) q).f = (getQueue s q).f + 1 := by
  rw [getQueue_takeFront, getQueue_modQueue]

theorem getQueue_takeFront_ne {q p : Nat} (h : p ≠ q) (s : State) : getQueue (takeFront q s) p = getQueue s p :=
  (getQueue_takeFront q p s).trans (getQueue_modQueue_ne h _ s)

/-- A round of the loop takes the entry at F and goes on, or ends the loop with F where it is. -/
theorem visitLoop_succ (n q : Nat) (taken : List Word) (s : State) :
    visitLoop (n + 1) q taken s = visitLoop n q (taken ++ [(getQueue s q).f]) (takeFront q s) ∨
    (∃ why, visitLoop (n + 1) q taken s = (s, taken, why)) ∨
    visitLoop (n + 1) q taken s = (modQueue q (fun Q => { Q with credit := 0 }) s, taken, none) := by
  by_cases hcredit : (getQueue s q).credit < 16
  · exact .inr (.inl ⟨none, if_pos hcredit⟩)
  cases hbound : bound s q with
  | some k => exact .inr (.inl ⟨some k, by simp [visitLoop, hcredit, hbound]⟩)
  | none =>
    by_cases hthere : entryThere (getQueue s q) = true
    · left
      simp only [visitLoop, hcredit, hbound, hthere]
      rfl
    · exact .inr (.inr (by simp [visitLoop, hcredit, hbound, hthere]))

/-- From a state, `k` entries of a queue are taken from F on, after those in `taken`: F has passed them, and no other queue and
nothing on the fabric has moved. -/
structure TookEntries (q k : Nat) (taken : List Word) (s : State) (r : State × List Word × Option Nat) : Prop where
  indices : r.2.1 = taken ++ (List.range k).map fun i => (getQueue s q).f + BitVec.ofNat 32 i
  front : (getQueue r.1 q).f = (getQueue s q).f + BitVec.ofNat 32 k
  others : ∀ p, p ≠ q → getQueue r.1 p = getQueue s p
  fab : r.1.fab = s.fab

theorem tookEntries_none {q : Nat} {s t : State} (hfront : (getQueue t q).f = (getQueue s q).f)
    (hothers : ∀ p, p ≠ q → getQueue t p = getQueue s p) (hfab : t.fab = s.fab) (taken : List Word) (why : Option Nat) :
    TookEntries q 0 taken s (t, taken, why) :=
  ⟨by simp, by simp [hfront], hothers, hfab⟩

theorem word_succ (w : Word) (i : Nat) : w + 1#32 + BitVec.ofNat 32 i = w + BitVec.ofNat 32 (i + 1) := by
  rw [BitVec.add_assoc, Nat.add_comm i 1, BitVec.ofNat_add]

theorem tookEntries_succ {q k : Nat} {taken : List Word} {s : State} {r : State × List Word × Option Nat}
    (h : TookEntries q k (taken ++ [(getQueue s q).f]) (takeFront q s) r) : TookEntries q (k + 1) taken s r where
  indices := by
    rw [h.indices, f_takeFront, List.range_succ_eq_map]
    simp [word_succ, Function.comp_def]
  front := by rw [h.front, f_takeFront]; exact word_succ _ _
  others p hp := (h.others p hp).trans (getQueue_takeFront_ne hp s)
  fab := h.fab

theorem visitLoop_took (n q : Nat) (taken : List Word) (s : State) :
    ∃ k ≤ n, TookEntries q k taken s (visitLoop n q taken s) := by
  induction n generalizing taken s with
  | zero => exact ⟨0, le_rfl, tookEntries_none rfl (fun _ _ => rfl) rfl taken none⟩
  | succ n ih =>
    obtain hgo | ⟨why, hstop⟩ | hspent := visitLoop_succ n q taken s
    · obtain ⟨k, hk, htook⟩ := ih (taken ++ [(getQueue s q).f]) (takeFront q s)
      exact ⟨k + 1, Nat.succ_le_succ hk, tookEntries_succ (hgo ▸ htook)⟩
    · exact ⟨0, Nat.zero_le _, hstop ▸ tookEntries_none rfl (fun _ _ => rfl) rfl taken why⟩
    · exact ⟨0, Nat.zero_le _, hspent ▸ tookEntries_none (by rw [getQueue_modQueue])
        (fun p hp => getQueue_modQueue_ne hp _ s) rfl taken none⟩

end Sys2Proof.Machine

namespace Sys2Proof.Proofs

open Sys2Proof.Machine

/-- Settles O23: the guard and the pointer choose the queue (`fetchTx_adminFirst`, `fetchTx_next`, `fetchAdmin_next`); what the loop of
a visit takes follows by induction on its bound (`visitLoop_took`). -/
theorem roundRobins : Obligations.RoundRobins := by
  refine ⟨?adminFirst, ?transmit, ?admin, ?loop⟩
  case adminFirst =>
    intro s hs h
    exact next_whenRunning hs (fetchTx_adminFirst h)
  case transmit =>
    intro s q hs hadm hnext
    exact next_whenRunning hs (fetchTx_next hadm hnext)
  case admin =>
    intro s q hs hnext
    exact next_whenRunning hs (fetchAdmin_next hnext)
  case loop =>
    intro s q n
    obtain ⟨k, hk, hindices, hfront, hothers, hfab⟩ := visitLoop_took n q [] s
    exact ⟨k, hk, hindices, hfront, hothers, hfab⟩

end Sys2Proof.Proofs
end

section
/-! The tag of a fetched entry (R67, R73): the right one, a wrong one that the producer index covers, one found by polling alone, and the
second reading. -/

namespace Sys2Proof.Machine

section Tag
variable {s : State} {q : Nat} {idx : Word} {ws : List Word}

theorem tagChecked_right (htag : dTag ws = tagOf (getQueue s q).cfg.log2 idx) (ok : State → State) :
    tagChecked q idx ws ok s = ok (takeEntry q idx s) := if_pos htag

section Wrong
variable (htag : dTag ws ≠ tagOf (getQueue s q).cfg.log2 idx) (ok : State → State)
include htag

theorem tagChecked_covered (hpi : beforePi (getQueue s q) idx = true) :
    tagChecked q idx ws ok s = modQueue q (fun Q => { Q with tagRetry := some idx }) (takeEntry q idx s) :=
  (if_neg htag).trans (if_pos hpi)

theorem tagChecked_polled (hpi : beforePi (getQueue s q) idx = false) :
    tagChecked q idx ws ok s = drainDone q (issueIndex q (rewind q idx (takeEntry q idx s))) :=
  (if_neg htag).trans (if_neg (by simp [hpi]))

end Wrong

section Second
variable (hretry : (getQueue s q).tagRetry = some idx)
include hretry

theorem tagRetry_reads (hnone : (readsOf s fun u => u = entryUse q [idx]) = []) :
    tagRetry q none s = readEntries q (entryUse q) [idx] s := by
  simp [tagRetry, hretry, retryRead, hnone]

theorem tagRetry_words (ws : List Word) : tagRetry q (some ws) s = retryIn q idx ws s := by simp [tagRetry, hretry]

end Second

section Read
variable (hread : reading s (entryUse q [idx]) = true) {u : State}
  (hu : u = modQueue q (fun Q => { Q with tagRetry := none }) (takeEntry q idx s))
include hread hu

theorem retryIn_right (htag : dTag ws = tagOf (getQueue u q).cfg.log2 idx) : retryIn q idx ws s =
    if q < 4096 then txArrive q idx ws u else if q < 5120 then bufArrive q idx ws u else admArrive q idx ws u := by
  subst hu
  exact (if_neg (by simp [hread])).trans (if_pos htag)

theorem retryIn_wrong (htag : dTag ws ≠ tagOf (getQueue u q).cfg.log2 idx) : retryIn q idx ws s =
    drainDone q (raise 0x131 (wordOf (q + dTag ws * 65536)) idx (stopQueue q (rewind q idx u))) := by
  subst hu
  exact (if_neg (by simp [hread])).trans (if_neg htag)

end Read

end Tag

/-- An entry that is the next of its queue has its tag checked. -/
theorem next_txDescIn {s t : State} {q : Fin 4096} {idx : Word} {ws : List Word} (hs : s.phase = .running)
    (hnext : nextEntry s q = some idx) (h : tagChecked q idx ws (txArrive q idx ws) s = t) :
    exec (.txDescriptorArrive q idx ws) s = .next t :=
  next_whenRunning hs ((if_pos hnext).trans h)

theorem next_admDescIn {s t : State} {q : Fin 64} {idx : Word} {ws : List Word} (hs : s.phase = .running)
    (hnext : nextEntry s (5120 + q) = some idx) (h : tagChecked (5120 + q) idx ws (admArrive (5120 + q) idx ws) s = t) :
    exec (.adminDescriptorArrive q idx ws) s = .next t :=
  next_whenRunning hs ((if_pos hnext).trans h)

end Sys2Proof.Machine

namespace Sys2Proof.Proofs

open Sys2Proof.Machine

/-- Settles O22: the entry next in its queue has its tag checked, which has three answers (`tagChecked_right`, `tagChecked_covered`,
`tagChecked_polled`); the second reading has two (`retryIn_right`, `retryIn_wrong`). -/
theorem sequenceTags : Obligations.SequenceTags := by
  refine ⟨?transmit, ?admin, ?secondRead, ?secondWords⟩
  case transmit =>
    rintro s u q idx ws hs hnext rfl
    exact ⟨fun htag => next_txDescIn hs hnext (tagChecked_right htag _),
      fun htag hpi => next_txDescIn hs hnext (tagChecked_covered htag _ hpi),
      fun htag hpi => next_txDescIn hs hnext (tagChecked_polled htag _ hpi)⟩
  case admin =>
    rintro s u q idx ws hs hnext rfl
    exact ⟨fun htag => next_admDescIn hs hnext (tagChecked_right htag _),
      fun htag hpi => next_admDescIn hs hnext (tagChecked_covered htag _ hpi),
      fun htag hpi => next_admDescIn hs hnext (tagChecked_polled htag _ hpi)⟩
  case secondRead =>
    intro s q idx hs hretry hnone
    exact next_whenRunning hs (tagRetry_reads hretry hnone)
  case secondWords =>
    intro s u q idx ws hs hretry hread hu
    exact ⟨fun htag => next_whenRunning hs ((tagRetry_words hretry ws).trans (retryIn_right hread hu htag)),
      fun htag => next_whenRunning hs ((tagRetry_words hretry ws).trans (retryIn_wrong hread hu htag))⟩

end Sys2Proof.Proofs
end

section
/-! The transmit path up to classification (R78–R80, R82, R106, R114): segment lists, cells, launch times and whole payloads. -/

namespace Sys2Proof.Machine

/-! Segment lists (R78). -/

/-- The address and the length of the segments that a list's words name. -/
def segEntries (n : Nat) (ws : List Word) : List (Nat × Nat) :=
  (List.range n).map fun i =>
    ((wAt ws (4 * i)).toNat + bitsOf (wAt ws (4 * i + 1)) 0 20 * 4294967296, bitsOf (wAt ws (4 * i + 2)) 0 16)

/-- The length of a payload of those segments. -/
def segTotal (n : Nat) (ws : List Word) : Nat := (segEntries n ws).foldl (fun a e => a + e.2) 0

/-- A segment of a list is in order: it has a length, and its reserved bits are 0. -/
def segOk (ws : List Word) (i : Nat) : Prop :=
  bitsOf (wAt ws (4 * i + 2)) 0 16 ≠ 0 ∧ bitsOf (wAt ws (4 * i + 1)) 20 12 = 0

theorem not_segOk_iff {ws : List Word} {i : Nat} :
    ¬ segOk ws i ↔ bitsOf (wAt ws (4 * i + 2)) 0 16 = 0 ∨ bitsOf (wAt ws (4 * i + 1)) 20 12 ≠ 0 := by
  rw [segOk, not_and_or, not_not]

section SegList
variable {s u : State} {q : Nat} {idx : Word} {t : Tx} {ws : List Word} (hread : reading s (.segList q idx) = true)
  (hfind : findTx s q idx = some t) (hu : u = returnReads (fun x => x = .segList q idx) s)
include hread hfind hu

theorem segListIn_ok (hok : ∀ i < txNseg t.ws, segOk ws i) : segListIn q idx ws s = settleTx (modTx q idx (fun x =>
    { x with segs := segEntries (txNseg t.ws) ws, len := segTotal (txNseg t.ws) ws, stage := .cached }) u) := by
  have hall : ((List.range (txNseg t.ws)).all fun i =>
      decide (bitsOf (wAt ws (4 * i + 2)) 0 16 ≠ 0 ∧ bitsOf (wAt ws (4 * i + 1)) 20 12 = 0)) = true :=
    List.all_eq_true.2 fun i hi => decide_eq_true (hok i (List.mem_range.1 hi))
  subst hu
  simp only [segListIn, hread, hfind, hall]
  rfl

theorem segListIn_bad (hbad : ∃ i < txNseg t.ws, ¬ segOk ws i) : segListIn q idx ws s =
    txDone q idx 4 255 (modTx q idx (fun x => { x with len := segTotal (txNseg t.ws) ws }) u) := by
  obtain ⟨i, hi, hbad⟩ := hbad
  have hall : ((List.range (txNseg t.ws)).all fun i =>
      decide (bitsOf (wAt ws (4 * i + 2)) 0 16 ≠ 0 ∧ bitsOf (wAt ws (4 * i + 1)) 20 12 = 0)) = false :=
    List.all_eq_false.2 ⟨i, List.mem_range.2 hi, by rw [decide_eq_true_eq]; exact hbad⟩
  subst hu
  simp only [segListIn, hread, hfind, hall]
  rfl

end SegList

/-! Cells (R105, R106). -/

theorem reserveNext_taker {s : State} {q : Nat} {idx : Word} (h : cellTaker s = some (q, idx)) :
    reserveNext s = settleTx (tryReserve q idx s) := by
  simp only [reserveNext, h]

theorem reserveNext_none {s : State} (h : cellTaker s = none) : reserveNext s = s := by simp only [reserveNext, h]

theorem tryReserve_of_not_taker {s : State} {q : Nat} {idx : Word} (h : cellTaker s ≠ some (q, idx)) :
    tryReserve q idx s = s := by
  simp only [tryReserve, if_neg h]

theorem dsTake_le {s : State} {p n pool : Nat} (h : dsTake s p n = some pool) : (getPort s p).dsCells + n ≤ 8192 := by
  by_contra hover
  have hnone : dsTake s p n = none := if_pos (by omega)
  rw [hnone] at h
  contradiction

theorem access_tpt (d : Nat) (s : State) : (access d s).tpt = s.tpt := by
  unfold access
  split
  · rfl
  · rfl

theorem eachBelow_tpt {f : Nat → State → State} (h : ∀ k x, (f k x).tpt = x.tpt) (n : Nat) (s : State) :
    (eachBelow n f s).tpt = s.tpt :=
  foldl_keeps (p := State.tpt) (g := fun x k => f k x) (fun x k => h k x) (List.range n) s

theorem startWake_tpt (d : Nat) (s : State) : (startWake d s).tpt = s.tpt := by
  unfold startWake
  split
  · rfl
  · dsimp only
    split
    · exact eachBelow_tpt (fun _ _ => modDom_tpt _ _ _) 64 _
    · exact modDom_tpt d _ s

theorem wakeBanks_tpt (l : List (Nat × Nat)) (s : State) : (wakeBanks l s).tpt = s.tpt :=
  foldl_keeps (α := Nat × Nat) (p := State.tpt) (fun x e => startWake_tpt (144 + e.1) x) l (drawn s)

theorem issueReads_tpt (use : RdUse) (ps : List (Nat × Nat)) (s : State) : (issueReads use ps s).tpt = s.tpt :=
  access_tpt 208 s

theorem modPort_tpt_congr {u v : State} (h : u.tpt = v.tpt) (n : Nat) (f : Port → Port) :
    (modPort n f u).tpt = (modPort n f v).tpt := by
  simp only [modPort, State.modTpt, h]

theorem getPort_congr {u v : State} (h : u.tpt = v.tpt) (p : Nat) : getPort u p = getPort v p := by simp only [getPort, h]

/-- The cells that a descriptor takes are counted for its port, and for no other. -/
theorem getPort_tryReserve {s : State} {q pool : Nat} {idx : Word} {t : Tx} (htaker : cellTaker s = some (q, idx))
    (hfind : findTx s q idx = some t) (htake : dsTake s t.port (cellsOf (txFrameLen t)) = some pool) (p : Nat) :
    getPort (tryReserve q idx s) p = getPort (modPort t.port (fun P =>
      { P with dsCells := P.dsCells + cellsOf (txFrameLen t), dsPool := P.dsPool + pool }) s) p := by
  refine getPort_congr ?_ p
  simp only [tryReserve, if_pos htaker, hfind, htake]
  rw [issueReads_tpt, State.modHif_tpt, modTx, State.modHif_tpt]
  exact modPort_tpt_congr (wakeBanks_tpt _ s) _ _

/-! Launch times (R80, R82). -/

theorem launchRead_due {s : State} {q : Nat} {idx : Word} {t : Tx} (hfind : findTx s q idx = some t) (hstage : t.stage = .launch) :
    launchRead q idx s = settleTx (tryReserve q idx ((modTx q idx (fun t => { t with stage := .cells }) s).modHif fun h =>
      { h with cellWait := h.cellWait ++ [(q, idx)] })) := by
  simp only [launchRead, hfind, if_pos hstage]

theorem launchNow_reached {s u : State} {q : Nat} {idx : Word} {t : Tx} (hfind : findTx s q idx = some t)
    (hfirst : t.launched = false) (hover : t.stage.over = false) (hhere : t.stage ≠ .fetching)
    (hu : u = modTx q idx (fun t => { t with launched := true, hasPark := if t.stage = .parked then t.hasPark else false }) s) :
    launchNow q idx s = settleTx (if t.stage = .launch then launchRead q idx u else u) := by
  subst hu
  simp only [launchNow, hfind]
  exact if_neg (by simp [hfirst, hover, hhere])

/-! Whole payloads (R79, R114). -/

section Payload
variable {s u : State} {q : Nat} {idx : Word} {bytes : List Byte} {t : Tx} (hfind : findTx s q idx = some t)
  (hstage : t.stage = .reading) (hlen : bytes.length = t.len)
  (hu : u = modTx q idx (fun x => { x with check := checkValue (txPoly t.ws) bytes })
    (returnReads (fun x => x = .payload q idx) s))
include hfind hstage hlen hu

theorem payloadIn_mismatch (hpoly : txPoly t.ws ≠ 0) (hvalue : checkValue (txPoly t.ws) bytes ≠ txExpect t.ws) :
    payloadIn q idx bytes s = txDone q idx 8 15 (raise 0x151 (wordOf q) (dReqId t.ws) (stat t.port 15 1 u)) := by
  subst hu
  simp only [payloadIn, hfind]
  exact (if_neg (by simp [hstage, hlen])).trans (if_pos (by simp [hpoly, hvalue]))

theorem payloadIn_whole (hok : txPoly t.ws = 0 ∨ checkValue (txPoly t.ws) bytes = txExpect t.ws) : payloadIn q idx bytes s =
    modPort t.port (fun P => { P with dsDisp := P.dsDisp ++ [(q, idx)] })
      (modTx q idx (fun t => { t with payload := bytes, stage := .classify, padded := decide (bytes.length < 60) })
        (if bytes.length < 60 then stat t.port 4 1 u else u)) := by
  subst hu
  simp only [payloadIn, hfind]
  exact (if_neg (by simp [hstage, hlen])).trans (if_neg (by simpa [imp_iff_not_or] using hok))

end Payload

end Sys2Proof.Machine

namespace Sys2Proof.Proofs

open Sys2Proof.Machine

/-- Settles O24: each step of the path has a lemma for each of its answers; what a reservation counts is `getPort_tryReserve`, and its
bound is the test of `dsTake`. -/
theorem transmitPath : Obligations.TransmitPath := by
  refine ⟨?segments, ⟨?taker, ?noTaker, ?launchRead, ?launchTime, ?cells, ?notTaker⟩, ?payload⟩
  case segments =>
    intro s q idx ws t hs hread hfind
    refine ⟨fun hok => ?ok, fun ⟨i, hi, hbad⟩ => ?bad⟩
    case ok => exact next_whenRunning hs (segListIn_ok hread hfind rfl hok)
    case bad => exact next_whenRunning hs (segListIn_bad hread hfind rfl ⟨i, hi, not_segOk_iff.2 hbad⟩)
  case taker =>
    intro s q idx hs htaker
    exact next_whenRunning hs (reserveNext_taker htaker)
  case noTaker =>
    intro s hs hnone
    exact next_whenRunning hs (reserveNext_none hnone)
  case launchRead =>
    intro s q idx t hs hfind hstage
    exact next_whenRunning hs (launchRead_due hfind hstage)
  case launchTime =>
    intro s u q idx t hs hfind hfirst hover hhere hu
    exact next_whenRunning hs (launchNow_reached hfind hfirst hover hhere hu)
  case cells =>
    intro s q p idx t pool htaker hfind htake
    have hport := getPort_tryReserve htaker hfind htake
    refine ⟨?_, dsTake_le htake, fun hp => ?_⟩
    · rw [hport, getPort_modPort]
    · rw [hport, getPort_modPort_ne hp]
  case notTaker =>
    intro s q idx h
    exact tryReserve_of_not_taker h
  case payload =>
    intro s u q idx bytes t hs hfind hstage hlen hu
    exact ⟨fun hpoly hvalue => next_whenRunning hs (payloadIn_mismatch hfind hstage hlen hu hpoly hvalue),
      fun hok => next_whenRunning hs (payloadIn_whole hfind hstage hlen hu hok)⟩

end Sys2Proof.Proofs
end

section
/-! Receive buffers (R83, R100): when a ring fetches descriptors, and what becomes of one that has come. -/

namespace Sys2Proof.Machine

section Fetch
variable {s : State} {q : Nat} {Q : Queue} (hQ : Q = getQueue s q)
include hQ

theorem bufFetch_due (hst : Q.st = .active) (hroom : Q.cache.length + (bufsComing s q).length ≤ 16) (hretry : Q.tagRetry = none)
    (htags : tagsUsed s < 1024) (hthere : entryThere Q = true) :
    let n := min 16 (if Q.pollFound then ringSize Q.cfg - gap Q.f Q.ci else knownWork Q)
    bufFetch q s = readEntries q (entryUse q) ((List.range n).map fun i => Q.f + BitVec.ofNat 32 i)
      (perf 4 n (modQueue q (fun Q => { Q with f := Q.f + BitVec.ofNat 32 n }) s)) := by
  subst hQ
  exact if_neg (by simp [hst, Nat.not_lt.2 hroom, hretry, Nat.not_le.2 htags, hthere])

theorem bufFetch_idle (h : Q.st ≠ .active ∨ 16 < Q.cache.length + (bufsComing s q).length ∨ Q.tagRetry ≠ none ∨
    1024 ≤ tagsUsed s ∨ entryThere Q = false) : bufFetch q s = s := by
  subst hQ
  exact if_pos (by simpa [or_assoc, Option.isSome_iff_ne_none] using h)

end Fetch

theorem bufsIn_next {s : State} {q : Nat} {idx : Word} (hnext : nextEntry s q = some idx) (ws : List Word)
    (l : List (List Word)) : bufsIn q (ws :: l) s = bufsIn q l (tagChecked q idx ws (bufArrive q idx ws) s) := by
  simp only [bufsIn, hnext]

section Arrive
variable {s u : State} {q : Nat} {idx : Word} {ws : List Word} (hu : u = copied q idx s)
include hu

theorem bufArrive_reserved (hbad : rxBufOk ws = false) : bufArrive q idx ws s =
    drainDone q (countDrained q 1 (raise 0x132 (wordOf q) idx (addCtr (hifCtr 5) 1 u))) := by
  subst hu
  exact if_pos (by simp [hbad])

section Good
variable (hok : rxBufOk ws = true)
include hok

theorem bufArrive_draining (hst : (getQueue u q).st = .draining) :
    bufArrive q idx ws s = drainDone q (flushBuf q (rxBufOf ws) u) := by
  subst hu
  exact (if_neg (by simp [hok])).trans (if_pos hst)

theorem bufArrive_cached (hst : (getQueue u q).st ≠ .draining) :
    bufArrive q idx ws s = modQueue q (fun Q => { Q with cache := Q.cache ++ [rxBufOf ws] }) u := by
  subst hu
  exact (if_neg (by simp [hok])).trans (if_neg hst)

end Good

end Arrive

end Sys2Proof.Machine

namespace Sys2Proof.Proofs

open Sys2Proof.Machine

/-- Settles O36: a ring fetches or does not (`bufFetch_due`, `bufFetch_idle`); what comes is taken one descriptor after another
(`bufsIn_next`), each by its tag and its reserved bits. -/
theorem receiveBuffers : Obligations.ReceiveBuffers := by
  refine ⟨?due, ?idle, ?right, ?inOrder, ?taken⟩
  case due =>
    intro s r Q hs hQ hst hroom hretry htags hthere
    exact next_whenRunning hs (bufFetch_due hQ hst hroom hretry htags hthere)
  case idle =>
    intro s r Q hQ h
    exact next_whenRunning_of_fixed (bufFetch_idle hQ h)
  case right =>
    intro s r ws idx hs hnext htag
    exact next_whenRunning hs ((bufsIn_next hnext ws []).trans (tagChecked_right htag _))
  case inOrder =>
    intro s r ws l idx hs hnext
    exact next_whenRunning hs (bufsIn_next hnext ws l)
  case taken =>
    intro s q idx ws u hu
    exact ⟨bufArrive_reserved hu, bufArrive_draining hu, bufArrive_cached hu⟩

end Sys2Proof.Proofs
end

section
/-! The queue commands and the bootstrap pair (R61–R64, R66, R84, R97–R100). -/

namespace Sys2Proof.Machine

/-! QUEUE_CREATE, QUEUE_MODIFY and the entries that they read. -/

/-- A queue command's host read is for its queue-table entry. -/
theorem admRead_entry {a : Adm} (hop : aOp a.ws < 0x10) (addr len : Nat) (s : State) :
    admRead a addr len s = fabRead (.qtable a.q a.idx) addr len s := by
  rw [admRead, bufUse, if_pos hop]

section Commands
variable {a : Adm} {s : State} {q : Nat} (hq : q = (aTarget a.ws).toNat)
include hq

theorem queueCreate_refused (h : bootstrap q = true ∨ (getQueue s q).st ≠ .notCreated) :
    queueCreate a s = admDone a.q a.idx 2 [] s := by
  subst hq
  exact if_pos (by simpa using h)

theorem queueCreate_reads (hop : aOp a.ws = 0x01) (hplain : bootstrap q = false) (hst : (getQueue s q).st = .notCreated) :
    queueCreate a s = fabRead (.qtable a.q a.idx) (qtableAddr s q) 64 (admHold a s) := by
  subst hq
  rw [← admRead_entry (by omega)]
  exact if_neg (by simp [hplain, hst])

theorem queueModify_reads (hop : aOp a.ws = 0x02) (hplain : bootstrap q = false)
    (hst : (getQueue s q).st = .active ∨ (getQueue s q).st = .stopped) :
    queueModify a s = fabRead (.qtable a.q a.idx) (qtableAddr s q) 64 (admHold a s) := by
  subst hq
  rw [← admRead_entry (by omega)]
  exact (if_neg (by simp [hplain])).trans (if_pos (by simpa using hst))

theorem queueModify_pair (hpair : bootstrap q = true) (hst : (getQueue s q).st = .stopped) :
    queueModify a s = fabRead (.enableIndex q) (getQueue s q).cfg.indexAddr 8 (admHold a s) := by
  subst hq
  exact (if_pos hpair).trans (if_pos hst)

theorem queueModify_refused (hst : (getQueue s q).st = .notCreated ∨ (getQueue s q).st = .draining) :
    queueModify a s = admDone a.q a.idx 2 [] s := by
  have hactive : (getQueue s q).st ≠ .active := by obtain h | h := hst <;> simp [h]
  have hstopped : (getQueue s q).st ≠ .stopped := by obtain h | h := hst <;> simp [h]
  subst hq
  cases hpair : bootstrap (aTarget a.ws).toNat with
  | true => exact (if_pos hpair).trans (if_neg hstopped)
  | false => exact (if_neg (by simp [hpair])).trans (if_neg (by simp [hactive, hstopped]))

end Commands

theorem bufferIn_queueCreate {a : Adm} (ws : List Word) (u : State) (h : aOp a.ws = 0x01) :
    bufferIn a ws u = queueEntryIn a ws u := by simp [bufferIn, h]

theorem bufferIn_queueModify {a : Adm} (ws : List Word) (u : State) (h : aOp a.ws = 0x02) :
    bufferIn a ws u = queueEntryIn a ws u := by simp [bufferIn, h]

section Entry
variable {a : Adm} {ws : List Word} {u : State} {q : Nat} (hq : q = (aTarget a.ws).toNat)
include hq

theorem queueEntryIn_badEntry (hbad : entryOk q ws = false) : queueEntryIn a ws u = admDone a.q a.idx 4 [] u := by
  subst hq
  exact if_pos (by simp [hbad])

section EntryOk
variable (hok : entryOk q ws = true)
include hok

theorem queueEntryIn_noRing (hop : aOp a.ws = 0x01) (htype : qType q < 3)
    (hring : (getQueue u (cfgOf q ws).cq).st ≠ .active) : queueEntryIn a ws u = admDone a.q a.idx 2 [] u := by
  subst hq
  exact (if_neg (by simp [hok])).trans ((if_neg (by simp [hop])).trans
    (if_pos (by simp [hop, htype, hring])))

theorem queueEntryIn_created (hop : aOp a.ws = 0x01) (h : 3 ≤ qType q ∨ (getQueue u (cfgOf q ws).cq).st = .active) :
    queueEntryIn a ws u = fabRead (.enableIndex q) (cfgOf q ws).indexAddr 8
      (modAdm a.q a.idx (fun x => { x with buf := some (some ws) }) u) := by
  subst hq
  refine (if_neg (by simp [hok])).trans ((if_neg (by simp [hop])).trans (if_neg ?_))
  obtain htype | hring := h
  · simp [Nat.not_lt.2 htype]
  · simp [hring]

theorem queueEntryIn_fixed (hop : aOp a.ws = 0x02) (hdiff : sameFixed (cfgOf q ws) (getQueue u q).cfg = false) :
    queueEntryIn a ws u = admDone a.q a.idx 4 [] u := by
  subst hq
  exact (if_neg (by simp [hok])).trans (if_pos (by simp [hop, hdiff]))

theorem queueEntryIn_modified (hop : aOp a.ws = 0x02) (hsame : sameFixed (cfgOf q ws) (getQueue u q).cfg = true) :
    queueEntryIn a ws u = fabRead (.enableIndex q) (cfgOf q ws).indexAddr 8
      (modAdm a.q a.idx (fun x => { x with buf := some (some ws) }) u) := by
  subst hq
  exact (if_neg (by simp [hok])).trans ((if_neg (by simp [hsame])).trans (if_neg (by simp [hop])))

end EntryOk

end Entry

/-! The index area of a command or of the pair. -/

section EnableIndex
variable {s u : State} {q : Nat} (hold : (s.fab.reads.any fun r => r.use = .index q) = false)
  (hread : reading s (.enableIndex q) = true) (hu : u = returnReads (fun x => x = .enableIndex q) s)
include hold hread hu

theorem indexIn_command {a : Adm} (hcmd : enableCmd u q = some a) (pi ci : Word) :
    indexIn q pi ci s = queueIndexIn a pi ci u := by
  subst hu
  simp [indexIn, hold, hread, hcmd]

theorem indexIn_pair (hcmd : enableCmd u q = none) (hpair : bootstrap q = true) (pi ci : Word) :
    indexIn q pi ci s = aq0IndexIn q pi ci u := by
  subst hu
  simp [indexIn, hold, hread, hcmd, hpair]

end EnableIndex

theorem target_of_enableCmd {s : State} {q : Nat} {a : Adm} (h : enableCmd s q = some a) : q = (aTarget a.ws).toNat := by
  have hfound := List.find?_some h
  simp only [Bool.and_eq_true, decide_eq_true_eq] at hfound
  exact hfound.2.symm

theorem queueIndexIn_differ {a : Adm} {u : State} (hop : aOp a.ws = 0x01) {pi ci : Word} (hne : pi ≠ ci) :
    queueIndexIn a pi ci u = admDone a.q a.idx 4 [] u :=
  (if_neg (by simp [hop])).trans (if_pos hne)

section IndexArea
variable {a : Adm} {ws : List Word} {u : State} {q : Nat} (hq : q = (aTarget a.ws).toNat)
include hq

theorem queueIndexIn_started (hbuf : a.buf = some (some ws)) (hop : aOp a.ws = 0x01) (i : Word) :
    queueIndexIn a i i u = admDone a.q a.idx 0 [] (startQueue q (cfgOf q ws) i u) := by
  subst hq
  simp [queueIndexIn, hbuf, hop]

theorem queueIndexIn_modified (hbuf : a.buf = some (some ws)) (hop : aOp a.ws = 0x02) (pi ci : Word) :
    queueIndexIn a pi ci u = admDone a.q a.idx 0 [] (restartQueue q (cfgOf q ws) pi ci u) := by
  subst hq
  simp [queueIndexIn, hbuf, hop]

end IndexArea

theorem getQueue_startQueue (q : Nat) (c : QCfg) (i : Word) (s : State) :
    getQueue (startQueue q c i s) q = { st := .active, cfg := c, pi := i, ci := i, f := i } := getQueue_modQueue _ _ _

section PairIndex
variable {u : State} {q : Nat} {pi ci : Word}

theorem aq0IndexIn_stopped (hst : (getQueue u q).st = .stopped) :
    aq0IndexIn q pi ci u = restartQueue q (getQueue u q).cfg pi ci u := if_pos hst

section Starting
variable (hst : (getQueue u q).st ≠ .stopped)
include hst

theorem aq0IndexIn_differ (hne : pi ≠ ci) : aq0IndexIn q pi ci u = aq0Fail 3 u := (if_neg hst).trans (if_pos hne)

theorem aq0IndexIn_first (hidx : u.hif.aq0Idx = none) :
    aq0IndexIn q pi pi u = { u with hif := { u.hif with aq0Idx := some (q, pi) } } := by
  simp [aq0IndexIn, hst, hidx, State.modHif]

theorem aq0IndexIn_both {r : Nat} {i : Word} (hidx : u.hif.aq0Idx = some (r, i)) :
    aq0IndexIn q pi pi u = startQueue r (aq0Taken u r) i (startQueue q (aq0Taken u q) pi
      { u with hif := { u.hif with aq0Idx := none, aq0Set := none } }) := by
  simp [aq0IndexIn, hst, hidx, State.modHif]

end Starting

end PairIndex

/-! QUEUE_DRAIN and QUEUE_DESTROY. -/

section Ends
variable {a : Adm} {s : State} {q : Nat} (hq : q = (aTarget a.ws).toNat)
include hq

theorem queueDrain_refused (h : (getQueue s q).st = .notCreated ∨ (getQueue s q).st = .draining ∨ a.q = q) :
    queueDrain a s = admDone a.q a.idx 2 [] s := by
  subst hq
  refine if_pos ?_
  obtain h | h | h := h
  · simp [h]
  · simp [h]
  · simp [h]

theorem queueDrain_drains (hst : (getQueue s q).st = .active ∨ (getQueue s q).st = .stopped) (hother : a.q ≠ q) :
    queueDrain a s = drainDone q ((getQueue s q).cache.foldl (fun s b => flushBuf q b s)
      (modQueue q (fun Q => { Q with st := .draining, drained := 0, cache := [] }) (admHold a s))) := by
  subst hq
  refine if_neg ?_
  obtain h | h := hst
  · simp [h, hother]
  · simp [h, hother]

theorem queueDestroy_refused (h : bootstrap q = true ∨ (getQueue s q).st ≠ .stopped ∨ queueIdle s q = false) :
    queueDestroy a s = admDone a.q a.idx 2 [] s := by
  subst hq
  exact if_pos (by simpa [or_assoc] using h)

theorem queueDestroy_forgets (hplain : bootstrap q = false) (hst : (getQueue s q).st = .stopped) (hidle : queueIdle s q = true) :
    queueDestroy a s = admDone a.q a.idx 0 [] (modQueue q (fun _ => {}) (dropAgain q s)) := by
  subst hq
  exact if_neg (by simp [hplain, hst, hidle])

end Ends

/-! AQ0_ENABLE (R84). -/

theorem exec_aq0Enable_refused {s : State} (hs : s.phase = .running) {v : Word} {k : Nat} (h : refusal s 0x130 4 v = some k) :
    exec (.aq0Enable v) s = .next (refuseWrite 0x130 k s) :=
  congrArg Host.Outcome.next (windowWrite_of_refused hs h _)

theorem next_aq0Enable {s t : State} (hs : s.phase = .running) {v : Word} (hnone : refusal s 0x130 4 v = none)
    (h : (if bitOf v 0 then aq0Start (storeFields 0x130 v s) else storeFields 0x130 v s) = t) :
    exec (.aq0Enable v) s = .next t :=
  congrArg Host.Outcome.next ((windowWrite_of_allowed hs hnone _).trans h)

theorem storeFields_fab (off : Nat) (v : Word) (s : State) : (storeFields off v s).fab = s.fab := by
  unfold storeFields
  split
  · rfl
  · rfl

theorem getQueue_storeFields (off : Nat) (v : Word) (s : State) (q : Nat) : getQueue (storeFields off v s) q = getQueue s q := by
  simp only [getQueue, storeFields_hif]

theorem asked_storeFields (off : Nat) (v : Word) (s : State) (u : RdUse) : asked (storeFields off v s) u = asked s u := by
  simp only [asked, readsOf, storeFields_fab]

/-- The row of `HIF_AQ0_CTRL`. -/
def aq0Row : RRow :=
  { base := 0x00130, fields := [fOf .w1s 0 1, fOf .ro 1 1, fRWL 8 5, fRWL 16 5, fRWL 24 6, fRWL 30 1], lock := .aq0 }

theorem rowOf_aq0Ctrl : rowOf 0x130 = some aq0Row := by decide

theorem stored_aq0Row : aq0Row.fields.filter RField.stored = [fRWL 8 5, fRWL 16 5, fRWL 24 6, fRWL 30 1] := by decide

/-- The word kept of a row with four stored fields; the places stay variables, as the kernel would count `2 ^ 30` up in units. -/
theorem keep_of_four {r : RRow} {a b c d wa wb wc wd : Nat}
    (h : r.fields.filter RField.stored = [fRWL a wa, fRWL b wb, fRWL c wc, fRWL d wd]) (v : Word) :
    r.keep v = 0 + bitsOf v a wa * 2 ^ a + bitsOf v b wb * 2 ^ b + bitsOf v c wc * 2 ^ c + bitsOf v d wd * 2 ^ d := by
  rw [RRow.keep, h]
  rfl

/-- The sizes of the pair's rings read back as written. -/
theorem reg_aq0_sizes (v : Word) (s : State) : bitsOf (reg (storeFields 0x130 v s) 0x130) 8 5 = bitsOf v 8 5 ∧
    bitsOf (reg (storeFields 0x130 v s) 0x130) 16 5 = bitsOf v 16 5 := by
  rw [storeFields_of_row rowOf_aq0Ctrl, reg_setReg, keep_of_four stored_aq0Row]
  simp only [bitsOf, wordOf, BitVec.toNat_ofNat]
  omega

theorem log2_aq0Cfg (s : State) :
    (aq0Cfg s 5120).log2 = bitsOf (reg s 0x130) 8 5 ∧ (aq0Cfg s 6144).log2 = bitsOf (reg s 0x130) 16 5 := by
  simp [aq0Cfg]

theorem indexAddr_aq0Cfg (s : State) :
    (aq0Cfg s 5120).indexAddr = regAddr s 0x118 ∧ (aq0Cfg s 6144).indexAddr = regAddr s 0x128 := by
  simp [aq0Cfg]

theorem reg_of_regs {s t : State} (h : t.regs = s.regs) (off : Nat) : reg t off = reg s off := by simp only [reg, h]

theorem regAddr_of_regs {s t : State} (h : t.regs = s.regs) (off : Nat) : regAddr t off = regAddr s off := by
  simp only [regAddr, reg_of_regs h]

section Enable
variable {s u : State} {v : Word}

/-- Neither queue of a running pair is stopped, so a second enable reads nothing. -/
theorem aq0Start_runs (haq : (getQueue s 5120).st = .active) (hcq : (getQueue s 6144).st = .active) : aq0Start s = s := by
  simp [aq0Start, haq, hcq]

variable (hu : u = { storeFields 0x130 v s with hif := { (storeFields 0x130 v s).hif with aq0Bad := false, aq0Idx := none } })
  (hst : (getQueue s 5120).st = .notCreated) (haq : asked s (.enableIndex 5120) = false) (hcq : asked s (.enableIndex 6144) = false)
include hu hst haq hcq

theorem aq0Start_new : aq0Start (storeFields 0x130 v s) =
    if !logOk (aq0Cfg u 5120).log2 || !logOk (aq0Cfg u 6144).log2 then aq0Fail 1 u
    else fabRead (.enableIndex 6144) (aq0Cfg u 6144).indexAddr 8 (fabRead (.enableIndex 5120) (aq0Cfg u 5120).indexAddr 8
      (u.modHif fun h => { h with aq0Set := some (aq0Cfg u 5120, aq0Cfg u 6144) })) := by
  subst hu
  exact (if_neg (by simp [getQueue_storeFields, hst])).trans (if_neg (by simp [asked_storeFields, haq, hcq]))

end Enable

section Setup
variable {s u : State} {v : Word} (hregs : u.regs = (storeFields 0x130 v s).regs)
include hregs

theorem aq0Cfg_sizes : (aq0Cfg u 5120).log2 = bitsOf v 8 5 ∧ (aq0Cfg u 6144).log2 = bitsOf v 16 5 := by
  rw [(log2_aq0Cfg u).1, (log2_aq0Cfg u).2, reg_of_regs hregs]
  exact reg_aq0_sizes v s

theorem aq0Cfg_areas : (aq0Cfg u 5120).indexAddr = regAddr s 0x118 ∧ (aq0Cfg u 6144).indexAddr = regAddr s 0x128 := by
  rw [(indexAddr_aq0Cfg u).1, (indexAddr_aq0Cfg u).2, regAddr_of_regs hregs, regAddr_of_regs hregs]
  exact ⟨regAddr_storeFields_ne (by decide) (by decide) v s, regAddr_storeFields_ne (by decide) (by decide) v s⟩

end Setup

end Sys2Proof.Machine

namespace Sys2Proof.Proofs

open Sys2Proof.Machine

/-- Settles O58: each command at its turn, each entry that has come, each index area and the enable have a lemma for each answer. -/
theorem adminQueues : Obligations.AdminQueues := by
  refine ⟨?create, ?modify, ?createEntry, ?modifyEntry, ?index, ?drain, ?destroy, ?written, ?enable, ?pairIndex⟩
  case create =>
    intro s q idx a hs hturn
    have ⟨_, hop, _⟩ := hturn
    exact ⟨fun h => next_atTurn hs hturn (queueCreate_refused rfl h),
      fun hplain hst => next_atTurn hs hturn (queueCreate_reads rfl hop hplain hst)⟩
  case modify =>
    intro s q idx a hs hturn
    have ⟨_, hop, _⟩ := hturn
    exact ⟨fun hplain hst => next_atTurn hs hturn (queueModify_reads rfl hop hplain hst),
      fun hpair hst => next_atTurn hs hturn (queueModify_pair rfl hpair hst),
      fun hst => next_atTurn hs hturn (queueModify_refused rfl hst)⟩
  case createEntry =>
    intro s u q idx a ws hs hhere
    have hnext {t : State} (h : aOp a.ws = 0x01 → queueEntryIn a ws u = t) :
        exec (.adminBufferReadDone q idx (some ws)) s = .next t :=
      next_adminBufferReadDone hs hhere fun hop => (bufferIn_queueCreate ws u hop).trans (h hop)
    exact ⟨fun hbad => hnext fun _ => queueEntryIn_badEntry rfl hbad,
      fun hok htype hring => hnext fun hop => queueEntryIn_noRing rfl hok hop htype hring,
      fun hok h => hnext fun hop => queueEntryIn_created rfl hok hop h⟩
  case modifyEntry =>
    intro s u q idx a ws hs hhere hok
    have hnext {t : State} (h : aOp a.ws = 0x02 → queueEntryIn a ws u = t) :
        exec (.adminBufferReadDone q idx (some ws)) s = .next t :=
      next_adminBufferReadDone hs hhere fun hop => (bufferIn_queueModify ws u hop).trans (h hop)
    exact ⟨fun hdiff => hnext fun hop => queueEntryIn_fixed rfl hok hop hdiff,
      fun hsame => hnext fun hop => queueEntryIn_modified rfl hok hop hsame⟩
  case index =>
    intro s u k pi ci a ws hs hold hread hu hcmd hbuf
    have hk := target_of_enableCmd hcmd
    have hnext {t : State} (h : queueIndexIn a pi ci u = t) : exec (.indexReadResponse k pi ci) s = .next t :=
      next_whenRunning hs ((indexIn_command hold hread hu hcmd pi ci).trans h)
    refine ⟨?started, fun hop hne => hnext (queueIndexIn_differ hop hne),
      fun hop => hnext (queueIndexIn_modified hk hbuf hop pi ci)⟩
    case started =>
      rintro hop rfl
      exact ⟨_, hnext (queueIndexIn_started hk hbuf hop pi), rfl, getQueue_startQueue k _ pi u⟩
  case drain =>
    intro s q idx a hs hturn
    exact ⟨fun h => next_atTurn hs hturn (queueDrain_refused rfl h),
      fun hst hother => next_atTurn hs hturn (queueDrain_drains rfl hst hother)⟩
  case destroy =>
    intro s q idx a hs hturn
    exact ⟨fun h => next_atTurn hs hturn (queueDestroy_refused rfl h),
      fun hplain hst hidle => next_atTurn hs hturn (queueDestroy_forgets rfl hplain hst hidle)⟩
  case written =>
    intro s v hs
    refine ⟨fun k hk => exec_aq0Enable_refused hs hk, fun hnone h => next_aq0Enable hs hnone ?_⟩
    obtain hoff | ⟨haq, hcq⟩ := h
    · exact if_neg (by simp [hoff])
    · rw [aq0Start_runs (by rw [getQueue_storeFields, haq]) (by rw [getQueue_storeFields, hcq]), ite_self]
  case enable =>
    intro s u v hs hnone hbit hu hst haq hcq
    have hregs : u.regs = (storeFields 0x130 v s).regs := hu ▸ rfl
    obtain ⟨hsizeA, hsizeC⟩ := aq0Cfg_sizes hregs
    obtain ⟨hareaA, hareaC⟩ := aq0Cfg_areas hregs
    have hnext {t : State} (h : _ = t) : exec (.aq0Enable v) s = .next t :=
      next_aq0Enable hs hnone ((if_pos hbit).trans ((aq0Start_new hu hst haq hcq).trans h))
    rw [← hsizeA, ← hsizeC, ← hareaA, ← hareaC]
    exact ⟨fun hA hC => hnext (if_neg (by simp [hA, hC])), fun h => hnext (if_pos (by simpa using h))⟩
  case pairIndex =>
    intro s u k pi ci hs hk hold hread hu hcmd
    have hpair : bootstrap k = true := by simpa [bootstrap] using hk
    have hnext {t : State} (h : aq0IndexIn k pi ci u = t) : exec (.indexReadResponse k pi ci) s = .next t :=
      next_whenRunning hs ((indexIn_pair hold hread hu hcmd hpair pi ci).trans h)
    refine ⟨fun hst => hnext (aq0IndexIn_stopped hst), fun hst hne => hnext (aq0IndexIn_differ hst hne), ?first, ?both⟩
    case first =>
      rintro hst rfl hidx
      exact hnext (aq0IndexIn_first hst hidx)
    case both =>
      rintro r i hst rfl hidx
      exact hnext (aq0IndexIn_both hst hidx)

end Sys2Proof.Proofs
end

section
/-! The state right after reset (R61, R182, R191, R213, R340–R342). -/

namespace Sys2Proof.Machine

/-! A table that lists nothing reads as its default. -/

theorem reg_reset (off : Nat) : reg State.reset off = regReset off := rfl

theorem getQueue_reset (q : Nat) : getQueue State.reset q = {} := rfl

theorem getPort_reset (p : Nat) : getPort State.reset p = {} := rfl

theorem getRec_reset (h : Nat) : getRec State.reset h = {} := rfl

/-- Every port's `MAX_FRAME` resets to 1,518 (R340). -/
theorem regReset_maxFrame : ∀ p : Fin 64, regReset (0x10010 + p * 0x400) = 1518 := by decide

/-- Words of the window as they read right after reset: the identity, the reset record, and the registers of R342. -/
theorem readWord_reset : readWord State.reset 0xC0000 = 0x504C4E48 ∧ readWord State.reset 0xC0004 = 0xC1 ∧
    readWord State.reset 0x84 = 0 ∧ readWord State.reset 0x30000 = 3 ∧ readWord State.reset 0x80000 = 0x06100000 ∧
    readWord State.reset 0xB0004 = 0x1F2E3D4C := by
  decide

end Sys2Proof.Machine

namespace Sys2Proof.Proofs

open Sys2Proof.Machine

/-- Settles O9: the words of the window are read from the reset values (`readWord_reset`, `regReset_maxFrame`); whatever a table of the
state holds is the default, as no table lists anything. -/
theorem resetState : Obligations.ResetState := by
  unfold Obligations.ResetState
  obtain ⟨hpart, hversion, hrecord, hcls, hlnk, hseed⟩ := readWord_reset
  refine ⟨reg_reset, hpart, hversion, hrecord, hcls, hlnk, hseed, regReset_maxFrame, ?time, ?queues, ?ports, ?terminals, ?flows, rfl,
    ?playbook, ?counters, rfl⟩
  case time => decide
  case queues =>
    intro q
    rw [getQueue_reset]
  case ports =>
    intro p
    rw [getPort_reset]
    rfl
  case terminals =>
    intro h
    rw [getRec_reset]
  case flows => exact fun _ => rfl
  case playbook => exact fun _ => rfl
  case counters => exact fun _ => rfl

end Sys2Proof.Proofs
end

section
/-! How an admin command ends (R89, R95–R98): the records in flight after one of them changes, the let window, and the ring of the
command's queue. -/

namespace Sys2Proof.Machine

/-! A search after the first element that a test picks has changed. -/

section UpdFirst
variable {α : Type} {p : α → Bool} {f : α → α} {l : List α}

theorem find?_updFirst_same {a : α} (hfind : l.find? p = some a) (hkeep : p (f a) = true) :
    (updFirst p f l).find? p = some (f a) := by
  induction l with
  | nil => cases hfind
  | cons b r ih =>
    cases hb : p b with
    | true =>
      obtain rfl : b = a := by simpa [hb] using hfind
      simp [updFirst, hb, hkeep]
    | false => simpa [updFirst, hb] using ih (by simpa [hb] using hfind)

theorem find?_updFirst_ne {r : α → Bool} (hother : ∀ a, p a = true → r a = false ∧ r (f a) = false) :
    (updFirst p f l).find? r = l.find? r := by
  induction l with
  | nil => rfl
  | cons b l ih =>
    cases hb : p b with
    | true => simp [updFirst, hb, hother b hb]
    | false => simp [updFirst, hb, List.find?_cons, ih]

theorem forall_mem_updFirst {P : α → Prop} (hall : ∀ a ∈ l, P a) (hf : ∀ a, P a → P (f a)) : ∀ a ∈ updFirst p f l, P a := by
  induction l with
  | nil => exact hall
  | cons b r ih =>
    obtain ⟨hb, hr⟩ := List.forall_mem_cons.1 hall
    cases h : p b with
    | true => simpa [updFirst, h] using ⟨hf b hb, hr⟩
    | false => simpa [updFirst, h] using ⟨hb, ih hr⟩

end UpdFirst

/-! The records of admin commands in flight. -/

section Records
variable {s : State} {q : Nat} {idx : Word}

theorem key_of_findAdm {a : Adm} (h : findAdm s q idx = some a) : a.q = q ∧ a.idx = idx := by
  simpa [isAdm] using List.find?_some h

theorem findAdm_modAdm {a : Adm} {f : Adm → Adm} (hfind : findAdm s q idx = some a) (hq : (f a).q = a.q)
    (hidx : (f a).idx = a.idx) : findAdm (modAdm q idx f s) q idx = some (f a) := by
  obtain ⟨haq, haidx⟩ := key_of_findAdm hfind
  exact find?_updFirst_same hfind (by simp [isAdm, hq, hidx, haq, haidx])

theorem findAdm_modAdm_ne {q' : Nat} {idx' : Word} (hne : (q', idx') ≠ (q, idx)) {f : Adm → Adm}
    (hf : ∀ a, isAdm q idx a = true → isAdm q idx (f a) = true) :
    findAdm (modAdm q idx f s) q' idx' = findAdm s q' idx' := by
  have hother : ∀ a, isAdm q idx a = true → isAdm q' idx' a = false := by
    intro a ha
    simp only [isAdm, Bool.and_eq_true, decide_eq_true_eq, Bool.and_eq_false_iff, decide_eq_false_iff_not] at ha ⊢
    obtain ⟨rfl, rfl⟩ := ha
    by_contra hsame
    simp only [not_or, not_not] at hsame
    exact hne (by rw [hsame.1, hsame.2])
  exact find?_updFirst_ne fun a ha => ⟨hother a ha, hother (f a) (hf a ha)⟩

end Records

theorem findAdm_modQueue (k : Nat) (f : Queue → Queue) (s : State) (q : Nat) (idx : Word) :
    findAdm (modQueue k f s) q idx = findAdm s q idx := rfl

/-! The queue while it does not drain. -/

section NotDraining
variable {s : State} {q : Nat} (hst : (getQueue s q).st ≠ .draining)
include hst

theorem getQueue_countDrained (n k : Nat) : getQueue (countDrained q n s) k = getQueue s k := by
  by_cases hk : k = q
  · subst hk
    exact (getQueue_modQueue _ _ _).trans (if_neg hst)
  · exact getQueue_modQueue_ne hk _ _

theorem drainDone_of_not_draining : drainDone q s = s := if_neg (by simp [hst])

end NotDraining

/-! A command's end. -/

/-- The state in which a command has ended, its request is in the let window of its queue, and its completion is still to come. -/
def endEntered (q : Nat) (idx : Word) (st : Nat) (a : Adm) (s : State) : State :=
  countDrained q 1 (enterLet q (dReqId a.ws) st (modAdm q idx (fun _ => { a with stage := .ended, status := st }) s))

theorem findAdm_endEntered (q : Nat) (idx : Word) (st : Nat) (a : Adm) (s : State) (q' : Nat) (idx' : Word) :
    findAdm (endEntered q idx st a s) q' idx' =
      findAdm (modAdm q idx (fun _ => { a with stage := .ended, status := st }) s) q' idx' := rfl

section EndEntered
variable {s : State} {q : Nat} (hst : (getQueue s q).st ≠ .draining) (idx : Word) (st : Nat) (a : Adm)
include hst

theorem getQueue_endEntered (k : Nat) : getQueue (endEntered q idx st a s) k =
    if k = q then { getQueue s q with letw := ((dReqId a.ws, st) :: (getQueue s q).letw).take 256 } else getQueue s k := by
  have hlet : ∀ k, getQueue (enterLet q (dReqId a.ws) st
      (modAdm q idx (fun _ => { a with stage := .ended, status := st }) s)) k =
      if k = q then { getQueue s q with letw := ((dReqId a.ws, st) :: (getQueue s q).letw).take 256 } else getQueue s k :=
    fun k => tget_tset _ _ _ _ _
  exact (getQueue_countDrained (by rw [hlet, if_pos rfl]; exact hst) 1 k).trans (hlet k)

end EndEntered

section AdmDone
variable {s : State} {q : Nat} {idx : Word} {a : Adm} (hfind : findAdm s q idx = some a) (hlive : a.stage ≠ .ended)
  (horig : a.dup = false) (hnodup : ∀ b ∈ s.hif.adm, b.dup = false)
include hfind hlive horig hnodup

theorem admEnd_lone (st : Nat) (rs : List Word) : admEnd q idx st rs s =
    readyCpl (ringOfQueue (endEntered q idx st a s) q) (admCpl { a with stage := .ended, status := st } rs)
      (endEntered q idx st a s) := by
  have hnone : ((enterLet q (dReqId a.ws) st (modAdm q idx (fun _ => { a with stage := .ended, status := st }) s)).hif.adm.filter
      fun d => d.dup && d.q = q && d.stage ≠ .ended && dReqId d.ws = dReqId a.ws) = [] := by
    have hall : ∀ d ∈ updFirst (isAdm q idx) (fun _ => { a with stage := .ended, status := st }) s.hif.adm, d.dup = false :=
      forall_mem_updFirst hnodup fun _ _ => horig
    exact List.filter_eq_nil_iff.2 fun d hd => by simp [hall d hd]
  have hdup : ¬a.dup = true := by simp [horig]
  simp only [admEnd, hfind, if_neg hlive, if_neg hdup, hnone]
  rfl

theorem admDone_lone (hst : (getQueue s q).st ≠ .draining) (hring : ringOfQueue s q ≠ q) (st : Nat) (rs : List Word) :
    admDone q idx st rs s = readyCpl (ringOfQueue s q) (admCpl { a with stage := .ended, status := st } rs)
      (endEntered q idx st a s) := by
  have hcfg : ringOfQueue (endEntered q idx st a s) q = ringOfQueue s q := by
    rw [ringOfQueue, getQueue_endEntered hst, if_pos rfl]
    rfl
  rw [admDone, admEnd_lone hfind hlive horig hnodup, hcfg]
  refine drainDone_of_not_draining ?_
  rw [readyCpl, getQueue_modQueue_ne hring.symm, getQueue_endEntered hst, if_pos rfl]
  exact hst

end AdmDone

end Sys2Proof.Machine

namespace Sys2Proof.Proofs

open Sys2Proof.Machine

/-- Settles O57: the end is one record changed, one request entered, and one completion at the ring (`admDone_lone`), and each of the
three has its own rule. -/
theorem adminCompletion : Obligations.AdminCompletion := by
  unfold Obligations.AdminCompletion
  intro s q idx st rs a hfind hlive horig hnodup hst hring
  refine ⟨_, admDone_lone hfind hlive horig hnodup hst hring st rs, ?frame, ?record, ?others, ?letWindow, ?ready, ?state, ?queues,
    ?tx⟩
  case frame => rfl
  case tx => rfl
  case record =>
    rw [readyCpl, findAdm_modQueue, findAdm_endEntered]
    exact findAdm_modAdm hfind rfl rfl
  case others =>
    intro q' idx' hne
    obtain ⟨haq, haidx⟩ := key_of_findAdm hfind
    rw [readyCpl, findAdm_modQueue, findAdm_endEntered]
    exact findAdm_modAdm_ne hne fun _ _ => by simp [isAdm, haq, haidx]
  case letWindow =>
    rw [inLet, readyCpl, getQueue_modQueue_ne hring.symm, getQueue_endEntered hst, if_pos rfl]
    simp
  case ready =>
    rw [readyCpl, getQueue_modQueue, getQueue_endEntered hst, if_neg hring]
  case state =>
    rw [readyCpl, getQueue_modQueue_ne hring.symm, getQueue_endEntered hst, if_pos rfl]
  case queues =>
    intro k hkq hkring
    rw [readyCpl, getQueue_modQueue_ne hkring, getQueue_endEntered hst, if_neg hkq]

end Sys2Proof.Proofs
end

section
/-! Completion rings (R85, R89–R91): what becomes of a ready completion, and when a ring's index area is read. -/

namespace Sys2Proof.Machine

section CompletionOut
variable {s : State} {r : Nat} {c : Cpl} {rest : List Cpl} (hready : (getQueue s r).ready = c :: rest)
include hready

theorem completionOut_written (hst : (getQueue s r).st = .active) (hspace : hasSpace (getQueue s r) = true)
    (hnone : (getQueue s r).pend = []) :
    completionOut r s = writeCpl r c (modQueue r (fun Q => { Q with ready := rest }) s) := by
  have htakes : ringTakes (getQueue s r) = true := by simp [ringTakes, hst, hspace]
  simp only [completionOut, htakes, hnone, hready, List.isEmpty_nil, Bool.not_true, Bool.and_false, Bool.false_eq_true, if_false,
    if_true]

theorem completionOut_pends (hfull : (getQueue s r).st ≠ .active ∨ hasSpace (getQueue s r) = false) {u : State}
    (hu : u = modQueue r (fun Q => { Q with pend := Q.pend ++ [c] }) (modQueue r (fun Q => { Q with ready := rest }) s)) :
    completionOut r s = if (getQueue s r).pend.length < 31 then u else startEpisode r u := by
  have htakes : ringTakes (getQueue s r) = false := by
    obtain h | h := hfull
    · simp [ringTakes, h]
    · simp [ringTakes, h]
  have hpend : (getQueue u r).pend.length = (getQueue s r).pend.length + 1 := by
    subst hu
    simp
  have hout : completionOut r s = if 32 ≤ (getQueue u r).pend.length then startEpisode r u else u := by
    subst hu
    simp only [completionOut, htakes, hready, Bool.false_and, Bool.false_eq_true, if_false]
  rw [hout, hpend]
  by_cases h : (getQueue s r).pend.length < 31
  · rw [if_pos h, if_neg (by omega)]
  · rw [if_neg h, if_pos (by omega)]

end CompletionOut

theorem recoveryRead_due {s : State} {q : Nat} (hst : (getQueue s q).st = .active)
    (hwork : (getQueue s q).pend ≠ [] ∨ (getQueue s q).hold ≠ []) (hnew : asked s (.index q) = false) :
    recoveryRead q s = fabRead (.index q) (getQueue s q).cfg.indexAddr 8 s := by
  refine if_pos ?_
  obtain h | h := hwork
  · simp [hst, hnew, h]
  · simp [hst, hnew, h]

end Sys2Proof.Machine

namespace Sys2Proof.Proofs

open Sys2Proof.Machine

/-- Settles O28: a ready completion is written or pends, by the ring's state and space (`completionOut_written`,
`completionOut_pends`), and a ring with entries kept back is read (`recoveryRead_due`). That a ring which is not active takes
nothing in the quiesce phase, and that one without space starts its episode there too, is the model's reading (logs 30, 181). -/
theorem completionRings : Obligations.CompletionRings := by
  unfold Obligations.CompletionRings
  refine ⟨?written, ?pends, ?recovery⟩
  case written =>
    intro s r c rest hs hst hspace hnone hready
    exact next_whenLive hs (completionOut_written hready hst hspace hnone)
  case pends =>
    intro s r c rest hs hfull hready u
    exact next_whenLive hs (completionOut_pends hready hfull rfl)
  case recovery =>
    intro s q hs hst hwork hnew
    exact next_whenRunning hs (recoveryRead_due hst hwork hnew)

end Sys2Proof.Proofs
end

section
/-! The flow, terminal and curve commands (R100, R146, R150, R167, R176, R184, R192, R193, R197, R206): each operation by the states
in which its rule refuses it, and what it does in the others. -/

namespace Sys2Proof.Machine

theorem admTurnRead_buffer {a : Adm} (hbuffer : 0x10 ≤ aOp a.ws) (s : State) :
    admTurnRead a s = fabRead (.adminBuf a.q a.idx) (aAddr a.ws) (aLen a.ws) (admHold a s) := by
  rw [admTurnRead, admRead, bufUse, if_neg (Nat.not_lt.2 hbuffer)]

theorem bufferIn_flowCreate {a : Adm} (ws : List Word) (u : State) (h : aOp a.ws = 0x10) :
    bufferIn a ws u = flowStateIn a ws u := by simp [bufferIn, h]

theorem bufferIn_curveLoad {a : Adm} (ws : List Word) (u : State) (h : aOp a.ws = 0x40) :
    bufferIn a ws u = curveIn a ws u := by simp [bufferIn, h]

/-! Flow commands (R192, R193, R197, R206). -/

section Flows
variable {a : Adm} {s : State}

theorem flowCreate_refused (h : s.pgr.ready = false ∨ (getFlow s (target a)).live = true ∨ paging s (target a) = true) :
    flowCreate a s = admDone a.q a.idx 2 [] s := if_pos (by simpa [target, or_assoc] using h)

theorem flowCreate_reads (hop : aOp a.ws = 0x10) (hready : s.pgr.ready = true) (hnew : (getFlow s (target a)).live = false)
    (hidle : paging s (target a) = false) :
    flowCreate a s = fabRead (.adminBuf a.q a.idx) (aAddr a.ws) (aLen a.ws) (admHold a s) :=
  (if_neg (by simpa [target] using ⟨⟨hready, hnew⟩, hidle⟩)).trans (admTurnRead_buffer hop.ge s)

theorem flowStateIn_refused {ws : List Word} (h : bitsOf (wAt ws 0) 0 18 ≠ target a ∨ ctxReservedOk ws = false) :
    flowStateIn a ws s = admDone a.q a.idx 4 [] s := if_pos (by simpa [target] using h)

theorem flowStateIn_starts {ws : List Word} (hflow : bitsOf (wAt ws 0) 0 18 = target a) (hok : ctxReservedOk ws = true) :
    flowStateIn a ws s = createStart (target a) (ctxOf ws) (.create a.q a.idx) s :=
  if_neg (by simpa [target] using ⟨hflow, hok⟩)

theorem flowDestroy_refused
    (h : flowLive s (target a) = false ∨ (getFlow s (target a)).pinned = true ∨ flowUsed s (target a) = true) :
    flowDestroy a s = admDone a.q a.idx 2 [] s := if_pos (by simpa [target, or_assoc] using h)

theorem flowDestroy_starts (hlive : flowLive s (target a) = true) (hfree : (getFlow s (target a)).pinned = false)
    (hunused : flowUsed s (target a) = false) : flowDestroy a s = destroyStart a (target a) (admHold a s) :=
  if_neg (by simpa [target] using ⟨⟨hlive, hfree⟩, hunused⟩)

theorem flowPin_refused (h : flowLive s (target a) = false ∨ (getFlow s (target a)).pinned = true) :
    flowPin a s = admDone a.q a.idx 2 [] s := if_pos (by simpa [target] using h)

section Pinnable
variable (hlive : flowLive s (target a) = true) (hfree : (getFlow s (target a)).pinned = false)
include hlive hfree

theorem flowPin_full (hfull : bitsOf (reg s 0x60004) 16 15 ≤ pinnedFlows s) : flowPin a s = admDone a.q a.idx 5 [] s :=
  (if_neg (by simpa [target] using ⟨hlive, hfree⟩)).trans (if_pos hfull)

theorem flowPin_pins (hroom : pinnedFlows s < bitsOf (reg s 0x60004) 16 15) :
    flowPin a s = cmdNeed a (target a) (modFlow (target a) (fun x => { x with pinned := true }) s) :=
  (if_neg (by simpa [target] using ⟨hlive, hfree⟩)).trans (if_neg (Nat.not_le.2 hroom))

end Pinnable

theorem flowUnpin_refused (hfree : (getFlow s (target a)).pinned = false) : flowUnpin a s = admDone a.q a.idx 2 [] s :=
  if_pos (by simpa [target] using hfree)

theorem flowUnpin_unpins (hpinned : (getFlow s (target a)).pinned = true) :
    flowUnpin a s = admDone a.q a.idx 0 [] (modFlow (target a) (fun x => { x with pinned := false }) s) :=
  if_neg (by simpa [target] using hpinned)

theorem rekeyFlow_refused
    (h : flowLive s (target a) = false ∨ (getFlow s (target a)).hCheck = true ∨ (getFlow s (target a)).hFault = true) :
    rekeyFlow a s = admDone a.q a.idx 2 [] s := if_pos (by simpa [target, or_assoc] using h)

theorem rekeyFlow_needs (hlive : flowLive s (target a) = true) (hcheck : (getFlow s (target a)).hCheck = false)
    (hfault : (getFlow s (target a)).hFault = false) : rekeyFlow a s = cmdNeed a (target a) s :=
  if_neg (by simpa [target] using ⟨⟨hlive, hcheck⟩, hfault⟩)

end Flows

/-! A resident flow takes its new key at once (R206). -/

theorem getSlot_modFlow (k : Nat) (f : Flow → Flow) (s : State) (i : Nat) : getSlot (modFlow k f s) i = getSlot s i := rfl

theorem ctx_rekeyNow (f i key : Nat) (s : State) :
    (getSlot (rekeyNow f i key s) i).ctx = { (getSlot s i).ctx with nonce := 0, keyIndex := key } := by
  simp [rekeyNow, touch, changeCtx, getSlot_modFlow]

theorem hNonce_rekeyNow (f i key : Nat) (s : State) : (getFlow (rekeyNow f i key s) f).hNonce = false := by
  simp [rekeyNow]

section Rekey
variable {s : State} {f i : Nat} (hserved : served s f = some i)
include hserved

theorem st_of_served : (getSlot s i).st = .clean ∨ (getSlot s i).st = .dirty := by
  unfold served at hserved
  split at hserved
  · split at hserved
    · next h =>
      cases hserved
      simpa using h
    · cases hserved
  · cases hserved

theorem settleRekey_served {a : Adm} (hcheck : (getFlow s f).hCheck = false) :
    settleRekey a f s = admDone a.q a.idx 0 [] (rekeyNow f i (bitsOf (aParam a.ws) 0 12) s) := by
  simp [settleRekey, hcheck, hserved]

theorem st_rekeyNow (key : Nat) : (getSlot (rekeyNow f i key s) i).st = .dirty := by
  have hst : (getSlot (rekeyNow f i key s) i).st = if (getSlot s i).st = .clean then .dirty else (getSlot s i).st := by
    simp [rekeyNow, touch, changeCtx, getSlot_modFlow]
  rw [hst]
  obtain h | h := st_of_served hserved
  · rw [if_pos h]
  · rw [h]
    rfl

end Rekey

/-! Terminal commands (R146, R167, R176, R182, R184). -/

section Terminals
variable {a : Adm} {s : State}

section TerminalSet
variable (hwhole : (getRec s (target a)).flagged = false)
include hwhole

theorem terminalSet_refused (hno : inputRefused s (target a) (bitsOf (aParam a.ws) 0 4) = true) :
    terminalSet a s = admDone a.q a.idx 2 [] s :=
  (if_neg (by simpa [target] using hwhole)).trans (if_pos hno)

theorem terminalSet_taken (hyes : inputRefused s (target a) (bitsOf (aParam a.ws) 0 4) = false) {u : State}
    (hu : u = takeInput (target a) (bitsOf (aParam a.ws) 0 4) none (setAllocs a s)) :
    terminalSet a s = admDone a.q a.idx 0 [wordOf (getRec u (target a)).state] u := by
  subst hu
  exact (if_neg (by simpa [target] using hwhole)).trans (if_neg (by simpa [target] using hyes))

end TerminalSet

theorem rangeArm_refused (h : (getRec s (target a)).flagged = true ∨ ¬(getRec s (target a)).state ∈ [2, 4, 5]) :
    rangeArm a s = admDone a.q a.idx 2 [] s := by
  exact if_pos (Bool.or_eq_true_iff.2 (.inl (by simpa [target, and_assoc] using h)))

section Armed
variable (hwhole : (getRec s (target a)).flagged = false) (hst : (getRec s (target a)).state ∈ [2, 4, 5])
  (hyes : inputRefused s (target a) 7 = false)
include hwhole hst hyes

theorem rangeArm_armed : rangeArm a s =
    if armStarts s (target a) then takeInput (target a) 7 none (admHold a s)
    else admDone a.q a.idx 0 [0, 3, 0, 0] (takeInput (target a) 7 none s) := by
  have hin : (getRec s (target a)).state ≠ 2 → (getRec s (target a)).state ≠ 4 → (getRec s (target a)).state = 5 := by
    simpa [or_iff_not_imp_left] using hst
  exact if_neg (by simpa [target] using ⟨⟨hwhole, hin⟩, hyes⟩)

end Armed

theorem equaliseSet_refused (h : (getRec s (target a)).flagged = true ∨ ¬(getRec s (target a)).state ∈ [4, 5, 6]) :
    equaliseSet a s = admDone a.q a.idx 2 [] s := by
  exact if_pos (by simpa [target, and_assoc] using h)

theorem equaliseSet_set (hwhole : (getRec s (target a)).flagged = false) (hst : (getRec s (target a)).state ∈ [4, 5, 6]) :
    equaliseSet a s = admDone a.q a.idx 0 [] (modRec (target a) (fun r => { r with
      eqd := bitsOf (aData a.ws 0) 0 24, autoAdj := 0, drift := 0, samples := 0, driftOut := false, settle := 15 }) s) := by
  have hin : (getRec s (target a)).state ≠ 4 → (getRec s (target a)).state ≠ 5 → (getRec s (target a)).state = 6 := by
    simpa [or_iff_not_imp_left] using hst
  exact if_neg (by simpa [target] using ⟨hwhole, hin⟩)

end Terminals

/-! Service curves (R150). -/

section Curves
variable {a : Adm} {ws : List Word} {s : State}

theorem curveIn_refused (hbad : curveOk ws = false) : curveIn a ws s = admDone a.q a.idx 4 [] s := if_pos (by simp [hbad])

/-- The curve was loaded less than 20 µs ago. -/
def loadedSoon (s : State) (i : Nat) : Bool :=
  match (getCurve s i).loadedAt with
  | some t => decide (s.uptime < t + 20000)
  | none => false

section CurveOk
variable (hok : curveOk ws = true)
include hok

theorem curveIn_ok : curveIn a ws s =
    if loadedSoon s (target a) then modAdm a.q a.idx (fun x => { x with buf := some (some ws) })
      { s with gnt := { s.gnt with loads := s.gnt.loads ++ [(target a, a.q, a.idx)] } }
    else curveApply a ws s := if_neg (by simp [hok])

theorem curveIn_applied (hold : ∀ n, (getCurve s (target a)).loadedAt = some n → n + 20000 ≤ s.uptime) :
    curveIn a ws s = admDone a.q a.idx 0 [] (modCurve (target a) (fun _ => curveNew ws s.uptime) s) := by
  have hlate : loadedSoon s (target a) = false := by
    cases h : (getCurve s (target a)).loadedAt with
    | none => simp [loadedSoon, h]
    | some n => simpa [loadedSoon, h] using hold n h
  rw [curveIn_ok hok, hlate]
  rfl

theorem curveIn_waits {n : Nat} (hloaded : (getCurve s (target a)).loadedAt = some n) (hsoon : s.uptime < n + 20000) :
    curveIn a ws s = modAdm a.q a.idx (fun x => { x with buf := some (some ws) })
      { s with gnt := { s.gnt with loads := s.gnt.loads ++ [(target a, a.q, a.idx)] } } :=
  (curveIn_ok hok).trans (if_pos (by simpa [loadedSoon, hloaded] using hsoon))

end CurveOk

theorem curveApplyNext_waiting {u : State} {i q : Nat} {idx : Word}
    (hload : s.gnt.loads.find? (fun e => e.1 = i) = some (i, q, idx)) (hfind : findAdm s q idx = some a)
    (hbuf : a.buf = some (some ws)) (htarget : target a = i)
    (hu : u = { s with gnt := { s.gnt with loads := dropFirst (fun e => e.1 = i) s.gnt.loads } }) :
    curveApplyNext i s = admDone a.q a.idx 0 [] (modCurve i (fun _ => curveNew ws u.uptime) u) := by
  have hfind' : findAdm u q idx = some a := by
    rw [hu]
    exact hfind
  have hnext : curveApplyNext i s = curveApply a ws u := by
    simp only [curveApplyNext, hload, State.modGnt, ← hu, hfind', hbuf]
  rw [hnext, curveApply, ← htarget]
  rfl

end Curves

end Sys2Proof.Machine

namespace Sys2Proof.Proofs

open Sys2Proof.Machine

/-- Settles O59: a command at its turn, or one whose words have come, does what its own operation does (`next_atTurn`,
`next_adminBufferReadDone`), and each operation has a lemma for each of its answers. The refusals of FLOW_CREATE while the flow is
paged and before `READY` (log 101), the effects of FLOW_DESTROY (log 100) and the pins of held flows (log 99) are the model's
readings. -/
theorem adminFlowsTerminals : Obligations.AdminFlowsTerminals := by
  unfold Obligations.AdminFlowsTerminals
  refine ⟨?create, ?createWords, ?destroy, ?pin, ?unpin, ?rekey, ?rekeyed, ?setState, ?arm, ?equalise, ?load, ?loadWords, ?apply⟩
  case create =>
    intro s q idx a hs hturn
    have ⟨_, hop, _⟩ := hturn
    exact ⟨fun h => next_atTurn hs hturn (flowCreate_refused h),
      fun hready hnew hidle => next_atTurn hs hturn (flowCreate_reads hop hready hnew hidle)⟩
  case createWords =>
    intro s u q idx a ws hs hhere
    exact ⟨fun h => next_adminBufferReadDone hs hhere fun hop => (bufferIn_flowCreate ws u hop).trans (flowStateIn_refused h),
      fun hflow hok => next_adminBufferReadDone hs hhere fun hop =>
        (bufferIn_flowCreate ws u hop).trans (flowStateIn_starts hflow hok)⟩
  case destroy =>
    intro s q idx a hs hturn
    exact ⟨fun h => next_atTurn hs hturn (flowDestroy_refused h),
      fun hlive hfree hunused => next_atTurn hs hturn (flowDestroy_starts hlive hfree hunused)⟩
  case pin =>
    intro s q idx a hs hturn
    exact ⟨fun h => next_atTurn hs hturn (flowPin_refused h), fun hlive hfree =>
      ⟨fun hfull => next_atTurn hs hturn (flowPin_full hlive hfree hfull),
        fun hroom => next_atTurn hs hturn (flowPin_pins hlive hfree hroom)⟩⟩
  case unpin =>
    intro s q idx a hs hturn
    exact ⟨fun hfree => next_atTurn hs hturn (flowUnpin_refused hfree),
      fun hpinned => next_atTurn hs hturn (flowUnpin_unpins hpinned)⟩
  case rekey =>
    intro s q idx a hs hturn
    exact ⟨fun h => next_atTurn hs hturn (rekeyFlow_refused h),
      fun hlive hcheck hfault => next_atTurn hs hturn (rekeyFlow_needs hlive hcheck hfault)⟩
  case rekeyed =>
    intro s a f i hcheck hserved
    exact ⟨settleRekey_served hserved hcheck, ctx_rekeyNow f i _ s, st_rekeyNow hserved _, hNonce_rekeyNow f i _ s⟩
  case setState =>
    intro s q idx a hs hturn hwhole
    exact ⟨fun hno => next_atTurn hs hturn (terminalSet_refused hwhole hno),
      fun u hyes hu => next_atTurn hs hturn (terminalSet_taken hwhole hyes hu)⟩
  case arm =>
    intro s q idx a hs hturn
    refine ⟨fun h => next_atTurn hs hturn (rangeArm_refused h),
      fun hwhole hst hyes => ⟨fun hstarts => ?starts, fun hends => ?ends⟩⟩
    case starts => exact next_atTurn hs hturn ((rangeArm_armed hwhole hst hyes).trans (if_pos hstarts))
    case ends => exact next_atTurn hs hturn ((rangeArm_armed hwhole hst hyes).trans (if_neg (by simp [hends])))
  case equalise =>
    intro s q idx a hs hturn
    exact ⟨fun h => next_atTurn hs hturn (equaliseSet_refused h),
      fun hwhole hst => next_atTurn hs hturn (equaliseSet_set hwhole hst)⟩
  case load =>
    intro s q idx a hs hturn
    exact next_turnRead hs hturn (by decide)
  case loadWords =>
    intro s u q idx a ws hs hhere
    have hnext {t : State} (h : curveIn a ws u = t) : exec (.adminBufferReadDone q idx (some ws)) s = .next t :=
      next_adminBufferReadDone hs hhere fun hop => (bufferIn_curveLoad ws u hop).trans h
    exact ⟨fun hbad => hnext (curveIn_refused hbad), fun hok hold => hnext (curveIn_applied hok hold),
      fun n hok hloaded hsoon => hnext (curveIn_waits hok hloaded hsoon)⟩
  case apply =>
    intro s u i q idx a ws hs hload hfind hbuf htarget hu
    exact next_whenRunning hs (curveApplyNext_waiting hload hfind hbuf htarget hu)

end Sys2Proof.Proofs
end

section
/-! The monitor (R100, R253, R315–R322): bandwidth windows, the generators of marked frames, and snapshots from the command to the
header's acknowledgement. -/

namespace Sys2Proof.Machine

/-! Bandwidth windows (R315). -/

/-- The counts that every port's window starts at. -/
def windowBases (s : State) (t : Table (Nat × Nat)) : Table (Nat × Nat) :=
  (List.range 64).foldl (fun t n => tset t (0, 0) n (bwCount s n)) t

/-- What a port has counted since its window's start, to 40 bits. -/
def windowBytes (s : State) (n : Nat) : Nat × Nat :=
  (since (bwCount s n).1 (tget s.mon.bwBase n (0, 0)).1 % 1099511627776,
   since (bwCount s n).2 (tget s.mon.bwBase n (0, 0)).2 % 1099511627776)

/-- The results that every port's window ends with. -/
def windowResults (s : State) (t : Table (Nat × Nat)) : Table (Nat × Nat) :=
  (List.range 64).foldl (fun t n => tset t (0, 0) n (windowBytes s n)) t

theorem tget_foldl_tset {n : Nat} (hn : n < 64) (val : Nat → Nat × Nat) (t : Table (Nat × Nat)) :
    tget ((List.range 64).foldl (fun t n => tset t (0, 0) n (val n)) t) n (0, 0) = val n := by
  have hput : ∀ (t : Table (Nat × Nat)) i k, tget (tset t (0, 0) i (val i)) k (0, 0) =
      if k = 0 + i then val i else tget t k (0, 0) := by
    intro t i k
    rw [tget_tset, Nat.zero_add]
  rw [read_foldl_range (read := fun t k => tget t k (0, 0)) hput, if_pos (by omega), Nat.sub_zero]

theorem foldl_bwBase (s : State) (l : List Nat) (t : Table (Nat × Nat)) :
    l.foldl (fun u n => u.modMon fun m => { m with bwBase := tset m.bwBase (0, 0) n (bwCount u n) })
      { s with mon := { s.mon with bwBase := t } } =
    { s with mon := { s.mon with bwBase := l.foldl (fun t n => tset t (0, 0) n (bwCount s n)) t } } := by
  induction l generalizing t with
  | nil => rfl
  | cons n l ih => exact ih (tset t (0, 0) n (bwCount s n))

theorem foldl_bwRes (s : State) (l : List Nat) (t : Table (Nat × Nat)) :
    l.foldl (fun u n => u.modMon fun m =>
        { m with
          bwRes := tset m.bwRes (0, 0) n
            (since (bwCount u n).1 (tget m.bwBase n (0, 0)).1 % 1099511627776,
              since (bwCount u n).2 (tget m.bwBase n (0, 0)).2 % 1099511627776) })
      { s with mon := { s.mon with bwRes := t } } =
    { s with mon := { s.mon with bwRes := l.foldl (fun t n => tset t (0, 0) n (windowBytes s n)) t } } := by
  induction l generalizing t with
  | nil => rfl
  | cons n l ih => exact ih (tset t (0, 0) n (windowBytes s n))

theorem bwCount_setMon (s : State) (m : Mon) (n : Nat) : bwCount { s with mon := m } n = bwCount s n := rfl

theorem windowBases_setMon (s : State) (m : Mon) (t : Table (Nat × Nat)) :
    windowBases { s with mon := m } t = windowBases s t := by simp only [windowBases, bwCount_setMon]

theorem bwStart_setMon (s : State) (m : Mon) :
    bwStart { s with mon := m } = { s with mon := { m with bwBase := windowBases s m.bwBase } } := by
  rw [← windowBases_setMon s m]
  exact foldl_bwBase { s with mon := m } (List.range 64) m.bwBase

/-- How a window's end leaves the monitor in which its results are latched. -/
theorem windowClosed_latched (s : State) (results : Table (Nat × Nat)) :
    (({ s with mon := { s.mon with bwRes := results } } : State).modMon fun m =>
      { m with bwSeq := (m.bwSeq + 1) % 65536, bwShort := false || m.bwAbandoned, bwAbandoned := false }) =
    { s with mon := { s.mon with
        bwRes := results, bwSeq := (s.mon.bwSeq + 1) % 65536, bwShort := s.mon.bwAbandoned, bwAbandoned := false } } := rfl

theorem bwEnd_starts (s : State) : bwEnd false s = bwStart { s with mon := { s.mon with
    bwRes := windowResults s s.mon.bwRes, bwSeq := (s.mon.bwSeq + 1) % 65536, bwShort := s.mon.bwAbandoned,
    bwAbandoned := false } } := by
  have hres := foldl_bwRes s (List.range 64) s.mon.bwRes
  simp only [bwEnd, eachBelow]
  rw [hres, ← windowResults, windowClosed_latched]

theorem bwEnd_eq (s : State) : bwEnd false s = { s with mon := { s.mon with
    bwRes := windowResults s s.mon.bwRes, bwSeq := (s.mon.bwSeq + 1) % 65536, bwShort := s.mon.bwAbandoned,
    bwAbandoned := false, bwBase := windowBases s s.mon.bwBase } } :=
  (bwEnd_starts s).trans (bwStart_setMon s _)

theorem tget_windowBases {n : Nat} (hn : n < 64) (s : State) (t : Table (Nat × Nat)) :
    tget (windowBases s t) n (0, 0) = bwCount s n := tget_foldl_tset hn (bwCount s) t

theorem tget_windowResults {n : Nat} (hn : n < 64) (s : State) (t : Table (Nat × Nat)) :
    tget (windowResults s t) n (0, 0) = windowBytes s n := tget_foldl_tset hn (windowBytes s) t

theorem windowRead_of_running {s : State} (hs : s.phase = .running) (f : State → State) : windowRead f s = f s :=
  if_pos ((running_iff s).2 hs)

theorem windowRead_of_not_running {s : State} (hs : s.phase ≠ .running) (f : State → State) :
    windowRead f s = { s with hif := { s.hif with readData := 0 } } := if_neg (by simp [(running_eq_false_iff s).2 hs])

theorem tget_tput_some {α : Type} (t : Table α) (k : Nat) (x d : α) : tget (tput t k (some x)) k d = x := by
  rw [tget, tfind_tput_same]
  rfl

theorem tget_tput_ne {α : Type} {j k : Nat} (h : j ≠ k) (t : Table α) (v : Option α) (d : α) :
    tget (tput t k v) j d = tget t j d := by
  rw [tget, tfind_tput_ne h, tget]

/-! `MON_BW_CTRL` and `MON_MARK_SEED`. -/

/-- The row of `MON_BW_CTRL`. -/
def bwCtrlRow : RRow := { base := 0xB0030, fields := [fRW 0 3 3], check := .bwCtrl }

theorem rowOf_bwCtrl : rowOf 0xB0030 = some bwCtrlRow := by decide

theorem refusal_bwCtrl (s : State) (v : Word) : refusal s 0xB0030 4 v = if bitsOf v 0 3 ≤ 6 then none else some 3 := by
  simp only [refusal, rowOf_bwCtrl]
  by_cases h : bitsOf v 0 3 ≤ 6
  · simp [bwCtrlRow, locked, valueOk, inUse, h]
  · simp [bwCtrlRow, locked, valueOk, h]

theorem reg_storeFields_bwCtrl (v : Word) (s : State) : reg (storeFields 0xB0030 v s) 0xB0030 = wordOf (bitsOf v 0 3) := by
  have hkeep : bwCtrlRow.keep v = bitsOf v 0 3 := by
    have hsum : bwCtrlRow.keep v = 0 + bitsOf v 0 3 * 2 ^ 0 := rfl
    rw [hsum, Nat.pow_zero, Nat.mul_one, Nat.zero_add]
  rw [storeFields_of_row rowOf_bwCtrl, reg_setReg, hkeep]

section BwCtrl
variable {s : State} (hs : s.phase = .running) {v : Word}
include hs

theorem bwCtrlWrite_refused (hbad : 6 < bitsOf v 0 3) : bwCtrlWrite 4 v s = refuseWrite 0xB0030 3 s := by
  have hrefused : refusal s 0xB0030 4 v = some 3 := (refusal_bwCtrl s v).trans (if_neg (Nat.not_le.2 hbad))
  simp only [bwCtrlWrite, windowWrite_of_refused hs hrefused]

section Allowed
variable (hok : bitsOf v 0 3 ≤ 6)
include hok

theorem bwCtrlWrite_same (hsame : reg (storeFields 0xB0030 v s) 0xB0030 = reg s 0xB0030) :
    bwCtrlWrite 4 v s = storeFields 0xB0030 v s := by
  have hnone : refusal s 0xB0030 4 v = none := (refusal_bwCtrl s v).trans (if_pos hok)
  simp only [bwCtrlWrite, windowWrite_of_allowed hs hnone, if_pos hsame]

theorem bwCtrlWrite_changed (hdiff : reg (storeFields 0xB0030 v s) 0xB0030 ≠ reg s 0xB0030) : bwCtrlWrite 4 v s =
    bwStart ((storeFields 0xB0030 v s).modMon fun m => { m with bwAbandoned := true }) := by
  have hnone : refusal s 0xB0030 4 v = none := (refusal_bwCtrl s v).trans (if_pos hok)
  simp only [bwCtrlWrite, windowWrite_of_allowed hs hnone, if_neg hdiff]

end Allowed

end BwCtrl

/-- The state in which a changed length has abandoned the window: every port's next one starts at the counters. -/
def windowAbandoned (v : Word) (s : State) : State :=
  bwStart ((storeFields 0xB0030 v s).modMon fun m => { m with bwAbandoned := true })

theorem windowAbandoned_eq (v : Word) (s : State) : windowAbandoned v s = { storeFields 0xB0030 v s with
    mon := { (storeFields 0xB0030 v s).mon with
      bwAbandoned := true, bwBase := windowBases (storeFields 0xB0030 v s) (storeFields 0xB0030 v s).mon.bwBase } } :=
  bwStart_setMon (storeFields 0xB0030 v s) { (storeFields 0xB0030 v s).mon with bwAbandoned := true }

theorem reg_windowAbandoned (v : Word) (s : State) (off : Nat) : reg (windowAbandoned v s) off = reg (storeFields 0xB0030 v s) off := by
  rw [windowAbandoned_eq]
  rfl

theorem bwAbandoned_windowAbandoned (v : Word) (s : State) : (windowAbandoned v s).mon.bwAbandoned = true := by
  rw [windowAbandoned_eq]

theorem storeFields_ctrs (off : Nat) (v : Word) (s : State) : (storeFields off v s).ctrs = s.ctrs := by
  unfold storeFields
  split
  · rfl
  · rfl

theorem bwBase_windowAbandoned (v : Word) (s : State) {n : Nat} (hn : n < 64) :
    tget (windowAbandoned v s).mon.bwBase n (0, 0) = bwCount s n := by
  rw [windowAbandoned_eq, tget_windowBases hn]
  simp only [bwCount, getCtr, storeFields_ctrs]

/-- The row of `MON_MARK_SEED`. -/
def markSeedRow : RRow := { base := 0xB0004, fields := [fRW 0 32 0x1F2E3D4C], check := .markSeed }

theorem rowOf_markSeed : rowOf 0xB0004 = some markSeedRow := by decide

theorem refusal_markSeed (s : State) (v : Word) : refusal s 0xB0004 4 v = if v = 0 then some 3 else none := by
  simp only [refusal, rowOf_markSeed]
  simp [markSeedRow, locked, valueOk, inUse]

theorem reg_storeFields_markSeed (v : Word) (s : State) : reg (storeFields 0xB0004 v s) 0xB0004 = v := by
  have hkeep : wordOf (markSeedRow.keep v) = v := by
    have hsum : markSeedRow.keep v = 0 + bitsOf v 0 32 * 2 ^ 0 := rfl
    rw [hsum, Nat.pow_zero, Nat.mul_one, Nat.zero_add, bitsOf, Nat.pow_zero, Nat.div_one, Nat.mod_eq_of_lt v.isLt]
    simp [wordOf]
  rw [storeFields_of_row rowOf_markSeed, reg_setReg, hkeep]

section MarkSeed
variable {s : State} (hs : s.phase = .running)
include hs

theorem seedWrite_zero : seedWrite 4 0 s = refuseWrite 0xB0004 3 s :=
  windowWrite_of_refused hs ((refusal_markSeed s 0).trans (if_pos rfl)) _

theorem seedWrite_reloads {v : Word} (hv : v ≠ 0) :
    seedWrite 4 v s = (storeFields 0xB0004 v s).modMon fun m => { m with drawsUs := 0, drawsDs := 0 } :=
  windowWrite_of_allowed hs ((refusal_markSeed s v).trans (if_neg hv)) _

end MarkSeed

/-! SNAPSHOT (R100, R253, R319). -/

theorem addFreeze_room {f : Freeze} {q : Nat} {idx : Word} {s : State} (hroom : s.mon.freezes.length < 8)
    (hcmd : f.cmd = some (q, idx)) : addFreeze f s = modAdm q idx (fun a => { a with stage := .turned })
      (s.modMon fun m => { m with freezes := insertFreeze f m.freezes }) := by
  simp only [addFreeze, if_neg (Nat.not_le.2 hroom), hcmd]

section Snapshot
variable {a : Adm} {s : State}

theorem snapTake_busy (hbusy : snapBusy s = true) : snapTake a s = admDone a.q a.idx 2 [] s := if_pos hbusy

section Free
variable (hfree : snapBusy s = false) {n at' : Nat} {f : Freeze} (hn : n = (s.mon.snapCount + 1) % 4294967296)
  (hat : at' = nowQuarter s + (if aParam a.ws = 1 then bitsOf (reg s 0x80008) 0 10 * 4000 else 0))
  (hf : f = { t := at', number := n, origin := ownInstance s, cluster := decide (aParam a.ws = 1), cmd := some (a.q, a.idx) })
include hfree hn hat hf

theorem snapTake_full (hfull : 8 ≤ s.mon.freezes.length) : snapTake a s = addFreeze f s := by
  subst hn hat hf
  simp [snapTake, hfree, hfull]

section Room
variable (hroom : s.mon.freezes.length < 8) {u : State} (hu : u = (addFreeze f s).modMon (fun m => { m with snapCount := n }))
include hroom hu

theorem snapTake_own (hown : aParam a.ws ≠ 1) : snapTake a s = u := by
  subst hn hat hf hu
  simp only [snapTake, hfree, Nat.not_le.2 hroom, hown, Bool.false_eq_true, if_false, decide_false]

theorem snapTake_cluster (hcluster : aParam a.ws = 1) : snapTake a s = sendSnap (fun _ => true)
    { body := .snap (n % 65536) (at' / 4000000000 % 281474976710656) (at' / 4 % 1000000000),
      hops := linkHops u, origin := ownInstance u } u := by
  subst hn hat hf hu
  simp [snapTake, hfree, Nat.not_le.2 hroom, hcluster]

end Room

end Free

/-- A snapshot that is not of the cluster has its freeze time at once, and no message goes out. -/
theorem snapTake_alone (hfree : snapBusy s = false) (hroom : s.mon.freezes.length < 8) (halone : aParam a.ws = 0) {n : Nat}
    (hn : n = (s.mon.snapCount + 1) % 4294967296) : snapTake a s = modAdm a.q a.idx (fun x => { x with stage := .turned })
      (s.modMon fun m => { m with
        snapCount := n
        freezes := insertFreeze
          { t := nowQuarter s, number := n, origin := ownInstance s, cluster := false, cmd := some (a.q, a.idx) } m.freezes }) := by
  have hat : nowQuarter s = nowQuarter s + (if aParam a.ws = 1 then bitsOf (reg s 0x80008) 0 10 * 4000 else 0) := by simp [halone]
  have hown : decide (aParam a.ws = 1) = false := by simp [halone]
  have htake := snapTake_own hfree hn hat rfl hroom rfl (of_decide_eq_false hown)
  rw [hown, addFreeze_room hroom rfl] at htake
  exact htake

end Snapshot

/-! SNAPSHOT_FREEZE and SNAPSHOT_IMAGE_DONE (R317–R320). -/

section Freeze
variable {s u : State} {f : Freeze} {r : List Freeze} {m : Image} (hfreezes : s.mon.freezes = f :: r)
  (hbuffer : s.mon.image = none)
include hfreezes hbuffer

theorem freezeNow_own (hdue : f.t ≤ nowQuarter s) (hsoon : nowQuarter s ≤ f.t + 8) (hcmd : f.cmd.isSome = true)
    (hm : m = { fz := f, late := false, lateNs := 0, ctrs := s.ctrs, slot := none, base := imageBase s f 0 })
    (hu : u = (s.modMon fun x => { x with freezes := r, image := some m })) :
    freezeNow s = fabWrite .snapshot (m.base + 64) 68800 (imageWords s.ctrs) u := by
  have hontime : decide (8 < nowQuarter s - f.t) = false := decide_eq_false (by omega)
  have hown : f.cmd.isNone = false := by simpa using hcmd
  subst hm hu
  simp only [freezeNow, hfreezes, hbuffer, if_neg (Nat.not_lt.2 hdue), hontime, hown, Bool.false_eq_true, if_false,
    Option.isSome_none, Option.getD_none]

theorem freezeNow_late {ns slots k : Nat} (hlate : f.t + 8 < nowQuarter s) (hcmd : f.cmd = none)
    (hns : ns = sat 0xFFFFFFFF ((nowQuarter s - f.t) / 4)) (hslots : slots = 2 ^ bitsOf (reg s 0xB0048) 0 3)
    (hk : k = s.mon.snapNext % slots)
    (hm : m = { fz := f, late := true, lateNs := ns, ctrs := s.ctrs, slot := some k, base := imageBase s f k })
    (hu : u = (s.modMon fun x => { x with freezes := r, image := some m, snapNext := (x.snapNext + 1) % slots })) :
    freezeNow s = fabWrite .snapshot (m.base + 64) 68800 (imageWords s.ctrs) (raise 0xB21 (wordOf f.number) (wordOf ns) u) := by
  have hmissed : decide (8 < nowQuarter s - f.t) = true := decide_eq_true (by omega)
  have hreceived : f.cmd.isNone = true := by simp [hcmd]
  subst hns hslots hk hm hu
  simp only [freezeNow, hfreezes, hbuffer, if_neg (show ¬nowQuarter s < f.t by omega), hmissed, hreceived, if_true,
    Option.isSome_some, Option.getD_some]

end Freeze

theorem snapDone_image {s : State} {m : Image} (himage : s.mon.image = some m) :
    snapDone s = imageDone m (if headerOut s m then s else writeHeader m (endImageWrites s)) := by
  simp only [snapDone, himage]

end Sys2Proof.Machine

namespace Sys2Proof.Proofs

open Sys2Proof.Machine

/-- Settles O54: a window's end, a changed length and a latched read by the state that each leaves (`bwEnd_eq`, `windowAbandoned_eq`),
the command by what stands in its way (`snapTake_busy`, `snapTake_full`, `snapTake_own`, `snapTake_cluster`), and a freeze by whether
its time has just come (`freezeNow_own`, `freezeNow_late`). That a dropped SNAPSHOT takes no number, that an image's sections are one write
and its header the next, which slot it takes, and that a changed length starts its count at once are the model's readings (logs 167,
169, 171, 172). -/
theorem monitor : Obligations.Monitor := by
  unfold Obligations.Monitor
  refine ⟨?windowEnd, ?results, ?latch, ?latched, ?change, ?changed, ?seed, ?reloaded, ?busy, ?snapshot, ?queued, ?freeze, ?late, ?done⟩
  case windowEnd =>
    intro s hs
    exact next_whenRunning hs rfl
  case results =>
    intro s hs
    exact ⟨_, next_whenRunning hs (bwEnd_eq s), rfl, rfl, rfl,
      fun n hn => ⟨tget_windowBases hn s _, tget_windowResults hn s _⟩, rfl⟩
  case latch =>
    intro s n
    exact ⟨fun hs => congrArg Host.Outcome.next (windowRead_of_running hs _),
      fun hs => congrArg Host.Outcome.next (windowRead_of_not_running hs _)⟩
  case latched =>
    intro s n hs
    exact ⟨bwRead n s, congrArg Host.Outcome.next (windowRead_of_running hs _), rfl, tget_tput_some _ _ _ _,
      fun k hk => tget_tput_ne hk s.mon.bwLatch (some (bwWords s n)) []⟩
  case change =>
    rintro s u v hs rfl
    exact ⟨fun hbad => congrArg Host.Outcome.next (bwCtrlWrite_refused hs hbad),
      fun hok hsame => congrArg Host.Outcome.next (bwCtrlWrite_same hs hok hsame),
      fun hok hdiff => congrArg Host.Outcome.next (bwCtrlWrite_changed hs hok hdiff)⟩
  case changed =>
    intro s v hs hok
    have hreg := reg_storeFields_bwCtrl v s
    by_cases hsame : reg (storeFields 0xB0030 v s) 0xB0030 = reg s 0xB0030
    · exact ⟨_, congrArg Host.Outcome.next (bwCtrlWrite_same hs hok hsame), hreg, fun off hoff => reg_storeFields_ne hoff v s,
        fun _ => storeFields_mon _ v s, fun hne => absurd (hsame.symm.trans hreg) hne⟩
    · exact ⟨windowAbandoned v s, congrArg Host.Outcome.next (bwCtrlWrite_changed hs hok hsame),
        (reg_windowAbandoned v s _).trans hreg,
        fun off hoff => (reg_windowAbandoned v s off).trans (reg_storeFields_ne hoff v s),
        fun heq => absurd (hreg.trans heq.symm) hsame,
        fun _ => ⟨bwAbandoned_windowAbandoned v s, fun n hn => bwBase_windowAbandoned v s hn⟩⟩
  case seed =>
    intro s hs
    exact ⟨fun v hv => congrArg Host.Outcome.next (seedWrite_reloads hs hv), congrArg Host.Outcome.next (seedWrite_zero hs)⟩
  case reloaded =>
    intro s v hs hv
    refine ⟨_, congrArg Host.Outcome.next (seedWrite_reloads hs hv), reg_storeFields_markSeed v s, ?_,
      fun off hoff => reg_storeFields_ne hoff v s⟩
    rw [State.modMon_mon, storeFields_mon]
  case busy =>
    intro s q idx a hs hturn hbusy
    exact next_atTurn hs hturn (snapTake_busy hbusy)
  case snapshot =>
    intro s u q idx a n at' f hs hturn hfree hn hat hf hu
    exact ⟨fun hfull => next_atTurn hs hturn (snapTake_full hfree hn hat hf hfull),
      fun hroom hown => next_atTurn hs hturn (snapTake_own hfree hn hat hf hroom hu hown),
      fun hroom hcluster => next_atTurn hs hturn (snapTake_cluster hfree hn hat hf hroom hu hcluster)⟩
  case queued =>
    intro s q idx a n hs hturn hroom hfree hparam hn
    have ⟨hfind, _, _⟩ := hturn
    obtain ⟨haq, haidx⟩ := key_of_findAdm hfind
    have hself : findAdm s a.q a.idx = some a := by rw [haq, haidx, hfind]
    exact ⟨_, next_atTurn hs hturn (snapTake_alone hfree hroom hparam hn), rfl,
      findAdm_modAdm (s := s.modMon _) (f := fun x => { x with stage := .turned }) hself rfl rfl, rfl⟩
  case freeze =>
    intro s u f r m hs hfreezes hbuffer hdue hsoon hcmd hm hu
    exact next_whenRunning hs (freezeNow_own hfreezes hbuffer hdue hsoon hcmd hm hu)
  case late =>
    intro s u f r m ns slots k hs hfreezes hbuffer hlate hcmd hns hslots hk hm hu
    exact next_whenRunning hs (freezeNow_late hfreezes hbuffer hlate hcmd hns hslots hk hm hu)
  case done =>
    intro s m hs himage
    exact next_whenLive hs (snapDone_image himage)

end Sys2Proof.Proofs
end

section
/-! `MAX_FRAME` of a port (R101, R336, R337, R340): which writes of it are refused, and which registers every command leaves. -/

namespace Sys2Proof.Machine

/-! What leaves the table of registers, though it sets other parts of `Setup`. The table is written as `kept.setup.regs`, so that
the operations that leave all of `Kept` are rewritten by their own `_kept` lemmas. -/

@[simp] theorem ite_regs (c : Prop) [Decidable c] (a b : Kept) :
    (if c then a else b).setup.regs = if c then a.setup.regs else b.setup.regs := apply_ite (fun k => k.setup.regs) c a b

theorem foldl_regs {α : Type} (g : State → α → State) (h : ∀ x a, (g x a).kept.setup.regs = x.kept.setup.regs) (l : List α)
    (s : State) : (l.foldl g s).kept.setup.regs = s.kept.setup.regs :=
  foldl_keeps (p := fun x => x.kept.setup.regs) h l s

theorem eachBelow_regs (n : Nat) (f : Nat → State → State) (h : ∀ k x, (f k x).kept.setup.regs = x.kept.setup.regs)
    (s : State) : (eachBelow n f s).kept.setup.regs = s.kept.setup.regs :=
  foldl_regs _ (fun x k => h k x) _ s

@[simp] theorem whenRunning_regs (f : State → State) (s : State) (h : ∀ x, (f x).kept.setup.regs = x.kept.setup.regs) :
    (whenRunning f s).kept.setup.regs = s.kept.setup.regs :=
  whenRunning_keeps (fun x => x.kept.setup.regs) fun _ => h s

@[simp] theorem atTurn_regs (q : Nat) (idx : Word) (op : Nat) (f : Adm → State → State) (s : State)
    (h : ∀ a x, (f a x).kept.setup.regs = x.kept.setup.regs) : (atTurn q idx op f s).kept.setup.regs = s.kept.setup.regs :=
  atTurn_keeps (fun x => x.kept.setup.regs) q idx op fun a => h a s

@[simp] theorem State.modCls_setup_regs (f : Cls → Cls) (s : State) : (s.modCls f).kept.setup.regs = s.kept.setup.regs := rfl
@[simp] theorem State.modErr_setup_regs (f : Err → Err) (s : State) : (s.modErr f).kept.setup.regs = s.kept.setup.regs := rfl

/-! The admin commands that set rules, parse steps or the playbook. -/

@[simp] theorem ruleInsert_regs (a : Adm) (s : State) : (ruleInsert a s).kept.setup.regs = s.kept.setup.regs := by
  simp [ruleInsert]

@[simp] theorem ruleDelete_regs (a : Adm) (s : State) : (ruleDelete a s).kept.setup.regs = s.kept.setup.regs := by
  simp [ruleDelete]

@[simp] theorem ruleIn_regs (a : Adm) (ws : List Word) (s : State) : (ruleIn a ws s).kept.setup.regs = s.kept.setup.regs := by
  simp [ruleIn]

@[simp] theorem ternaryIn_regs (a : Adm) (ws : List Word) (s : State) : (ternaryIn a ws s).kept.setup.regs = s.kept.setup.regs := by
  simp [ternaryIn]

@[simp] theorem parseIn_regs (a : Adm) (ws : List Word) (s : State) : (parseIn a ws s).kept.setup.regs = s.kept.setup.regs := by
  unfold parseIn
  dsimp only
  split
  · rw [admRefuse_kept]
  · rw [admDone_kept, State.modCls_setup_regs]

@[simp] theorem commitFlip_regs (s : State) : (commitFlip s).kept.setup.regs = s.kept.setup.regs := by
  unfold commitFlip
  split <;> simp

@[simp] theorem playbookIn_regs (a : Adm) (ws : List Word) (s : State) :
    (playbookIn a ws s).kept.setup.regs = s.kept.setup.regs := by
  unfold playbookIn
  dsimp only
  split
  · rw [admRefuse_kept]
  · rw [admDone_kept, eachBelow_regs]
    intro i x
    rw [pbInstall, State.modErr_setup_regs]

@[simp] theorem bufferIn_regs (a : Adm) (ws : List Word) (s : State) : (bufferIn a ws s).kept.setup.regs = s.kept.setup.regs := by
  unfold bufferIn
  split <;> simp

@[simp] theorem adminBufIn_regs (q : Nat) (idx : Word) (data : Option (List Word)) (s : State) :
    (adminBufIn q idx data s).kept.setup.regs = s.kept.setup.regs := by
  unfold adminBufIn
  (repeat' split) <;> simp

/-! The containment of an error, which may set a flag of a rule or of the playbook (R293), and a wake that fails. -/

@[simp] theorem contain_regs (store item : Nat) (s : State) : (contain store item s).kept.setup.regs = s.kept.setup.regs := by
  unfold contain
  dsimp only
  (repeat' split) <;> simp

@[simp] theorem uncorrected_regs (store word item : Nat) (s : State) :
    (uncorrected store word item s).kept.setup.regs = s.kept.setup.regs := by
  simp [uncorrected]

@[simp] theorem scrub_regs (store word item err : Nat) (s : State) :
    (scrub store word item err s).kept.setup.regs = s.kept.setup.regs := by
  simp [scrub]

@[simp] theorem containAll_regs (d : Nat) (s : State) : (containAll d s).kept.setup.regs = s.kept.setup.regs := by
  simp only [containAll]
  exact foldl_regs _ (fun x k => foldl_regs _ (fun y i => contain_regs k i y) _ x) _ s

@[simp] theorem listGone_regs (p : Nat) (s : State) : (listGone p s).kept.setup.regs = s.kept.setup.regs := by
  unfold listGone
  split
  · split
    · simp
    · rfl
  · rfl

@[simp] theorem wakeFailed_regs (d : Nat) (s : State) : (wakeFailed d s).kept.setup.regs = s.kept.setup.regs := by
  simp [wakeFailed]

/-! Writes of the window. -/

theorem reg_of_kept {s t : State} (h : t.kept = s.kept) (r : Nat) : reg t r = reg s r := reg_of_regs (regs_of_kept h) r

theorem reg_of_setup {s t : State} (h : t.kept.setup.regs = s.kept.setup.regs) {r : Nat} : reg t r = reg s r := reg_of_regs h r

section Window
variable {off r : Nat}

theorem reg_windowWrite_ne (h : r ≠ off) (width : Nat) (v : Word) {act : State → State} (hact : ∀ x, reg (act x) r = reg x r)
    (s : State) : reg (windowWrite off width v act s) r = reg s r := by
  unfold windowWrite
  split
  · rfl
  · split
    · rfl
    · exact (hact _).trans (reg_storeFields_ne h v s)

theorem reg_windowWrite_kept (h : r ≠ off) (width : Nat) (v : Word) {act : State → State} (hact : ∀ x, (act x).kept = x.kept)
    (s : State) : reg (windowWrite off width v act s) r = reg s r :=
  reg_windowWrite_ne h width v (fun x => reg_of_kept (hact x) r) s

theorem reg_windowRead {f : State → State} (hf : ∀ x, reg (f x) r = reg x r) (s : State) :
    reg (windowRead f s) r = reg s r := by
  unfold windowRead
  split
  · exact hf s
  · rfl

end Window

/-! The windows that move an address on set its register, and on a write the data's. -/

theorem reg_indNext_ne {r : Nat} (h : r ≠ 0x30A00) (s : State) : reg (indNext s) r = reg s r := by
  unfold indNext
  exact reg_setReg_ne h _ s

theorem reg_routeNext_ne {r : Nat} (h : r ≠ 0x80200) (s : State) : reg (routeNext s) r = reg s r := by
  unfold routeNext
  exact reg_setReg_ne h _ s

theorem reg_indRead_ne {r : Nat} (h : r ≠ 0x30A00) (s : State) : reg (indRead s) r = reg s r := by
  unfold indRead
  rw [reg_indNext_ne h, reg_of_regs (State.modHif_regs _ _)]

theorem reg_routeRead_ne {r : Nat} (h : r ≠ 0x80200) (s : State) : reg (routeRead s) r = reg s r := by
  unfold routeRead
  rw [reg_routeNext_ne h, reg_of_regs (State.modHif_regs _ _)]

theorem reg_indWrite_ne {r : Nat} (haddr : r ≠ 0x30A00) (hdata : r ≠ 0x30A04) (v : Word) (s : State) :
    reg (indWrite v s) r = reg s r := by
  unfold indWrite
  refine reg_windowWrite_ne hdata 4 v (fun x => ?_) s
  rw [reg_indNext_ne haddr, reg_of_regs (State.modCls_regs _ _), reg_setReg_ne hdata]

theorem reg_routeWrite_ne {r : Nat} (haddr : r ≠ 0x80200) (hdata : r ≠ 0x80204) (width : Nat) (v : Word) (s : State) :
    reg (routeWrite width v s) r = reg s r := by
  unfold routeWrite
  refine reg_windowWrite_ne hdata width v (fun x => ?_) s
  rw [reg_routeNext_ne haddr, reg_of_regs (State.modCls_regs _ _), reg_of_regs (State.modLnk_regs _ _), reg_setReg_ne hdata]

theorem reg_repairRead_ne {r : Nat} (h : r ≠ 0x60030) (s : State) : reg (repairRead s) r = reg s r := by
  unfold repairRead
  rw [reg_setReg_ne h, reg_of_regs (State.modHif_regs _ _)]

/-! The write of a register at any offset, and what a reset or the time base does in the running phase. -/

theorem reg_ite_eq {c : Prop} [Decidable c] {a b : State} {r : Nat} {x : Word} (ha : c → reg a r = x) (hb : ¬c → reg b r = x) :
    reg (if c then a else b) r = x := by
  split
  · exact ha ‹_›
  · exact hb ‹_›

theorem reg_startWarm (cause : Nat) (s : State) (r : Nat) : reg (startWarm cause s) r = reg s r :=
  (reg_of_kept (startWarm_kept cause s) r).trans rfl

theorem reg_keyed (right : Prop) [Decidable right] (s : State) (r : Nat) :
    reg ((if right then startWarm 2 else refuseWrite 0x80 4) s) r = reg s r := by
  rw [ite_apply]
  exact reg_ite_eq (fun _ => reg_startWarm 2 s r) fun _ => reg_of_kept (refuseWrite_kept _ _ s) r

theorem reg_resetKeyWrite (v : Word) (s : State) (r : Nat) :
    reg (whenRunning (onBit v 0 (if bitsOf v 16 16 = 0xA5C3 then startWarm 2 else refuseWrite 0x80 4)) s) r = reg s r :=
  whenRunning_keeps (reg · r) fun _ => onBit_keeps (reg · r) v 0 (reg_keyed _ s r)

theorem reg_timeStep (a : Adm) {s : State} (hs : s.phase = .running) (r : Nat) : reg (timeStep a s) r = reg s r := by
  cases h : s.tim.stepped with
  | true =>
    rw [timeStep_again h]
    exact reg_of_kept (admDone_kept _ _ _ _ _) r
  | false =>
    calc reg (timeStep a s) r = reg ((tick s).modTim (stepTime a.ws)) r := reg_of_kept (timeStep_kept h a) r
      _ = reg (tick s) r := reg_of_regs (State.modTim_regs _ _) r
      _ = reg s r := (reg_of_kept (tick_kept hs) r).trans rfl

theorem reg_timeRate (a : Adm) (s : State) (r : Nat) : reg (timeRate a s) r = reg s r :=
  (reg_of_kept (admDone_kept _ _ _ _ _) r).trans (reg_of_regs (State.modTim_regs _ _) r)

/-- A write at one offset leaves every other register, but for the two addresses that a data write moves on. -/
theorem reg_registerWrite_ne {off r : Nat} (hoff : r ≠ off) (hind : r ≠ 0x30A00) (hroute : r ≠ 0x80200) (width : Nat)
    (v : Word) (s : State) : reg (registerWrite off width v s) r = reg s r := by
  unfold registerWrite caddieEnable recSelect seedWrite laneCtrlWrite pwrCtrlWrite capWrite bwCtrlWrite
  refine reg_ite_eq (fun _ => ?notWord) fun _ => reg_ite_eq (fun _ => reg_resetKeyWrite v s r) fun _ =>
    reg_ite_eq (fun h => ?caddie) fun _ => reg_ite_eq (fun h => ?ind) fun _ => reg_ite_eq (fun h => ?rec) fun _ =>
    reg_ite_eq (fun h => ?route) fun _ => reg_ite_eq (fun h => ?seed) fun _ => reg_ite_eq (fun h => ?lane) fun _ =>
    reg_ite_eq (fun h => ?power) fun _ => reg_ite_eq (fun _ => ?cap) fun _ => reg_ite_eq (fun h => ?window) fun _ =>
    reg_ite_eq (fun _ => rfl) fun _ => ?plain
  case notWord => exact reg_windowWrite_kept hoff width v (fun _ => rfl) s
  case ind =>
    rw [h] at hoff
    exact reg_indWrite_ne hind hoff v s
  case route =>
    rw [h] at hoff
    exact reg_routeWrite_ne hroute hoff width v s
  case caddie | rec | seed | lane | power | window =>
    rw [h] at hoff
    exact reg_windowWrite_kept hoff _ v (fun x => by simp) s
  case cap | plain => exact reg_windowWrite_kept hoff width v (fun x => by simp) s

/-! A port's `MAX_FRAME`: locked while the port is up, and refused outside its range (R101, R336, R337). -/

/-- The row of the ports' `MAX_FRAME` (R340). -/
def maxFrameRow : RRow := { base := 0x10010, s1 := 0x400, n1 := 64, fields := [fRWL 0 14 1518], lock := .port, check := .maxFrame }

theorem rowOf_maxFrame : ∀ p : Fin 64, rowOf (0x10010 + p * 0x400) = some maxFrameRow := by decide

theorem plainOffset_maxFrame (p : Fin 64) : PlainOffset (0x10010 + p * 0x400) := by
  refine ⟨by omega, ?_, decide_eq_false (by omega)⟩
  simp only [List.mem_cons, List.not_mem_nil, or_false]
  omega

theorem enabled_of_portUp {P : Port} (h : portUp P = true) : P.reset = none ∧ P.enabled = true := by
  cases hreset : P.reset with
  | some r => simp [portUp, portState, hreset] at h
  | none =>
    cases hen : P.enabled with
    | true => exact ⟨rfl, rfl⟩
    | false => cases harmed : P.armed <;> simp [portUp, portState, hreset, hen, harmed] at h

section MaxFrame
variable {s : State} {p : Fin 64}

theorem refusal_maxFrame (v : Word) : refusal s (0x10010 + p * 0x400) 4 v =
    if (getPort s p).reset = none ∧ ((getPort s p).enabled = true ∨ (getPort s p).armed.isSome = true) then some 0
    else if bitsOf v 0 14 < 1518 ∨ 16128 < bitsOf v 0 14 then some 3 else none := by
  have hword : ¬ (4 ≠ 4 ∨ (0x10010 + (p : Nat) * 0x400) % 4 ≠ 0) := by omega
  have hport : (0x10010 + (p : Nat) * 0x400 - 0x10000) / 0x400 = p := by omega
  rw [refusal, if_neg hword, rowOf_maxFrame]
  simp [maxFrameRow, locked, sameLocked, valueOk, inUse, hport, fRWL]

theorem refusal_maxFrame_up (hup : portUp (getPort s p) = true) (v : Word) : refusal s (0x10010 + p * 0x400) 4 v = some 0 := by
  obtain ⟨hreset, hen⟩ := enabled_of_portUp hup
  rw [refusal_maxFrame, if_pos ⟨hreset, .inl hen⟩]

theorem refusal_maxFrame_range {v : Word} (hv : bitsOf v 0 14 < 1518 ∨ 16128 < bitsOf v 0 14) :
    ∃ cause, refusal s (0x10010 + p * 0x400) 4 v = some cause := by
  rw [refusal_maxFrame, if_pos hv]
  split
  · exact ⟨0, rfl⟩
  · exact ⟨3, rfl⟩

theorem registerWrite_maxFrame_refused (hs : s.phase = .running) {v : Word} {cause : Nat}
    (h : refusal s (0x10010 + p * 0x400) 4 v = some cause) :
    registerWrite (0x10010 + p * 0x400) 4 v s = refuseWrite (0x10010 + p * 0x400) cause s := by
  rw [registerWrite_of_plain (plainOffset_maxFrame p), windowWrite_of_refused hs h]

section Up
variable (hs : s.phase = .running) (hup : portUp (getPort s p) = true)
include hs hup

theorem maxFrame_registerWrite (off width : Nat) (v : Word) :
    reg (registerWrite off width v s) (0x10010 + p * 0x400) = reg s (0x10010 + p * 0x400) := by
  by_cases hoff : 0x10010 + (p : Nat) * 0x400 = off
  · subst hoff
    by_cases hw : width = 4
    · subst hw
      rw [registerWrite_maxFrame_refused hs (refusal_maxFrame_up hup v)]
      exact reg_of_kept (refuseWrite_kept _ _ s) _
    · rw [registerWrite_of_not_word (.inl hw), windowWrite_of_refused hs (refusal_of_not_word (.inl hw) s v)]
      exact reg_of_kept (refuseWrite_kept _ _ s) _
  · exact reg_registerWrite_ne hoff (by omega) (by omega) width v s

/-- While its port is up, no command but a cold reset moves a `MAX_FRAME`: those that write the window write another register or
are refused (`maxFrame_registerWrite`), and the resets wait for their phase. -/
theorem exec_keeps_maxFrame {c : Instr} (hcold : ∀ short, c ≠ .coldReset short) :
    ∃ t, exec c s = .next t ∧ reg t (0x10010 + p * 0x400) = reg s (0x10010 + p * 0x400) := by
  have hwrite := maxFrame_registerWrite hs hup
  cases c with
  | coldReset short => exact absurd rfl (hcold short)
  | coldResetRelease => exact ⟨_, rfl, reg_ite_eq (fun _ => rfl) fun _ => rfl⟩
  | resetInitialisationDone => exact ⟨_, rfl, by simp [initDone, hs]⟩
  | warmResetByPin => exact ⟨_, rfl, whenRunning_keeps (reg · _) fun _ => reg_startWarm 1 s _⟩
  | warmReset key => exact ⟨_, rfl, whenRunning_keeps (reg · _) fun _ => reg_keyed (key = 0xA5C3) s _⟩
  | quiesceEnd bound => exact ⟨_, rfl, by rw [quiesceEnd_waits (.inl (by simp [hs]))]⟩
  | blockSupplyOff => exact ⟨_, rfl, rfl⟩
  | timeStep q idx =>
    exact ⟨_, rfl, whenRunning_keeps (reg · _) fun _ => atTurn_keeps (reg · _) q idx 0x60 fun a => reg_timeStep a hs _⟩
  | timeRate q idx =>
    exact ⟨_, rfl, whenRunning_keeps (reg · _) fun _ => atTurn_keeps (reg · _) q idx 0x61 fun a => reg_timeRate a s _⟩
  | registerWrite a width v =>
    obtain ⟨off, lost⟩ := a
    cases lost with
    | true => exact ⟨_, exec_registerWrite_lost off width v s, reg_of_kept (by simp) _⟩
    | false => exact ⟨_, exec_registerWrite off width v s, hwrite off.toNat width v⟩
  | caddieEnable v => exact ⟨_, rfl, hwrite 0x60000 4 v⟩
  | indDataWrite v => exact ⟨_, rfl, hwrite 0x30A04 4 v⟩
  | recSelWrite v => exact ⟨_, rfl, hwrite 0x50010 4 v⟩
  | routeDataWrite v => exact ⟨_, rfl, hwrite 0x80204 4 v⟩
  | markSeedWrite v => exact ⟨_, rfl, hwrite 0xB0004 4 v⟩
  | laneEnable l => exact ⟨_, rfl, hwrite 0x80004 4 (withBit (reg s 0x80004) l true)⟩
  | laneDisable l => exact ⟨_, rfl, hwrite 0x80004 4 (withBit (reg s 0x80004) l false)⟩
  | powerEnable v => exact ⟨_, rfl, hwrite 0x90000 4 v⟩
  | bwWindowChange v => exact ⟨_, rfl, hwrite 0xB0030 4 v⟩
  | powerCapWrite off v =>
    refine ⟨_, rfl, reg_ite_eq (fun hcap => ?_) fun _ => rfl⟩
    have hrange : off.toNat = 0x90010 ∨ (0x90100 ≤ off.toNat ∧ off.toNat < 0x90200) := of_decide_eq_true hcap
    exact reg_windowWrite_kept (by omega) 4 v (fun x => by simp) s
  | aq0Enable | tsqEnable | traceRingEnable | timNowSnap | refusedWriteClear | cancelIn =>
    exact ⟨_, rfl, reg_windowWrite_kept (by omega) 4 _ (fun x => by simp) s⟩
  | indDataRead => exact ⟨_, rfl, reg_windowRead (fun x => reg_indRead_ne (by omega) x) s⟩
  | routeDataRead => exact ⟨_, rfl, reg_windowRead (fun x => reg_routeRead_ne (by omega) x) s⟩
  | repairDataRead => exact ⟨_, rfl, reg_windowRead (fun x => reg_repairRead_ne (by omega) x) s⟩
  | seqTagRetry _ ws => cases ws <;> exact ⟨_, rfl, reg_of_setup (by simp)⟩
  | migrationDrainEnd _ list => cases list <;> exact ⟨_, rfl, reg_of_setup (by simp)⟩
  | protectionEnd flow =>
    refine ⟨_, rfl, ?_⟩
    split
    · exact reg_of_setup (by simp)
    · rfl
  | commitCopyDone => exact ⟨_, rfl, whenRunning_keeps (reg · _) fun _ => rfl⟩
  | portFlushAck | cycleStart => exact ⟨_, rfl, reg_of_setup (by simp [ite_apply])⟩
  | capReceived | snapReceived => exact ⟨_, rfl, reg_of_setup (whenRunning_regs _ s fun x => by simp)⟩
  -- Every other arm is one operation under its guard, which leaves all of `Kept` or has its `_regs` lemma.
  | _ => exact ⟨_, rfl, reg_of_setup (by simp)⟩

end Up
end MaxFrame

end Sys2Proof.Machine

namespace Sys2Proof.Proofs

open Sys2Proof.Machine

/-- Settles O15: a value out of range is refused with cause 0 or 3 (`refusal_maxFrame_range`), and on a port that is up
every command leaves the register (`exec_keeps_maxFrame`). -/
theorem maxFrame : Obligations.MaxFrame := by
  refine ⟨?range, ?up⟩
  case range =>
    intro s p v hs hv
    obtain ⟨cause, hcause⟩ := refusal_maxFrame_range (s := s) (p := p) hv
    have hoff : (BitVec.ofNat 20 (0x10010 + p * 0x400)).toNat = 0x10010 + p * 0x400 := Nat.mod_eq_of_lt (by omega)
    have hword : (0x10010 + (p : Nat) * 0x400) / 4 * 4 = 0x10010 + p * 0x400 := by omega
    refine ⟨(refuseWrite (0x10010 + p * 0x400) cause s).hif.refused, ?_, hword, rfl⟩
    rw [exec_registerWrite, hoff, registerWrite_maxFrame_refused hs hcause]
    rfl
  case up =>
    intro c s t p hs hup ht hcold
    obtain ⟨u, hu, hreg⟩ := exec_keeps_maxFrame hs hup hcold
    cases hu.symm.trans ht
    rw [hreg]

end Sys2Proof.Proofs
end

section
/-! A counter's two words (R116): the read of the low one and the latch that the high one reads. -/

namespace Sys2Proof.Machine

theorem exec_statCounterLowRead (off : BitVec 20) (s : State) :
    exec (.statCounterLowRead off) s = .next (windowRead (ctrLowRead off.toNat) s) := rfl

theorem ctrLowRead_of_not_low {off : Nat} (h : isCtr off = false ∨ off % 8 ≠ 0) (s : State) : ctrLowRead off s = s :=
  if_neg (by simpa [imp_iff_not_or] using h)

theorem readWord_of_isCtr {s : State} (hs : s.phase = .running) {off : Nat} (hctr : isCtr off = true) (hword : off % 4 = 0) :
    readWord s off = ctrWord s off := by
  have hoff : off / 4 * 4 = off := by omega
  simp [readWord, hoff, (running_iff s).2 hs, hctr]

section Low
variable {off : Nat} (hctr : isCtr off = true) (hlow : off % 8 = 0)
include hctr hlow

theorem ctrLowRead_low (s : State) : ctrLowRead off s =
    { s with latches := tset s.latches 0 off (ctrHigh (getCtr s off)),
             hif := { s.hif with readData := ctrLow (getCtr s off) } } :=
  if_pos (by simp [hctr, hlow])

/-- The counter groups begin on a counter, so the high word lies in the group of the low one. -/
theorem isCtr_high : isCtr (off + 4) = true := by
  have haligned : ∀ g ∈ ctrGroups, g.1 % 8 = 0 := by decide
  obtain ⟨g, hg, hin⟩ := List.any_eq_true.1 hctr
  have hbase := haligned g hg
  obtain ⟨hlo, hhi⟩ := of_decide_eq_true hin
  exact List.any_eq_true.2 ⟨g, hg, decide_eq_true (by omega)⟩

theorem readWord_ctrLow {s : State} (hs : s.phase = .running) : readWord s off = ctrLow (getCtr s off) := by
  have hoff : off / 8 * 8 = off := by omega
  rw [readWord_of_isCtr hs hctr (by omega), ctrWord, if_pos (by omega), hoff]

theorem readWord_ctrHigh {s : State} (hs : s.phase = .running) : readWord s (off + 4) = (tget s.latches off 0).setWidth 32 := by
  have hoff : (off + 4) / 8 * 8 = off := by omega
  rw [readWord_of_isCtr hs (isCtr_high hctr hlow) (by omega), ctrWord, if_neg (by omega), hoff]

end Low

end Sys2Proof.Machine

namespace Sys2Proof.Proofs

open Sys2Proof.Machine

/-- Settles O17: the read of a low word latches the high bits (`ctrLowRead_low`), and the high word reads the latch
(`readWord_ctrHigh`), which a count leaves. -/
theorem counterRead : Obligations.CounterRead := by
  refine ⟨?low, ?other, ?inReset⟩
  case low =>
    rintro s t off hs hctr hlow rfl
    refine ⟨?_, readWord_ctrLow hctr hlow hs, fun n => ?_⟩
    · rw [exec_statCounterLowRead, windowRead_of_running hs, ctrLowRead_low hctr hlow]
    · rw [readWord_ctrHigh hctr hlow (by exact hs), addCtr_latches, tget_tset_same]
  case other =>
    intro s off hs hnot
    rw [exec_statCounterLowRead, windowRead_of_running hs, ctrLowRead_of_not_low hnot]
  case inReset =>
    intro s off hs
    rw [exec_statCounterLowRead, windowRead_of_not_running hs]

end Sys2Proof.Proofs
end

section
/-! The windows whose accesses move their address on (R135, R139, R186, R209, R245, R259): what a write of each stores or is refused
for, and where the address stands after an access. -/

namespace Sys2Proof.Machine

/-! Rows of the map that nothing locks: only the value can refuse a write, and the one field at the bottom keeps its bits. -/

theorem refusal_of_unlocked {off : Nat} {r : RRow} (hword : off % 4 = 0) (hrow : rowOf off = some r) (hlock : r.lock = .never)
    (hfree : ∀ s, inUse s off r.check = false) (s : State) (v : Word) :
    refusal s off 4 v = if valueOk off r.check v then none else some 3 := by
  have hlocked : locked s r.lock off = false := by rw [hlock]; rfl
  rw [refusal, if_neg (by omega), hrow]
  cases hv : valueOk off r.check v with
  | true => simp [hlocked, hv, hfree s]
  | false => simp [hlocked, hv]

theorem refusal_of_unchecked {off : Nat} {r : RRow} (hword : off % 4 = 0) (hrow : rowOf off = some r) (hlock : r.lock = .never)
    (hany : r.check = .any) (s : State) (v : Word) : refusal s off 4 v = none := by
  have hok : valueOk off r.check v = true := by rw [hany]; exact decide_eq_true rfl
  rw [refusal_of_unlocked hword hrow hlock (fun _ => by rw [hany]; rfl), if_pos hok]

theorem keep_of_single {r : RRow} {n : Nat} (h : r.fields = [fRW 0 n]) (v : Word) : r.keep v = bitsOf v 0 n := by
  simp [RRow.keep, h, fRW, RField.stored]

theorem storeFields_cls (off : Nat) (v : Word) (s : State) : (storeFields off v s).cls = s.cls := by
  unfold storeFields
  split
  · rfl
  · rfl

theorem storeFields_lnk (off : Nat) (v : Word) (s : State) : (storeFields off v s).lnk = s.lnk := by
  unfold storeFields
  split
  · rfl
  · rfl

/-! The address after an access: the next one, around the end of the table. -/

theorem reg_setReg_mod {n : Nat} (hn : 0 < n) (hfits : n ≤ 4294967296) (off a : Nat) (s : State) :
    (reg (setReg off (wordOf (a % n)) s) off).toNat % n = a % n := by
  have hlt : a % n < n := Nat.mod_lt a hn
  rw [reg_setReg, wordOf, BitVec.toNat_ofNat, Nat.mod_eq_of_lt (by omega : a % n < 2 ^ 32), Nat.mod_mod]

theorem indAddr_moved (a : Nat) (s : State) : indAddr (setReg 0x30A00 (wordOf (a % 32768)) s) = a % 32768 :=
  reg_setReg_mod (by decide) (by decide) _ a s

theorem routeAddr_moved (a : Nat) (s : State) : routeAddr (setReg 0x80200 (wordOf (a % 16384)) s) = a % 16384 :=
  reg_setReg_mod (by decide) (by decide) _ a s

theorem repairAddr_moved (a : Nat) (s : State) : repairAddr (setReg 0x60030 (wordOf (a % 16384)) s) = a % 16384 :=
  reg_setReg_mod (by decide) (by decide) _ a s

theorem indAddr_of_regs {s t : State} (h : t.regs = s.regs) : indAddr t = indAddr s := by simp only [indAddr, reg_of_regs h]

theorem routeAddr_of_regs {s t : State} (h : t.regs = s.regs) : routeAddr t = routeAddr s := by
  simp only [routeAddr, reg_of_regs h]

theorem indRead_eq (s : State) : indRead s = setReg 0x30A00 (wordOf ((indAddr s + 1) % 32768))
    { s with hif := { s.hif with readData := tget s.cls.ind (indAddr s) 0 } } := by
  rw [indRead, indNext, indAddr_of_regs (State.modHif_regs _ _), State.modHif]

theorem routeRead_eq (s : State) : routeRead s = setReg 0x80200 (wordOf ((routeAddr s + 1) % 16384))
    { s with hif := { s.hif with readData := routeOf s (routeAddr s) } } := by
  rw [routeRead, routeNext, routeAddr_of_regs (State.modHif_regs _ _), State.modHif]

theorem repairRead_eq (s : State) : repairRead s = setReg 0x60030 (wordOf ((repairAddr s + 1) % 16384))
    { s with hif := { s.hif with readData := repairWord s (repairAddr s) } } := by
  rw [repairRead, State.modHif]

/-! What a read of a window leaves: the word shown, the address moved on, and the rest as it was. -/

section Shown
variable (off : Nat) (a w : Word) (s : State)

theorem readData_shown : (setReg off a { s with hif := { s.hif with readData := w } }).hif.readData = w := rfl
theorem cls_shown : (setReg off a { s with hif := { s.hif with readData := w } }).cls = s.cls := rfl
theorem lnk_shown : (setReg off a { s with hif := { s.hif with readData := w } }).lnk = s.lnk := rfl
theorem pgr_shown : (setReg off a { s with hif := { s.hif with readData := w } }).pgr = s.pgr := rfl

theorem reg_shown_ne {off r : Nat} (h : r ≠ off) :
    reg (setReg off a { s with hif := { s.hif with readData := w } }) r = reg s r :=
  (reg_setReg_ne h a _).trans (reg_of_regs rfl r)

end Shown

/-! The rows of the written words, and which values a write of each refuses (R337). -/

/-- The row of `CLS_IND_DATA`. -/
def indDataRow : RRow := { base := 0x30A04, fields := [fRW 0 10, fRW 31 1] }

theorem rowOf_indData : rowOf 0x30A04 = some indDataRow := by decide

theorem refusal_indData (s : State) (v : Word) : refusal s 0x30A04 4 v = none :=
  refusal_of_unchecked (by decide) rowOf_indData rfl rfl s v

/-- The row of `RNG_REC_SEL`. -/
def recSelRow : RRow := { base := 0x50010, fields := [fRW 0 15] }

theorem rowOf_recSel : rowOf 0x50010 = some recSelRow := by decide

theorem refusal_recSel (s : State) (v : Word) : refusal s 0x50010 4 v = none :=
  refusal_of_unchecked (by decide) rowOf_recSel rfl rfl s v

theorem storeFields_recSel (v : Word) (s : State) : storeFields 0x50010 v s = setReg 0x50010 (wordOf (bitsOf v 0 15)) s := by
  rw [storeFields_of_row rowOf_recSel, keep_of_single rfl]

/-- The row of `LNK_ROUTE_DATA`. -/
def routeDataRow : RRow := { base := 0x80204, fields := [fRW 0 32], check := .routeData }

theorem rowOf_routeData : rowOf 0x80204 = some routeDataRow := by decide

/-- A route's default port, bits [5:4], is one of its mask, bits [3:0] (R245). -/
theorem refusal_routeData (s : State) (v : Word) :
    refusal s 0x80204 4 v = if bitOf v (bitsOf v 4 2) then none else some 3 :=
  refusal_of_unlocked (by decide) rowOf_routeData rfl (fun _ => rfl) s v

theorem reg_setRng (s : State) (g : Rng) (off : Nat) : reg { s with rng := g } off = reg s off := rfl

theorem reg_setReg_storeFields_ne {off r : Nat} (h : r ≠ off) (x v : Word) (s : State) :
    reg (setReg off x (storeFields off v s)) r = reg s r :=
  (reg_setReg_ne h x _).trans (reg_storeFields_ne h v s)

/-! A write that is not refused: the word's place holds 0, and the entry and the address are those of the state before it. -/

/-- The classifier after a written entry. -/
theorem cls_indWritten (a : Word) (i : Nat) (e : Word) (v : Word) (s : State) :
    (setReg 0x30A00 a ((setReg 0x30A04 0 (storeFields 0x30A04 v s)).modCls fun c =>
      unflag 9 (16 + i) 1 { c with ind := tset c.ind 0 i e })).cls =
    unflag 9 (16 + i) 1 { s.cls with ind := tset s.cls.ind 0 i e } := by
  rw [setReg_cls, State.modCls_cls, setReg_cls, storeFields_cls]

theorem unflag_ind (store lo n : Nat) (c : Cls) : (unflag store lo n c).ind = c.ind := rfl
theorem unflag_em (store lo n : Nat) (c : Cls) : (unflag store lo n c).em = c.em := rfl

section Running
variable {s : State} (hs : s.phase = .running) (v : Word)
include hs

theorem indWrite_of_running : indWrite v s = setReg 0x30A00 (wordOf ((indAddr s + 1) % 32768))
    ((setReg 0x30A04 0 (storeFields 0x30A04 v s)).modCls fun c => unflag 9 (16 + indAddr s) 1
      { c with ind := tset c.ind 0 (indAddr s) (wordOf (bitsOf v 0 10 + ofBit (bitOf v 31) * 2147483648)) }) := by
  have hstored : indAddr (storeFields 0x30A04 v s) = indAddr s := by
    rw [indAddr, reg_storeFields_ne (by decide), indAddr]
  have hlater (f : Cls → Cls) : indAddr ((setReg 0x30A04 0 (storeFields 0x30A04 v s)).modCls f) = indAddr s := by
    rw [indAddr, reg_of_regs (State.modCls_regs _ _), reg_setReg_storeFields_ne (by decide), indAddr]
  rw [indWrite, windowWrite_of_allowed hs (refusal_indData s v)]
  simp only [hstored, indNext, hlater]

theorem recSelect_of_running : recSelect v s = { setReg 0x50010 (wordOf (bitsOf v 0 15)) s with
    rng := { s.rng with recData := rangeWords (getRec s (bitsOf v 0 15)) } } := by
  rw [recSelect, windowWrite_of_allowed hs (refusal_recSel s v), storeFields_recSel]
  rfl

theorem routeWrite_of_masked (hport : bitOf v (bitsOf v 4 2) = true) : routeWrite 4 v s =
    setReg 0x80200 (wordOf ((routeAddr s + 1) % 16384)) { setReg 0x80204 0 (storeFields 0x80204 v s) with
      lnk := { s.lnk with routes := tset s.lnk.routes 0 (routeAddr s) (routeKeep v) }, cls := unflag 12 (routeAddr s) 1 s.cls } := by
  have hstored : routeAddr (storeFields 0x80204 v s) = routeAddr s := by
    rw [routeAddr, reg_storeFields_ne (by decide), routeAddr]
  have hlater (f : Lnk → Lnk) (g : Cls → Cls) :
      routeAddr (((setReg 0x80204 0 (storeFields 0x80204 v s)).modLnk f).modCls g) = routeAddr s := by
    rw [routeAddr, reg_of_regs (State.modCls_regs _ _), reg_of_regs (State.modLnk_regs _ _),
      reg_setReg_storeFields_ne (by decide), routeAddr]
  have hnone : refusal s 0x80204 4 v = none := (refusal_routeData s v).trans (if_pos hport)
  rw [routeWrite, windowWrite_of_allowed hs hnone]
  simp only [hstored, routeNext, hlater]
  simp only [State.modLnk, State.modCls, setReg_lnk, setReg_cls, storeFields_lnk, storeFields_cls]

theorem routeWrite_of_unmasked (hport : bitOf v (bitsOf v 4 2) = false) : routeWrite 4 v s = refuseWrite 0x80204 3 s :=
  windowWrite_of_refused hs ((refusal_routeData s v).trans (if_neg (by simp [hport]))) _

end Running

/-! The commands of the windows. -/

theorem exec_indDataRead (s : State) : exec .indDataRead s = .next (windowRead indRead s) := rfl
theorem exec_indDataWrite (v : Word) (s : State) : exec (.indDataWrite v) s = .next (indWrite v s) := rfl
theorem exec_recSelWrite (v : Word) (s : State) : exec (.recSelWrite v) s = .next (recSelect v s) := rfl
theorem exec_routeDataRead (s : State) : exec .routeDataRead s = .next (windowRead routeRead s) := rfl
theorem exec_routeDataWrite (v : Word) (s : State) : exec (.routeDataWrite v) s = .next (routeWrite 4 v s) := rfl
theorem exec_repairDataRead (s : State) : exec .repairDataRead s = .next (windowRead repairRead s) := rfl

end Sys2Proof.Machine

namespace Sys2Proof.Proofs

open Sys2Proof.Machine

/-- Settles O18: in the running phase a read of a window is its own operation, and a write stores its word unless its value is
refused (`indWrite_of_running`, `recSelect_of_running`, `routeWrite_of_masked`, `routeWrite_of_unmasked`); the address then
stands one further (`reg_setReg_mod`), and in any other phase the window answers for all six alike. -/
theorem addressedWindows : Obligations.AddressedWindows := by
  refine ⟨?indRead, ?indWrite, ?recSel, ?routeRead, ?routeWrite, ?routeRefused, ?repairRead, ?inReset⟩
  case indRead =>
    rintro s t hs rfl
    refine ⟨?_, indAddr_moved _ _, cls_shown _ _ _ s, readData_shown _ _ _ s, fun _ h => reg_shown_ne _ _ s h⟩
    rw [exec_indDataRead, windowRead_of_running hs, indRead_eq]
  case indWrite =>
    rintro s u t v hs rfl rfl
    refine ⟨?_, ?_, fun i hi => ?_, indAddr_moved _ _, ?_, fun off haddr hdata => ?_⟩
    · rw [exec_indDataWrite, indWrite_of_running hs]
    · rw [cls_indWritten, unflag_ind, tget_tset_same]
    · rw [cls_indWritten, unflag_ind, tget_tset_ne hi]
    · rw [cls_indWritten, unflag_em]
    · rw [reg_setReg_ne haddr, reg_of_regs (State.modCls_regs _ _), reg_setReg_storeFields_ne hdata]
  case recSel =>
    rintro s t v hs rfl
    refine ⟨?_, (reg_setRng _ _ _).trans (reg_setReg _ _ s), fun off hoff => (reg_setRng _ _ off).trans (reg_setReg_ne hoff _ s)⟩
    rw [exec_recSelWrite, recSelect_of_running hs]
  case routeRead =>
    rintro s t hs rfl
    refine ⟨?_, routeAddr_moved _ _, lnk_shown _ _ _ s, readData_shown _ _ _ s, fun _ h => reg_shown_ne _ _ s h⟩
    rw [exec_routeDataRead, windowRead_of_running hs, routeRead_eq]
  case routeWrite =>
    rintro s u t v hs hport rfl rfl
    refine ⟨?_, tget_tset_same _ _ _ _, fun d hd => tget_tset_ne hd _ _ _, routeAddr_moved _ _, fun off haddr hdata => ?_⟩
    · rw [exec_routeDataWrite, routeWrite_of_masked hs v hport]
    · exact ((reg_setReg_ne haddr _ _).trans (reg_of_regs rfl off)).trans (reg_setReg_storeFields_ne hdata 0 v s)
  case routeRefused =>
    intro s v hs hport
    rw [exec_routeDataWrite, routeWrite_of_unmasked hs v hport]
  case repairRead =>
    rintro s t hs rfl
    refine ⟨?_, repairAddr_moved _ _, pgr_shown _ _ _ s, readData_shown _ _ _ s, fun _ h => reg_shown_ne _ _ s h⟩
    rw [exec_repairDataRead, windowRead_of_running hs, repairRead_eq]
  case inReset =>
    rintro s z v hs rfl
    rw [exec_indDataRead, exec_routeDataRead, exec_repairDataRead, exec_indDataWrite, exec_recSelWrite, exec_routeDataWrite,
      indWrite, recSelect, routeWrite]
    simp only [windowRead_of_not_running hs, windowWrite_of_not_running hs, and_self]

end Sys2Proof.Proofs
end

section
/-! The dispatcher (R121, R122, R136) and a frame that leaves its engine (R127–R129). -/

namespace Sys2Proof.Machine

theorem exec_frameDispatch (p : Fin 64) (up : Bool) (s : State) :
    exec (.frameDispatch p up) s = .next (whenRunning (dispatch p up) s) := rfl

theorem exec_classifyDone (p : Fin 64) (up : Bool) (s : State) :
    exec (.classifyDone p up) s = .next (whenRunning (classifyDone p up) s) := rfl

/-! Which frame enters an engine, and the cases in which none does. -/

section Dispatch
variable {s : State} {p : Nat}

theorem dispatch_of_shut (h : s.cls.hold.isSome = true ∨ 1280 ≤ engineUse s) (p : Nat) (up : Bool) : dispatch p up s = s :=
  if_pos (by simpa using h)

theorem dispatch_up_not_turn (hturn : rrNext s.cls.rrUs (usWaiting s) ≠ some p) : dispatch p true s = s := by
  simp [dispatch, hturn]

theorem dispatch_down_not_turn (hturn : rrNext s.cls.rrDs (fun n => (dsWaitHead s n).isSome) ≠ some p) :
    dispatch p false s = s := by
  simp [dispatch, hturn]

section Open
variable (hhold : s.cls.hold = none) (huse : engineUse s < 1280)
include hhold huse

theorem dispatch_up_enters {u : Us} (hturn : rrNext s.cls.rrUs (usWaiting s) = some p)
    (hfirst : s.tpt.us.find? (fun u => u.port = p && u.stage = .dispatch) = some u) :
    dispatch p true s = modUs u.id (usLatch s) ((access 209 s).modCls fun c => { c with rrUs := (p + 1) % 64 }) := by
  simp [dispatch, hhold, Nat.not_le.2 huse, hturn, hfirst]

theorem dispatch_down_enters {t : Tx} (hnoUp : ∀ n < 64, usWaiting s n = false)
    (hturn : rrNext s.cls.rrDs (fun n => (dsWaitHead s n).isSome) = some p) (hfirst : dsWaitHead s p = some t) :
    dispatch p false s = modTx t.q t.idx (dsLatch s) ((access 209 s).modCls fun c => { c with rrDs := (p + 1) % 64 }) := by
  have hquiet : (List.range 64).any (usWaiting s) = false := by simpa using hnoUp
  simp [dispatch, hhold, Nat.not_le.2 huse, hquiet, hturn, hfirst]

end Open
end Dispatch

/-! The first frame of a port's direction leaves once it is in an engine, and keeps the later ones waiting until then. -/

section Classified
variable {s : State} {p : Nat}

theorem classifyDone_up {u : Us}
    (hfirst : s.tpt.us.find? (fun u => u.port = p && (u.stage = .dispatch || u.stage = .engine)) = some u) :
    classifyDone p true s = if u.stage = .engine then usClassified u s else s := by
  simp only [classifyDone, hfirst, if_true]

theorem classifyDone_down {q : Nat} {idx : Word} {t : Tx} (hfirst : (getPort s p).dsDisp.head? = some (q, idx))
    (ht : findTx s q idx = some t) : classifyDone p false s = if t.stage = .engine then dsClassified p t s else s := by
  simp only [classifyDone, hfirst, ht, Bool.false_eq_true, if_false]

end Classified

end Sys2Proof.Machine

namespace Sys2Proof.Proofs

open Sys2Proof.Machine

/-- Settles O25: the dispatcher's answer is decided by what shuts it (`dispatch_of_shut`), by whose turn it is
(`dispatch_up_not_turn`, `dispatch_down_not_turn`) and by the first waiting frame there (`dispatch_up_enters`,
`dispatch_down_enters`); the stage of the first frame of a port's direction decides whether it leaves (`classifyDone_up`,
`classifyDone_down`). -/
theorem dispatchAndClassify : Obligations.DispatchAndClassify := by
  refine ⟨?shut, ?up, ?down, ?upNotTurn, ?downNotTurn, ?upDone, ?downDone⟩
  case shut =>
    intro s p up _ h
    exact next_whenRunning_of_fixed (dispatch_of_shut h p up)
  case up =>
    intro s p u hs hhold huse hturn hfirst
    exact next_whenRunning hs (dispatch_up_enters hhold huse hturn hfirst)
  case down =>
    intro s p t hs hhold huse hnoUp hturn hfirst
    exact next_whenRunning hs (dispatch_down_enters hhold huse hnoUp hturn hfirst)
  case upNotTurn =>
    intro s p hturn
    exact next_whenRunning_of_fixed (dispatch_up_not_turn hturn)
  case downNotTurn =>
    intro s p hturn
    exact next_whenRunning_of_fixed (dispatch_down_not_turn hturn)
  case upDone =>
    intro s p u hs hfirst
    have hdone := classifyDone_up hfirst
    exact ⟨fun h => next_whenRunning hs (hdone.trans (if_pos h)), fun h => next_whenRunning hs (hdone.trans (if_neg h))⟩
  case downDone =>
    intro s p q idx t hs hfirst ht
    have hdone := classifyDone_down hfirst ht
    exact ⟨fun h => next_whenRunning hs (hdone.trans (if_pos h)), fun h => next_whenRunning hs (hdone.trans (if_neg h))⟩

end Sys2Proof.Proofs
end

section
/-! The service curve (R151): the line between two points, and what `curveAt` gives at and past the last point and below it. -/

namespace Sys2Proof.Machine

theorem risingPts_cons_cons (p q : Nat × Nat) (r : List (Nat × Nat)) :
    risingPts (p :: q :: r) = true ↔ (p.1 < q.1 ∧ p.2 ≤ q.2) ∧ risingPts (q :: r) = true := by
  simp [risingPts]

theorem risingPts_of_curveOk {ws : List Word} (h : curveOk ws = true) : risingPts (curvePts ws) = true :=
  (Bool.and_eq_true_iff.1 h).2

@[simp] theorem curveNew_pts (ws : List Word) (now : Nat) : (curveNew ws now).pts = curvePts ws := rfl

@[simp] theorem length_curvePts (ws : List Word) : (curvePts ws).length = 16 := by simp [curvePts]

/-- The bytes at a backlog of `b` on the line from `p` to `q`, cut down. -/
def lineAt (b : Nat) (p q : Nat × Nat) : Nat := p.2 + (q.2 - p.2) * (b - p.1) / (q.1 - p.1)

section Curve
variable {b : Nat}

theorem curveAt_cons_of_lt {q : Nat × Nat} (h : b < q.1) (p : Nat × Nat) (r : List (Nat × Nat)) :
    curveAt b p.1 p.2 (q :: r) = lineAt b p q := if_pos h

theorem curveAt_cons_of_le {q : Nat × Nat} (h : q.1 ≤ b) (p : Nat × Nat) (r : List (Nat × Nat)) :
    curveAt b p.1 p.2 (q :: r) = curveAt b q.1 q.2 r := if_neg h.not_gt

/-- Among rising points after `p` none lies past the last. -/
theorem le_last_of_risingPts {r : List (Nat × Nat)} (hrise : risingPts r = true) (p d : Nat × Nat) :
    ∀ q ∈ r, q.1 ≤ ((p :: r).getD r.length d).1 := by
  induction r generalizing p with
  | nil => simp
  | cons q r ih =>
    cases r with
    | nil => simp
    | cons q' r =>
      obtain ⟨⟨hlt, -⟩, hrise⟩ := (risingPts_cons_cons q q' r).1 hrise
      have hlast := ih hrise q
      rintro a (_ | ⟨_, ha⟩)
      · exact hlt.le.trans (hlast q' List.mem_cons_self)
      · exact hlast a ha

theorem curveAt_of_all_le {r : List (Nat × Nat)} (h : ∀ q ∈ r, q.1 ≤ b) (p d : Nat × Nat) :
    curveAt b p.1 p.2 r = ((p :: r).getD r.length d).2 := by
  induction r generalizing p with
  | nil => rfl
  | cons q r ih =>
    obtain ⟨hq, hr⟩ := List.forall_mem_cons.1 h
    exact (curveAt_cons_of_le hq p r).trans (ih hr q)

theorem curveAt_past {r : List (Nat × Nat)} (hrise : risingPts r = true) {p d : Nat × Nat}
    (h : ((p :: r).getD r.length d).1 ≤ b) : curveAt b p.1 p.2 r = ((p :: r).getD r.length d).2 :=
  curveAt_of_all_le (fun q hq => (le_last_of_risingPts hrise p d q hq).trans h) p d

/-- The first point past `b` and the point before it give the line. -/
theorem curveAt_between {r : List (Nat × Nat)} {p d : Nat × Nat} {i : Nat} (hi : i < r.length) (hlt : b < (r.getD i d).1)
    (hle : ∀ j < i, (r.getD j d).1 ≤ b) : curveAt b p.1 p.2 r = lineAt b ((p :: r).getD i d) (r.getD i d) := by
  induction r generalizing p i with
  | nil => simp at hi
  | cons q r ih =>
    cases i with
    | zero => exact curveAt_cons_of_lt hlt p r
    | succ i =>
      have hq : q.1 ≤ b := hle 0 i.succ_pos
      have hrest := ih (p := q) (Nat.lt_of_succ_lt_succ hi) hlt fun j hj => hle (j + 1) (Nat.succ_lt_succ hj)
      exact (curveAt_cons_of_le hq p r).trans hrest

end Curve

theorem effBacklog_saturated {a : AllocRec} (hsat : a.backlog = 0xFFFF) (hnone : a.granted = 0) :
    effBacklog a = 4194240 := by simp [effBacklog, hsat, hnone]

end Sys2Proof.Machine

namespace Sys2Proof.Proofs

open Sys2Proof.Machine

/-- Settles O40: past the last point the walk of `curveAt` ends with that point's bytes (`curveAt_past`, where the points' order puts
every other before it); below, it stops at the first point past the backlog (`curveAt_between`); the saturated backlog is
`effBacklog_saturated`. -/
theorem curveMapsBacklog : Obligations.CurveMapsBacklog := by
  refine ⟨fun ws b hok => ⟨fun hpast => ?past, fun i hpos hi hlt hle => ?between⟩, fun a => effBacklog_saturated⟩
  case past =>
    have hlast := curveAt_past (b := b) (p := (0, 0)) (d := (0, 0)) (risingPts_of_curveOk hok)
    rw [length_curvePts] at hlast
    exact hlast hpast
  case between =>
    obtain ⟨k, rfl⟩ := Nat.exists_eq_add_of_le' hpos
    exact curveAt_between (p := (0, 0)) (by simpa using hi) hlt fun j hj => hle (j + 1) (Nat.succ_lt_succ hj)

end Sys2Proof.Proofs
end

section
/-! Missed bursts, and the judgement of ranging slots and jump-ball windows (R169, R175, R178, R181). Where the manual leaves the reading
open, these are the model's: BURST_LOS only where `MISS` comes to equal `LOS_MISSES` (log 192), nothing more at fifteen misses and
RANGE_FAIL at each failure from `RANGE_TRIES` on (log 88), and a flagged record's burst unexpected even inside its slot (log 90). -/

namespace Sys2Proof.Machine

@[simp] theorem getRec_modRTree (t h : Nat) (f : RTree → RTree) (s : State) : getRec (modRTree t f s) h = getRec s h := rfl

@[simp] theorem getRec_addCtr (off n h : Nat) (s : State) : getRec (addCtr off n s) h = getRec s h := rfl

/-! Missed bursts (R169). -/

/-- A missed burst is expected no longer, and counted. -/
def expMissed (t : Nat) (x : Exp) (s : State) : State :=
  addCtr (rngCtr t 1) 1 (modRTree t (fun r => { r with exps := dropFirst (fun y => y = x) r.exps }) s)

@[simp] theorem getRec_expMissed (t h : Nat) (x : Exp) (s : State) : getRec (expMissed t x s) h = getRec s h := by
  simp [expMissed]

section Missed
variable {s : State} {t : Nat}

theorem burstMiss_idle (hnone : earliest (getRTree s t).exps = none) : burstMiss t s = s := by
  simp only [burstMiss, hnone]

variable {x : Exp} (hx : earliest (getRTree s t).exps = some x)
include hx

theorem burstMiss_uncounted (h : (getRec s (t * 512 + x.term)).flagged = true ∨ (getRec s (t * 512 + x.term)).miss = 15) :
    burstMiss t s = expMissed t x s := by
  have hstop : ((getRec (expMissed t x s) (t * 512 + x.term)).flagged ||
      decide ((getRec (expMissed t x s) (t * 512 + x.term)).miss = 15)) = true := by simpa using h
  simp only [burstMiss, hx]
  exact if_pos hstop

theorem burstMiss_counted (hwhole : (getRec s (t * 512 + x.term)).flagged = false)
    (hbelow : (getRec s (t * 512 + x.term)).miss < 15) :
    burstMiss t s =
      let h := t * 512 + x.term
      let u := modRec h (fun r => { r with miss := (getRec s h).miss + 1 }) (expMissed t x s)
      if (getRec s h).miss + 1 = losMisses s then
        blockInput h 0xA none (raise 0x513 (wordOf h) (wordOf ((getRec s h).miss + 1)) u)
      else u := by
  have hgo : ¬((getRec (expMissed t x s) (t * 512 + x.term)).flagged ||
      decide ((getRec (expMissed t x s) (t * 512 + x.term)).miss = 15)) = true := by simp [hwhole, hbelow.ne]
  simp only [burstMiss, hx]
  exact if_neg hgo

end Missed

/-! Ranging slots (R175). -/

/-- The first slot to be judged leaves the list, and its terminal may be offered another. -/
def slotTaken (t : Nat) (x : Slot) (rest : List Slot) (s : State) : State :=
  modRTree t (fun r => { r with slots := rest, placed := r.placed.filter fun k => k ≠ x.term }) s

@[simp] theorem getRec_slotTaken (t h : Nat) (x : Slot) (rest : List Slot) (s : State) :
    getRec (slotTaken t x rest s) h = getRec s h := rfl

theorem slotTaken_awaited {s : State} {h : Nat} (hwhole : (getRec s h).flagged = false) (hpend : (getRec s h).rangePend = true)
    (t : Nat) (x : Slot) (rest : List Slot) :
    ¬((getRec (slotTaken t x rest s) h).flagged || !(getRec (slotTaken t x rest s) h).rangePend) = true := by
  simp [hwhole, hpend]

section Judged
variable {s : State} {t : Nat}

theorem judgeSlot_idle (hnone : (getRTree s t).slots = []) : judgeSlot t s = s := by
  simp only [judgeSlot, hnone]

variable {x : Slot} {rest : List Slot} (hslots : (getRTree s t).slots = x :: rest)
include hslots

theorem judgeSlot_unawaited
    (h : (getRec s (t * 512 + x.term)).flagged = true ∨ (getRec s (t * 512 + x.term)).rangePend = false) :
    judgeSlot t s =
      let u := slotTaken t x rest s
      if x.burst.isSome = true then unexpected (homeOf u t) t x.term u else u := by
  have hstop : ((getRec (slotTaken t x rest s) (t * 512 + x.term)).flagged ||
      !(getRec (slotTaken t x rest s) (t * 512 + x.term)).rangePend) = true := by simpa using h
  simp only [judgeSlot, hslots]
  exact if_pos hstop

section Awaited
variable (hwhole : (getRec s (t * 512 + x.term)).flagged = false) (hpend : (getRec s (t * 512 + x.term)).rangePend = true)
include hwhole hpend

theorem judgeSlot_measured {at' : Int} {stamp : Word} {delim : BitVec 16} (hburst : x.burst = some (at', stamp, delim))
    (hclean : x.garbled = 0) (hlow : 0 ≤ at' - x.base - x.eqd) (hhigh : at' - x.base - x.eqd ≤ 16777215) :
    judgeSlot t s =
      blockInput (t * 512 + x.term) 8 (some { r := (at' - x.base - x.eqd).toNat, stamp := stamp, delim := delim })
        (slotTaken t x rest s) := by
  have hgood : x.garbled = 0 ∧ 0 ≤ at' - x.base - x.eqd ∧ at' - x.base - x.eqd ≤ 16777215 := ⟨hclean, hlow, hhigh⟩
  simp only [judgeSlot, hslots, hburst, if_pos hgood]
  exact if_neg (slotTaken_awaited hwhole hpend t x rest)

theorem judgeSlot_failed
    (hbad : x.burst = none ∨ x.garbled ≠ 0 ∨ ∀ at' stamp delim, x.burst = some (at', stamp, delim) →
      at' - x.base - x.eqd < 0 ∨ 16777215 < at' - x.base - x.eqd) :
    judgeSlot t s =
      let h := t * 512 + x.term
      let n := (getRec s h).tries + 1
      let v := addCtr (rngCtr t 5) 1 (modRec h (fun r => { r with tries := n % 8 }) (slotTaken t x rest s))
      if rangeTries s ≤ n then blockInput h 9 none (raise 0x512 (wordOf h) (wordOf n) v) else v := by
  cases hburst : x.burst with
  | none =>
    simp only [judgeSlot, hslots, hburst]
    exact if_neg (slotTaken_awaited hwhole hpend t x rest)
  | some b =>
    obtain ⟨at', stamp, delim⟩ := b
    have hno : ¬(x.garbled = 0 ∧ 0 ≤ at' - x.base - x.eqd ∧ at' - x.base - x.eqd ≤ 16777215) := by
      rintro ⟨hclean, hlow, hhigh⟩
      obtain hnone | hgarbled | hrange := hbad
      · simp [hburst] at hnone
      · exact hgarbled hclean
      · have := hrange at' stamp delim hburst
        omega
    simp only [judgeSlot, hslots, hburst, if_neg hno]
    exact if_neg (slotTaken_awaited hwhole hpend t x rest)

end Awaited

end Judged

/-! Jump-ball windows (R178). -/

section Window
variable {s : State} {t : Nat}

theorem judgeWindow_idle (hnone : (getRTree s t).wins = []) : judgeWindow t s = s := by
  simp only [judgeWindow, hnone]

variable {x : Slot} {rest : List Slot} (hwins : (getRTree s t).wins = x :: rest)
include hwins

theorem judgeWindow_clean (hclean : x.garbled = 0) :
    judgeWindow t s = addCtr (rngCtr t 6) 1 (modRTree t (fun r =>
      { r with wins := rest, be := if x.answers = 0 then (getRTree s t).be - 1 else (getRTree s t).be,
               lastAns := min 255 x.answers, lastCol := 0 }) s) := by
  simp [judgeWindow, hwins, hclean]

theorem judgeWindow_collided (hgarbled : 1 ≤ x.garbled) :
    judgeWindow t s =
      let be := min ((getRTree s t).be + 1) (beMax s t)
      raise 0x518 (wordOf (homeOf s t)) (wordOf (be + min 255 x.garbled * 16))
        (addCtr (rngCtr t 8) 1 (addCtr (rngCtr t 6) 1 (modRTree t (fun r =>
          { r with wins := rest, be := be, lastAns := min 255 x.answers, lastCol := min 255 x.garbled }) s))) := by
  simp only [judgeWindow, hwins, if_pos hgarbled]
  rfl

end Window

end Sys2Proof.Machine

namespace Sys2Proof.Proofs

open Sys2Proof.Machine

/-- Settles O42: the earliest burst expected is missed, and its terminal's record decides what that counts (`burstMiss_counted`,
`burstMiss_uncounted`); the first slot is judged by the record and by what came in it (`judgeSlot_measured`, `judgeSlot_failed`,
`judgeSlot_unawaited`), the first window by what fell in it (`judgeWindow_clean`, `judgeWindow_collided`). With none waiting each leaves
everything, in every phase. -/
theorem rangingJudgements : Obligations.RangingJudgements := by
  refine ⟨?missed, ?uncounted, ?slot, ?unawaited, ?idle, ?clean, ?collided⟩
  case missed =>
    rintro s t x h u hs hx rfl hwhole hbelow rfl
    have hmiss := burstMiss_counted hx hwhole hbelow
    exact ⟨fun hne => next_whenRunning hs (hmiss.trans (if_neg hne)), fun heq => next_whenRunning hs (hmiss.trans (if_pos heq))⟩
  case uncounted =>
    intro s t x hs hx h
    exact next_whenRunning hs (burstMiss_uncounted hx h)
  case slot =>
    rintro s t x rest h u hs hslots rfl hwhole hpend rfl
    refine ⟨fun at' stamp delim hburst hclean hlow hhigh => ?_, fun hbad => ?_⟩
    · exact next_whenRunning hs (judgeSlot_measured hslots hwhole hpend hburst hclean hlow hhigh)
    · have hfail := judgeSlot_failed hslots hwhole hpend hbad
      exact ⟨fun hfew => next_whenRunning hs (hfail.trans (if_neg hfew.not_ge)),
        fun hmany => next_whenRunning hs (hfail.trans (if_pos hmany))⟩
  case unawaited =>
    rintro s u t x rest hs hslots h rfl
    exact next_whenRunning hs (judgeSlot_unawaited hslots h)
  case idle =>
    intro s t
    exact ⟨fun h => next_whenRunning_of_fixed (burstMiss_idle h), fun h => next_whenRunning_of_fixed (judgeSlot_idle h),
      fun h => next_whenRunning_of_fixed (judgeWindow_idle h)⟩
  case clean =>
    intro s t x rest hs hwins hclean
    exact next_whenRunning hs (judgeWindow_clean hwins hclean)
  case collided =>
    rintro s t x rest be hs hwins hgarbled rfl
    exact next_whenRunning hs (judgeWindow_collided hwins hgarbled)

end Sys2Proof.Proofs
end

section
/-! Page-ins (R189, R195, R198–R202): their issue, the read and the decrypted page, and the retry of a failed page operation. -/

namespace Sys2Proof.Machine

/-! A flow's page operations. -/

theorem access_eq (d : Nat) (s : State) : access d s = { s with pwr := (access d s).pwr } := by
  unfold access
  split
  · rfl
  · rfl

theorem pgr_addOp (o : PageOp) (s : State) : (addOp o s).pgr = { s.pgr with ops := s.pgr.ops ++ [o] } := by
  rw [addOp, access_eq]
  rfl

theorem getSlot_addOp (o : PageOp) (s : State) (k : Nat) : getSlot (addOp o s) k = getSlot s k := by
  rw [getSlot, pgr_addOp]
  rfl

theorem getFlow_addOp (o : PageOp) (s : State) (k : Nat) : getFlow (addOp o s) k = getFlow s k := by
  rw [getFlow, pgr_addOp]
  rfl

theorem addOp_frame (o : PageOp) (s : State) :
    (addOp o s).regs = s.regs ∧ (addOp o s).hif = s.hif ∧ (addOp o s).tpt = s.tpt ∧ (addOp o s).fab = s.fab := by
  rw [addOp, access_eq]
  exact ⟨rfl, rfl, rfl, rfl⟩

/-! The issue of a page-in (R195, R196, R198, R199). -/

/-- The state in which the next page-in is chosen: expired prefetches are dropped where rank 2 has its turn (R199). -/
def pageInTurn (s : State) : State := if (s.pgr.rank1.isEmpty && !rank3Turn s.pgr) = true then dropExpired s else s

/-- The page-in of flow `f`, chosen with `p` left, takes slot `i`. -/
def pageInTook (rank f i : Nat) (pre : Option Prefetch) (p : Pgr) (prot : Option Int) (s : State) : State :=
  addOp { flow := f, slot := i, why := .pageIn rank, ph := .read, a0 := pre.toList.map fun x => x.a0 }
    (modFlow f (fun x => { x with slot := some i }) (modSlot i (fun _ => { st := .filling, flow := f, prot := prot })
      (s.modPgr fun x => { x with rank1 := p.rank1, rank2 := p.rank2, rank3 := p.rank3, since3 := p.since3,
                                  shields := x.shields.filter (fun y => y.flow ≠ f),
                                  waitVictim := x.waitVictim.filter fun y => y ≠ f })))

section Took
variable (rank f i : Nat) (pre : Option Prefetch) (p : Pgr) (prot : Option Int) (s : State)

theorem getSlot_pageInTook (k : Nat) : getSlot (pageInTook rank f i pre p prot s) k =
    if k = i then { st := .filling, flow := f, prot := prot } else getSlot s k := by
  rw [pageInTook, getSlot_addOp, getSlot_modFlow]
  split
  · next h => rw [h, getSlot_modSlot]
  · next h => exact getSlot_modSlot_ne h _ _

theorem getFlow_pageInTook (k : Nat) : getFlow (pageInTook rank f i pre p prot s) k =
    if k = f then { getFlow s k with slot := some i } else getFlow s k := by
  rw [pageInTook, getFlow_addOp]
  split
  · next h =>
    rw [h, getFlow_modFlow]
    rfl
  · next h => exact getFlow_modFlow_ne h _ _

theorem ops_pageInTook : (pageInTook rank f i pre p prot s).pgr.ops = s.pgr.ops ++
    [{ flow := f, slot := i, why := .pageIn rank, ph := .read, a0 := pre.toList.map fun x => x.a0 }] := by
  rw [pageInTook, pgr_addOp]
  rfl

theorem rank1_pageInTook : (pageInTook rank f i pre p prot s).pgr.rank1 = p.rank1 := by
  rw [pageInTook, pgr_addOp]
  rfl

end Took

section Issue
variable {s : State}

theorem pageInIssue_idle (hnone : nextPageIn (pageInTurn s).pgr = none) : pageInIssue s = pageInTurn s := by
  unfold pageInTurn at *
  simp only [pageInIssue, hnone]

variable {rank f : Nat} {pre : Option Prefetch} {p : Pgr}
  (hnext : nextPageIn (pageInTurn s).pgr = some (rank, f, pre, p))
include hnext

section Needed
variable (hable : pageable (pageInTurn s) f rank = true) (hout : (getFlow (pageInTurn s) f).slot = none) {w : State}
include hable hout

theorem pageInIssue_reads {i : Nat} (hslot : findSlot (pageInTurn s) = (w, some i)) :
    pageInIssue s =
      let u := perf (23 + rank) 1 (pageInTook rank f i pre p (protFor (pageInTurn s) f) w)
      let v := if rank = 2 then addCtr (pgrCtr 2) 1 u else u
      fabRead (.page f) (pageAddr v f) 128 v := by
  unfold pageInTurn at *
  simp only [pageInIssue, hnext, hable, hout, hslot, Bool.not_true, Option.isSome_none, Bool.false_eq_true, if_false]
  rfl

theorem pageInIssue_noSlot (hslot : findSlot (pageInTurn s) = (w, none)) : pageInIssue s = noVictim f w := by
  unfold pageInTurn at *
  simp only [pageInIssue, hnext, hable, hout, hslot, Bool.not_true, Option.isSome_none, Bool.false_eq_true, if_false]

end Needed

end Issue

/-! The page that has been read, and the retry (R189, R202, R203). -/

section Page
variable {s : State} {f : Nat} {o : PageOp}

theorem pageInRead_read (ho : opOf s f = some o) (hph : o.ph = .read) (hread : reading s (.page f) = true) (ws : List Word) :
    pageInRead f ws s =
      cipherReq (modOp f (fun o => { o with ph := .decrypt, unit := ws }) (returnReads (fun u => u = .page f) s)) := by
  simp [pageInRead, ho, hph, hread]

section Decrypt
variable (ho : cipherOp s f = some o) (hph : o.ph = .decrypt)
include ho hph

theorem pageInDone_failed {status : Nat} (hfail : status ≠ 0) (ws : List Word) :
    pageInDone f status ws s = cipherErr f (wordOf status) (endReq f s) := by
  simp [pageInDone, ho, hph, hfail]

theorem pageInDone_good {ws : List Word} (hgood : pageCheck f ws = 0) : pageInDone f 0 ws s =
    cipherReq (opEnded f (serveFlow f (lateCheck f o.a0 (addCtr (pgrCtr 0) 1
      (modSlot o.slot (fun c => { c with st := .clean, ctx := ctxOf ws, ref := true }) (dropOp f (endReq f s))))))) := by
  simp [pageInDone, ho, hph, hgood]

theorem pageInDone_bad {ws : List Word} (hbad : pageCheck f ws ≠ 0) : pageInDone f 0 ws s =
    cipherReq (opEnded f (serveFlow f (checkHold f (pageCheck f ws - 1) (dropOp f (endReq f s))))) := by
  simp [pageInDone, ho, hph]

end Decrypt

section Retry
variable (ho : opOf s f = some o) (hph : o.ph = .retryWait)
include ho hph

theorem pageRetry_pageIn {rank : Nat} (hwhy : o.why = .pageIn rank) : pageRetry f s =
    fabRead (.page f) (pageAddr s f) 128 (modOp f (fun o => { o with ph := .read }) s) := by
  simp [pageRetry, ho, hph, hwhy]

theorem pageRetry_pageOut (hwhy : ∀ rank, o.why ≠ .pageIn rank) : pageRetry f s =
    cipherReq (modOp f (fun o => { o with ph := .encrypt, ctx := (getSlot s o.slot).ctx }) s) := by
  cases h : o.why with
  | pageIn rank => exact absurd h (hwhy rank)
  | _ => simp [pageRetry, ho, hph, h]

end Retry

end Page

end Sys2Proof.Machine

namespace Sys2Proof.Proofs

open Sys2Proof.Machine

/-- Settles O34: the next page-in reads its page once it has a slot (`pageInIssue_reads`), and of the slots and flows it changes its own
alone (`getSlot_pageInTook`, `getFlow_pageInTook`); without a slot it waits (`pageInIssue_noSlot`). The page's check decides its end
(`pageInDone_good`, `pageInDone_bad`). That a prefetch may have joined the page-in, which then serves it and leaves the slot with `ref`
set, is the model's reading (log 98). -/
theorem pageIns : Obligations.PageIns := by
  unfold Obligations.PageIns
  intro turn took
  refine ⟨?idle, ?reads, ?noSlot, ?took, ?read, ?done, ?retryIn, ?retryOut⟩
  case idle =>
    intro s hs hnone
    exact next_whenRunning hs (pageInIssue_idle hnone)
  case reads =>
    rintro s w u rank f i pre p hs hnext hable hout hslot rfl
    have hreads := pageInIssue_reads hnext hable hout hslot
    refine ⟨fun hrank => next_whenRunning hs (hreads.trans ?_), fun hrank => next_whenRunning hs (hreads.trans ?_)⟩
    · simp only [if_neg hrank]
      rfl
    · simp only [if_pos hrank]
      rfl
  case noSlot =>
    intro s w rank f pre p hs hnext hable hout hslot
    exact next_whenRunning hs (pageInIssue_noSlot hnext hable hout hslot)
  case took =>
    intro w rank f i pre p prot u
    refine ⟨rank1_pageInTook rank f i pre p prot w, (getSlot_pageInTook rank f i pre p prot w i).trans (if_pos rfl), ?slot,
      ops_pageInTook rank f i pre p prot w, fun k hk => (getSlot_pageInTook rank f i pre p prot w k).trans (if_neg hk),
      fun k hk => (getFlow_pageInTook rank f i pre p prot w k).trans (if_neg hk), addOp_frame _ _⟩
    case slot => exact congrArg Flow.slot ((getFlow_pageInTook rank f i pre p prot w f).trans (if_pos rfl))
  case read =>
    intro s f ws o hs hlen ho hph hread
    exact next_whenRunning hs ((if_pos hlen).trans (pageInRead_read ho hph hread ws))
  case done =>
    intro s f st ws o hs ho hph
    refine ⟨?good, ?bad, fun hst => next_whenRunning hs (pageInDone_failed ho hph (fun h => hst (BitVec.eq_of_toNat_eq h)) ws)⟩
    case good =>
      rintro rfl hgood
      exact next_whenRunning hs (pageInDone_good ho hph hgood)
    case bad =>
      rintro rfl hbad
      exact next_whenRunning hs (pageInDone_bad ho hph hbad)
  case retryIn =>
    intro s f o rank hs ho hph hwhy
    exact next_whenLive hs (pageRetry_pageIn ho hph hwhy)
  case retryOut =>
    intro s f o hs ho hph hwhy
    exact next_whenLive hs (pageRetry_pageOut ho hph hwhy)

end Sys2Proof.Proofs
end

section
/-! Page-outs (R192, R193, R196, R200, R203): the cleaning, the encrypted page, and the acknowledged write. -/

namespace Sys2Proof.Machine

section Cleaning
variable {s : State}

theorem cleaning_cleans {i : Nat} (hfew : freeSlots s + cleanVictims s < freeTarget s) (hi : cleanable s = some i) :
    cleaning s = pageOut i false true (addCtr (pgrCtr 10) 1 s) := by
  rw [cleaning, if_pos hfew, hi]

theorem cleaning_idle (h : freeTarget s ≤ freeSlots s + cleanVictims s ∨ cleanable s = none) : cleaning s = s := by
  obtain hmany | hnone := h
  · exact if_neg (Nat.not_lt.2 hmany)
  · rw [cleaning, hnone]
    exact ite_self s

end Cleaning

/-! The encrypted page (R36, R200). -/

section Encrypted
variable {s : State} {f : Nat} {o : PageOp} (ho : cipherOp s f = some o) (hph : o.ph = .encrypt)
include ho hph

theorem pageEncrypted_pageOut (hwhy : o.why = .pageOut) (ws : List Word) : pageEncrypted f 0 ws s =
    cipherReq (fabWrite (.page f) (pageAddr s f) 128 ws
      (modOp f (fun x => { x with ph := .write, retried := o.retried }) (endReq f s))) := by
  simp [pageEncrypted, ho, hph, hwhy]

theorem pageEncrypted_failed {status : Nat} (hfail : status ≠ 0) (ws : List Word) :
    pageEncrypted f status ws s = cipherErr f (wordOf status) (endReq f s) := by
  simp [pageEncrypted, ho, hph, hfail]

end Encrypted

/-! The acknowledged write (R192, R193, R196, R203). -/

section Written
variable {s : State} {f : Nat} {o : PageOp}

/-- The slot of a page-out whose page is in host memory: DIRTY again when its context changed meanwhile, FREE when it was a victim's,
else CLEAN. -/
def slotWritten (c : CSlot) (i : Nat) (s : State) : State :=
  if c.changed = true then modSlot i (fun c => { c with st := .dirty, victim := false, changed := false }) s
  else if c.victim = true then freeSlot i (addCtr (pgrCtr 9) 1 s)
  else modSlot i (fun c => { c with st := .clean }) s

section Ended
variable (ho : opOf s f = some o) (hph : o.ph = .write)
include ho hph

theorem pageWritten_pageOut (hwhy : o.why = .pageOut) : pageWritten f s =
    opEnded f (serveFlow f (slotWritten (getSlot s o.slot) o.slot (addCtr (pgrCtr 1) 1 (dropOp f s)))) := by
  simp [pageWritten, ho, hph, hwhy, slotWritten]

theorem pageWritten_destroy {q r0 : Nat} {idx : Word} (hwhy : o.why = .destroy q idx r0) :
    pageWritten f s = destroyEntry f q idx r0 (addCtr (pgrCtr 1) 1 s) := by
  simp [pageWritten, ho, hph, hwhy]

theorem pageWritten_new (hwhy : (∃ q idx, o.why = .create q idx) ∨ ∃ p, o.why = .migrate p) :
    pageWritten f s = writeEntry f true (modOp f (fun o => { o with ph := .entry, retried := false }) s) := by
  obtain ⟨q, idx, h⟩ | ⟨p, h⟩ := hwhy
  · simp [pageWritten, ho, hph, h]
  · simp [pageWritten, ho, hph, h]

end Ended

theorem pageOutDone_written (hout : writing s (fun u => u = .page f) = true) {t : State}
    (ht : pageWritten f (endPageWrite f s) = t) : pageOutDone f s = if t.phase = .quiesce then writeBacks t else t := by
  rw [pageOutDone, if_pos hout, ht]

theorem pageOutDone_idle (hnone : writing s (fun u => u = .page f) = false) : pageOutDone f s = s :=
  if_neg (by simp [hnone])

end Written

end Sys2Proof.Machine

namespace Sys2Proof.Proofs

open Sys2Proof.Machine

/-- Settles O35: fewer free slots than the target and a slot to clean start a page-out (`cleaning_cleans`; which slot, log 96); the
engine's result sends the page (`pageEncrypted_pageOut`) or fails it, and the acknowledgement of the write ends what it was for
(`pageWritten_pageOut`, `pageWritten_destroy`, `pageWritten_new`). That a destroyed flow's page counts as a page-out and a new flow's
does not is the model's reading (log 103). -/
theorem pageOuts : Obligations.PageOuts := by
  unfold Obligations.PageOuts
  intro done
  refine ⟨?cleans, ?idle, ?encrypted, ?failed, ?pageOut, ?others, ?unwritten⟩
  case cleans =>
    intro s i hs hfew hi
    exact next_whenRunning hs (cleaning_cleans hfew hi)
  case idle =>
    intro s h
    exact next_whenRunning_of_fixed (cleaning_idle h)
  case encrypted =>
    intro s f ws o hs ho hph hwhy
    exact next_whenLive hs (congrArg settleMigIns (pageEncrypted_pageOut ho hph hwhy ws))
  case failed =>
    intro s f st ws o hs ho hph hst
    have hfail : st.toNat ≠ 0 := fun h => hst (BitVec.eq_of_toNat_eq h)
    exact next_whenLive hs (congrArg settleMigIns (pageEncrypted_failed ho hph hfail ws))
  case pageOut =>
    rintro s u t f o hs hout ho hph hwhy rfl ht
    have ho' : opOf (endPageWrite f s) f = some o := ho
    exact next_whenLive hs (pageOutDone_written hout ((pageWritten_pageOut ho' hph hwhy).trans ht.symm))
  case others =>
    intro s f o hs hout ho hph
    have ho' : opOf (endPageWrite f s) f = some o := ho
    exact ⟨fun q idx r0 hwhy => next_whenLive hs (pageOutDone_written hout (pageWritten_destroy ho' hph hwhy)),
      fun hwhy => next_whenLive hs (pageOutDone_written hout (pageWritten_new ho' hph hwhy))⟩
  case unwritten =>
    intro s f hnone
    exact next_whenLive_of_fixed (pageOutDone_idle hnone)

end Sys2Proof.Proofs
end

section
/-! The caddie's enable (R191, R209), its prefetches (R198, R199), and its timers (R196, R198, R199, R202–R204). -/

namespace Sys2Proof.Machine

/-! A write of `PGR_CTRL` (R191). -/

theorem storeFields_pgr (off : Nat) (v : Word) (s : State) : (storeFields off v s).pgr = s.pgr := by
  unfold storeFields
  split
  · rfl
  · rfl

section Enable
variable {s : State} {v : Word} (hs : s.phase = .running) (href : refusal s 0x60000 4 v = none)
include hs href

theorem caddieEnable_stored (h : bitOf v 0 = false ∨ s.pgr.enabled = true) :
    caddieEnable v s = storeFields 0x60000 v s := by
  have hstop : (!bitOf v 0 || (storeFields 0x60000 v s).pgr.enabled) = true := by simpa [storeFields_pgr] using h
  exact (windowWrite_of_allowed hs href _).trans (if_pos hstop)

section Enabling
variable (hbit : bitOf v 0 = true) (hoff : s.pgr.enabled = false)
include hbit hoff

theorem caddieEnable_enabling : caddieEnable v s =
    let u := storeFields 0x60000 v s
    if bitsOf (reg u 0x6000C) 0 12 = 0 then { u with pgr := { s.pgr with bad := true } }
    else enableTable { u with pgr := { s.pgr with bad := false, enabled := true, starting := true, flows := [] } } := by
  have hgo : ¬(!bitOf v 0 || (storeFields 0x60000 v s).pgr.enabled) = true := by simp [storeFields_pgr, hbit, hoff]
  rw [← storeFields_pgr 0x60000 v s, caddieEnable, windowWrite_of_allowed hs href]
  exact if_neg hgo

end Enabling

end Enable

/-! The end of the enable (R191). -/

section Ready
variable {s : State}

theorem caddieReady_idle (hidle : s.pgr.starting = false) (ok : Bool) (es : List (Nat × BitVec 16)) : caddieReady ok es s = s :=
  if_pos (by simp [hidle])

theorem settleEnable_writing (hwait : writing s WrUse.enables = true) : settleEnable s = s := if_neg (by simp [hwait])

section Starting
variable (hstarts : s.pgr.starting = true)
include hstarts

theorem settleEnable_written (hdone : writing s WrUse.enables = false) : settleEnable s = caddieUp s :=
  if_pos (by simp [hstarts, hdone])

theorem caddieReady_written (hreads : readsOf s RdUse.enables = []) (es : List (Nat × BitVec 16)) :
    caddieReady true es s = caddieUp (endEnableWrites s) := by
  simp [caddieReady, hstarts, hreads]

theorem caddieReady_read (hreads : readsOf s RdUse.enables ≠ []) (es : List (Nat × BitVec 16)) :
    caddieReady true es s = settleEnable (enableRestore es (tableRead s)) := by
  simp [caddieReady, hstarts, hreads]

theorem caddieReady_failed (es : List (Nat × BitVec 16)) : caddieReady false es s = enableError s := by
  simp [caddieReady, hstarts]

end Starting

theorem enableError_read {r : RdReq} {l : List RdReq} (hreads : readsOf s RdUse.enables = r :: l) :
    enableError s = enableFail (addrEvent 0x110 r.addr 5 s) := by
  simp only [enableError, hreads]

theorem enableError_write {w : WrReq} (hreads : readsOf s RdUse.enables = [])
    (hw : (s.fab.writes.find? fun w => w.use.enables) = some w) : enableError s = enableFail (addrEvent 0x111 w.addr 5 s) := by
  simp only [enableError, hreads, hw]

end Ready

/-! Prefetches (R198, R199). -/

/-- The next prefetch scheduled for flow `f` has come to its instant. -/
def prefetchTaken (f : Nat) (s : State) : State :=
  s.modPgr fun p => { p with sched := dropFirst (fun y => y.flow = f) p.sched }

section Prefetch
variable {s : State} {f : Nat} {x : Prefetch} (hx : s.pgr.sched.find? (fun x => x.flow = f) = some x)
include hx

theorem prefetchIssue_taken : prefetchIssue f s =
    if !flowLive s f || heldBoth s f then addCtr (pgrCtr 5) 1 (prefetchTaken f s)
    else if (getFlow s f).slot.isSome then prefetchMeets x (prefetchTaken f s)
    else if s.pgr.rank1.any (fun e => e.1 = f) then
      (prefetchTaken f s).modPgr fun p => { p with shields := p.shields ++ [x] }
    else (prefetchTaken f s).modPgr fun p => { p with rank2 := p.rank2 ++ [x] } := by
  simp only [prefetchIssue, hx]
  rfl

theorem prefetchIssue_dropped (h : flowLive s f = false ∨ heldBoth s f = true) :
    prefetchIssue f s = addCtr (pgrCtr 5) 1 (prefetchTaken f s) :=
  (prefetchIssue_taken hx).trans (if_pos (by simpa using h))

section Wanted
variable (hlive : flowLive s f = true) (hheld : heldBoth s f = false)
include hlive hheld

theorem prefetchIssue_meets (hslot : (getFlow s f).slot ≠ none) : prefetchIssue f s = prefetchMeets x (prefetchTaken f s) := by
  have hsome : (getFlow s f).slot.isSome = true := Option.isSome_iff_ne_none.2 hslot
  simp only [prefetchIssue_taken hx, hlive, hheld, hsome, Bool.not_true, Bool.or_self, Bool.false_eq_true, if_false, if_true]

theorem prefetchIssue_queues (hslot : (getFlow s f).slot = none) : prefetchIssue f s =
    if s.pgr.rank1.any (fun e => e.1 = f) then
      (prefetchTaken f s).modPgr fun p => { p with shields := p.shields ++ [x] }
    else (prefetchTaken f s).modPgr fun p => { p with rank2 := p.rank2 ++ [x] } := by
  simp only [prefetchIssue_taken hx, hlive, hheld, hslot, Bool.not_true, Bool.or_self, Option.isSome_none, Bool.false_eq_true,
    if_false]

end Wanted

end Prefetch

theorem execProtectionEnd_slot {s : State} {f : Fin 262144} {i : Nat} (hslot : (getFlow s f).slot = some i) :
    execProtectionEnd f s = .next (modSlot i (fun c => { c with prot := none }) s) := by
  simp only [execProtectionEnd, hslot]

theorem execProtectionEnd_none {s : State} {f : Fin 262144} (hslot : (getFlow s f).slot = none) :
    execProtectionEnd f s = .next s := by
  simp only [execProtectionEnd, hslot]

/-! The end of a FAULT hold (R202, R204). -/

section FaultHold
variable {s : State} {f : Nat} (hfault : (getFlow s f).hFault = true)
include hfault

theorem faultEnd_held : faultEnd f s =
    let u := modFlow f (fun x => { x with hFault := false }) s
    if (getFlow u f).pinned && !heldBoth u f && (getFlow u f).slot.isNone then needPage f 3 (.send f) 0 u else u :=
  if_neg (by simp [hfault])

theorem faultEnd_unpinned (hfree : (getFlow s f).pinned = false) :
    faultEnd f s = modFlow f (fun x => { x with hFault := false }) s :=
  (faultEnd_held hfault).trans (if_neg (by simp [hfree]))

theorem faultEnd_pinned {u : State} (hu : u = modFlow f (fun x => { x with hFault := false }) s)
    (hpinned : (getFlow u f).pinned = true) (hheld : heldBoth u f = false) (hout : (getFlow u f).slot = none) :
    faultEnd f s = needPage f 3 (.send f) 0 u := by
  subst hu
  exact (faultEnd_held hfault).trans (if_pos (by rw [hpinned, hheld, hout]; rfl))

end FaultHold

end Sys2Proof.Machine

namespace Sys2Proof.Proofs

open Sys2Proof.Machine

/-- Settles O33: a write of `PGR_CTRL` is refused, stored, or enables the caddie (`caddieEnable_stored`, `caddieEnable_enabling`); the
enable ends once its reads and writes have (`caddieReady_written`, `caddieReady_read`) or fails (`caddieReady_failed`); a prefetch
meets its slot or queues (`prefetchIssue_taken`); each timer ends what it names. That a failed end is an error response to the enable's
oldest request (log 19), that the end stands for the acknowledgements that have not come (log 195), and that the page-in of a pinned
flow after its hold ranks with the commands (log 104) are the model's readings. -/
theorem caddieEnableAndTimers : Obligations.CaddieEnableAndTimers := by
  unfold Obligations.CaddieEnableAndTimers
  refine ⟨⟨?refused, ?stored, ?enable, ?table, ?written, ?read, ?failedRead, ?failedWrite, ?fail, ?notStarting⟩,
    ?queues, ?taken, ?protection, ?unprotected, ?unpinned, ?pinned, ?barred, ?relieved, ?pressed, ?late⟩
  case refused =>
    intro s v c hs href
    exact congrArg _ (windowWrite_of_refused hs href _)
  case stored =>
    intro s v hs href h
    exact congrArg _ (caddieEnable_stored hs href h)
  case enable =>
    rintro s u v hs href hbit hoff rfl
    have henable := caddieEnable_enabling hs href hbit hoff
    exact ⟨fun hnone => congrArg _ (henable.trans (if_pos hnone)), fun hsome => congrArg _ (henable.trans (if_neg hsome))⟩
  case table => exact fun s => rfl
  case written =>
    intro s es hs hstarts hreads
    exact next_whenRunning hs (caddieReady_written hstarts hreads es)
  case read =>
    rintro s u es hs hstarts hreads rfl hstill
    have hread := caddieReady_read hstarts hreads es
    exact ⟨fun hdone => next_whenRunning hs (hread.trans (settleEnable_written hstill hdone)),
      fun hwait => next_whenRunning hs (hread.trans (settleEnable_writing hwait))⟩
  case failedRead =>
    intro s es r l hs hstarts hreads
    exact next_whenRunning hs ((caddieReady_failed hstarts es).trans (enableError_read hreads))
  case failedWrite =>
    intro s es w hs hstarts hreads hw
    exact next_whenRunning hs ((caddieReady_failed hstarts es).trans (enableError_write hreads hw))
  case fail => exact fun s => ⟨rfl, rfl, rfl, rfl⟩
  case notStarting =>
    intro s ok es hidle
    exact next_whenRunning_of_fixed (caddieReady_idle hidle ok es)
  case queues =>
    intro s f x hs hx hlive hheld hslot
    refine next_whenRunning hs ((prefetchIssue_queues hx hlive hheld hslot).trans ?_)
    split
    · rfl
    · rfl
  case taken =>
    rintro s u f x hs hx rfl
    exact ⟨fun h => next_whenRunning hs (prefetchIssue_dropped hx h),
      fun hlive hheld hslot => next_whenRunning hs (prefetchIssue_meets hx hlive hheld hslot)⟩
  case protection => exact fun s f i hslot => execProtectionEnd_slot hslot
  case unprotected => exact fun s f hslot => execProtectionEnd_none hslot
  case unpinned =>
    intro s f hs hfault hfree
    exact next_whenRunning hs (faultEnd_unpinned hfault hfree)
  case pinned =>
    intro s u f hs hfault hu hpinned hheld hout
    exact next_whenRunning hs (faultEnd_pinned hfault hu hpinned hheld hout)
  case barred => exact fun s i => rfl
  case relieved =>
    intro s h
    exact congrArg _ (if_pos h)
  case pressed =>
    intro s h
    exact congrArg _ (if_neg (Nat.not_le.2 h))
  case late => exact fun s => rfl

end Sys2Proof.Proofs
end

section
/-! The queue of waiting commands, and the clock's edge that a step is where none waits (R39, R212, R213; the queue is log 1's). -/

namespace Sys2Proof.Machine

theorem step_of_waiting {s : State} {c : Instr} {rest : List Instr} (h : s.pending = c :: rest) :
    step s = exec c { s with pending := rest } := by simp [step, h]

theorem step_of_none_waiting {s : State} (h : s.pending = []) : step s = .next (tick s) := by simp [step, h]

/-! One edge, by whether its nanoseconds carry into the seconds. -/

section Edge
variable {t : Tim} {ns frac : Nat} (hfrac : frac < 4294967296)
  (hsum : ((t.ns : Nat) : Int) * 4294967296 + (t.frac : Int) + 4294967296 + t.rate = (ns : Int) * 4294967296 + frac)
include hfrac hsum

theorem timeEdge_of_no_carry (h : ns < 1000000000) : timeEdge t = { t with ns := ns, frac := frac } := by
  have hquot : ((ns : Int) * 4294967296 + frac) / 4294967296 = ns := by omega
  have hrest : ((ns : Int) * 4294967296 + frac) % 4294967296 = frac := by omega
  simp [timeEdge, hsum, hquot, hrest, h]

theorem timeEdge_of_carry (h : 1000000000 ≤ ns) : timeEdge t =
    { t with sec := (t.sec + 1) % 281474976710656, ns := ns - 1000000000, frac := frac,
             epoch := t.epoch + (t.sec + 1) / 281474976710656 } := by
  have hquot : ((ns : Int) * 4294967296 + frac) / 4294967296 = ns := by omega
  have hrest : ((ns : Int) * 4294967296 + frac) % 4294967296 = frac := by omega
  simp [timeEdge, hsum, hquot, hrest, Nat.not_lt.2 h]

end Edge

/-- The sum that an edge cuts into whole nanoseconds and a fraction: never negative, and less than two seconds. -/
theorem edge_sum {t : Tim} (h : LegalTime t) : ∃ ns frac : Nat, ns < 2000000000 ∧ frac < 4294967296 ∧
    ((t.ns : Nat) : Int) * 4294967296 + (t.frac : Int) + 4294967296 + t.rate = (ns : Int) * 4294967296 + frac := by
  obtain ⟨-, hns, hfrac, hlo, hhi⟩ := h
  refine ⟨((((t.ns : Nat) : Int) * 4294967296 + (t.frac : Int) + 4294967296 + t.rate) / 4294967296).toNat,
    ((((t.ns : Nat) : Int) * 4294967296 + (t.frac : Int) + 4294967296 + t.rate) % 4294967296).toNat, ?_, ?_, ?_⟩ <;> omega

theorem legalTime_timeEdge {t : Tim} (h : LegalTime t) : LegalTime (timeEdge t) := by
  obtain ⟨ns, frac, hns, hfrac, hsum⟩ := edge_sum h
  obtain ⟨hsec, -, -, hrate⟩ := h
  by_cases hcarry : ns < 1000000000
  · rw [timeEdge_of_no_carry hfrac hsum hcarry]
    exact ⟨hsec, hcarry, hfrac, hrate⟩
  · rw [timeEdge_of_carry hfrac hsum (Nat.not_lt.1 hcarry)]
    exact ⟨Nat.mod_lt _ (by decide), by show ns - 1000000000 < 1000000000; omega, hfrac, hrate⟩

theorem now32_timeEdge {t : Tim} (h : LegalTime t) :
    now32 (timeEdge t) = (now32 t + 4294967296 + t.rate) % (281474976710656 * 1000000000 * 4294967296) := by
  obtain ⟨ns, frac, hns, hfrac, hsum⟩ := edge_sum h
  obtain ⟨hsec, -⟩ := h
  by_cases hcarry : ns < 1000000000
  · rw [timeEdge_of_no_carry hfrac hsum hcarry]
    simp only [now32]
    omega
  · rw [timeEdge_of_carry hfrac hsum (Nat.not_lt.1 hcarry)]
    simp only [now32]
    omega

/-! The whole edge. -/

theorem tick_of_stopped {s : State} (h : timeAlive s = false) : tick s = s := if_pos (by simp [h])

/-- An edge moves the time base and the uptime; what the counters and the link do at it leaves all of `State.kept`. -/
theorem tick_kept_of_alive {s : State} (h : timeAlive s = true) :
    (tick s).kept = ({ s with tim := timeEdge s.tim, uptime := s.uptime + 1 } : State).kept := by
  simp only [tick, h, Bool.not_true, Bool.false_eq_true, if_false]
  exact whenLive_kept _ _ fun x => by simp

theorem now32_of_kept {s t : State} (h : t.kept = s.kept) : now32 t.tim = now32 s.tim := by
  obtain ⟨hsec, hns, hfrac⟩ := timeBase_of_kept h
  simp only [now32, hsec, hns, hfrac]

theorem legalTime_of_kept {s t : State} (h : t.kept = s.kept) (hs : LegalTime s.tim) : LegalTime t.tim := by
  obtain ⟨hsec, hns, hfrac⟩ := timeBase_of_kept h
  simpa only [LegalTime, hsec, hns, hfrac, rate_of_kept h] using hs

end Sys2Proof.Machine

namespace Sys2Proof.Proofs

open Sys2Proof.Machine

/-- Settles O1: the front of the queue is what `step` matches on (`step_of_waiting`). -/
theorem stepRunsFrontCommand : Obligations.StepRunsFrontCommand := by
  intro c rest s
  exact step_of_waiting rfl

/-- Settles O2: the edge's sum is cut with or without a carry into the seconds (`timeEdge_of_carry`, `now32_timeEdge`), and
nothing else of the edge moves the time base (`tick_kept_of_alive`). -/
theorem idleStepIsOneClockEdge : Obligations.IdleStepIsOneClockEdge := by
  refine ⟨?edge, ?stopped⟩
  case edge =>
    intro s hnone halive hlegal
    have hk := tick_kept_of_alive halive
    refine ⟨tick s, step_of_none_waiting hnone, ?_, ?_, ?_, ?_, tick_phase s, (regs_of_kept hk).trans rfl, ?_⟩
    · exact (now32_of_kept hk).trans (now32_timeEdge hlegal)
    · exact (rate_of_kept hk).trans (timeEdge_rate s.tim)
    · exact legalTime_of_kept hk (legalTime_timeEdge hlegal)
    · exact uptime_of_kept hk
    · exact (tick_pending s).trans hnone
  case stopped =>
    intro s hnone hstopped
    rw [step_of_none_waiting hnone, tick_of_stopped hstopped]

end Sys2Proof.Proofs
end

section
/-! Pauses and low-power idle of a cluster port (R254, R255, R257, R305). -/

namespace Sys2Proof.Machine

/-! Steps one after another that each change a key of their own. -/

/-- Step `k` changes what stands at key `k`, by `g k`, and nothing at another key; `P` is what the steps rely on and keep. -/
theorem eachBelow_pointwise {α β : Type} {P : α → Prop} {f : Nat → α → α} {get : α → Nat → β} {g : Nat → β → β} {n : Nat}
    (hkeeps : ∀ a k, P a → P (f k a))
    (hstep : ∀ a k, P a → k < n → ∀ j, get (f k a) j = if j = k then g k (get a k) else get a j)
    {a : α} (ha : P a) (j : Nat) : get (eachBelow n f a) j = if j < n then g j (get a j) else get a j := by
  have hall (m : Nat) (hm : m ≤ n) : P (eachBelow m f a) ∧
      ∀ j, get (eachBelow m f a) j = if j < m then g j (get a j) else get a j := by
    induction m with
    | zero => exact ⟨ha, fun j => rfl⟩
    | succ m ih =>
      have hlast : eachBelow (m + 1) f a = f m (eachBelow m f a) := by simp [eachBelow, List.range_succ]
      obtain ⟨hP, hget⟩ := ih (by omega)
      refine ⟨hlast ▸ hkeeps _ m hP, fun j => ?_⟩
      rw [hlast, hstep _ m hP (by omega), hget, hget, if_neg (Nat.lt_irrefl m)]
      obtain h | rfl | h := Nat.lt_trichotomy j m
      · rw [if_neg (by omega), if_pos h, if_pos (by omega)]
      · rw [if_pos rfl, if_pos (by omega)]
      · rw [if_neg (by omega), if_neg (by omega), if_neg (by omega)]
  exact (hall n (Nat.le_refl n)).2 j

/-! What arrives on a port (R242). -/

theorem rxOn_down {s : State} {c : Nat} (hdown : (getCPort s c).up = false) (len : Nat) (f : State → State) :
    rxOn c len f s = s := if_neg (by simp [hdown])

theorem rxOn_up {s : State} {c : Nat} (hup : (getCPort s c).up = true) (len : Nat) (f : State → State) :
    rxOn c len f s = f (countRx c len (access 213 s)) := if_pos hup

theorem getCPort_of_lnk {s t : State} (h : t.lnk = s.lnk) (c : Nat) : getCPort t c = getCPort s c := by
  simp only [getCPort, h]

theorem lnk_countRx (c len : Nat) (s : State) : (countRx c len (access 213 s)).lnk = s.lnk :=
  (lstat_lnk _ _ _ _).trans ((lstat_lnk _ _ _ _).trans (access_lnk 213 s))

/-! Pauses (R254, R255). -/

/-- The pause of one class after a PAUSE message, from the pause before it. -/
def pausedBy (enable : Byte) (quanta : List (BitVec 16)) (k : Nat) (old : Option Nat) : Option Nat :=
  if enable.toNat / 2 ^ k % 2 = 0 then old
  else if (quanta.getD k 0).toNat = 0 then none else some (quanta.getD k 0).toNat

/-- What a PAUSE message does to one class of its port. -/
def pauseSet (c : Nat) (enable : Byte) (quanta : List (BitVec 16)) (k : Nat) (s : State) : State :=
  if enable.toNat / 2 ^ k % 2 = 0 then s
  else modCPort c (fun C => { C with
    paused := tput C.paused k (if (quanta.getD k 0).toNat = 0 then none else some (quanta.getD k 0).toNat) }) s

theorem pauseIn_down {s : State} {c : Nat} (hdown : (getCPort s c).up = false) (enable : Byte) (quanta : List (BitVec 16)) :
    pauseIn c enable quanta s = s := rxOn_down hdown _ _

theorem pauseIn_up {s : State} {c : Nat} (hup : (getCPort s c).up = true) (enable : Byte) (quanta : List (BitVec 16)) :
    pauseIn c enable quanta s = eachBelow 8 (pauseSet c enable quanta) (lstat c 17 1 (countRx c 18 (access 213 s))) :=
  rxOn_up hup _ _

theorem pauseSet_aside (c : Nat) (enable : Byte) (quanta : List (BitVec 16)) (k : Nat) (s : State) :
    (pauseSet c enable quanta k s).aside = s.aside := by
  unfold pauseSet
  split
  · rfl
  · rfl

theorem paused_pauseSet (c : Nat) (enable : Byte) (quanta : List (BitVec 16)) (k j : Nat) (s : State) :
    tfind (getCPort (pauseSet c enable quanta k s) c).paused j =
      if j = k then pausedBy enable quanta k (tfind (getCPort s c).paused k) else tfind (getCPort s c).paused j := by
  obtain rfl | hj := eq_or_ne j k
  · rw [if_pos rfl, pauseSet, pausedBy]
    split
    · rfl
    · rw [getCPort_modCPort, tfind_tput_same]
  · rw [if_neg hj, pauseSet]
    split
    · rfl
    · rw [getCPort_modCPort, tfind_tput_ne hj]

theorem pauseAgain_holds {s : State} {c k : Nat} (hup : (getCPort s c).up = true)
    (hoff : (getCPort s c).xoffs.contains k = true) (hfull : xonOf s c k ≤ occupancy (getCPort s c) k) :
    pauseAgain c k s = pushOwn c (linkHops s) (.pause k 0xFFFF) s :=
  if_pos (by simp only [hup, hoff, hfull, decide_true, Bool.and_self])

/-! The far end sleeps and wakes (R257, R305). -/

theorem sleepIn_up {s : State} {c : Nat} (hup : (getCPort s c).up = true) :
    sleepIn c s = modCPort c (fun C => { C with rxAsleep := true }) s := if_pos hup

/-- A lane that is to lock again after a WAKE. -/
def mustLock (c i : Nat) (s : State) : State := modLane (4 * c + i) (fun L => { L with wakeLock := true }) s

theorem wakeIn_awake {s : State} {c : Nat} (hawake : (getCPort s c).rxAsleep = false) : wakeIn c s = s :=
  if_neg (by simp [hawake])

theorem wakeIn_asleep {s : State} {c : Nat} (hasleep : (getCPort s c).rxAsleep = true) : wakeIn c s =
    eachBelow 4 (mustLock c) (wakeLanes c (modCPort c (fun C => { C with rxAsleep := false }) s)) := if_pos hasleep

theorem startWake_unused {s : State} {d : Nat} (hused : domUsed s d = false) : startWake d s = s := if_pos (by simp [hused])

/-- A domain of no port's core wakes alone. -/
theorem startWake_alone {s : State} {d : Nat} (hused : domUsed s d = true) (hd : 64 ≤ d) :
    startWake d s = modDom d Dom.roused s := by
  simp [startWake, hused, Nat.not_lt.2 hd]

theorem domUsed_lane (s : State) {d : Nat} (hlo : 128 ≤ d) (hhi : d < 144) : domUsed s d = laneOn s (d - 128) := by
  simp [domUsed, Nat.not_lt.2 hlo, hhi]

theorem getDom_modDom_any (d e : Nat) (f : Dom → Dom) (s : State) :
    getDom (modDom d f s) e = if e = d then f (getDom s d) else getDom s e := tget_tset _ _ _ _ _

/-- The domains of a port's lanes after its WAKE: those of the lanes that are on are roused. -/
theorem getDom_wakeLanes {c i : Nat} (hc : c < 4) (hi : i < 4) (s : State) : getDom (wakeLanes c s) (128 + 4 * c + i) =
    if laneOn s (4 * c + i) = true then (getDom s (128 + 4 * c + i)).roused else getDom s (128 + 4 * c + i) := by
  have hstep (a : State) (k : Nat) (ha : a.regs = s.regs) (hk : k < 4) (j : Nat) :
      getDom (startWake (128 + 4 * c + k) a) (128 + 4 * c + j) = if j = k then
        (if laneOn s (4 * c + k) = true then (getDom a (128 + 4 * c + k)).roused else getDom a (128 + 4 * c + k))
      else getDom a (128 + 4 * c + j) := by
    have hon : domUsed a (128 + 4 * c + k) = laneOn s (4 * c + k) := by
      rw [domUsed_lane a (by omega) (by omega), show 128 + 4 * c + k - 128 = 4 * c + k by omega]
      simp only [laneOn, reg, ha]
    cases hlane : laneOn s (4 * c + k) with
    | false =>
      rw [startWake_unused (hon.trans hlane)]
      split
      · next h => rw [h, if_neg (by decide)]
      · rfl
    | true =>
      rw [startWake_alone (hon.trans hlane) (by omega), getDom_modDom_any, if_pos rfl]
      exact if_congr (by omega) rfl rfl
  exact (eachBelow_pointwise (P := fun a => a.regs = s.regs) (get := fun a i => getDom a (128 + 4 * c + i))
    (g := fun i D => if laneOn s (4 * c + i) = true then D.roused else D)
    (fun a k ha => (regs_of_kept (startWake_kept _ a)).trans ha) hstep rfl i).trans (if_pos hi)

theorem getLane_mustLocks {c i : Nat} (hi : i < 4) (s : State) :
    getLane (eachBelow 4 (mustLock c) s) (4 * c + i) = { getLane s (4 * c + i) with wakeLock := true } :=
  (eachBelow_pointwise (P := fun _ => True) (get := fun a i => getLane a (4 * c + i))
    (g := fun _ L => { L with wakeLock := true }) (fun _ _ _ => trivial)
    (fun a k _ _ j => (getLane_modLane_any _ _ _ a).trans (if_congr (by omega) rfl rfl)) trivial i).trans (if_pos hi)

/-- A state without its lanes, its ports and its domains. -/
def State.sansLink (s : State) : State :=
  { s with lnk := { s.lnk with lanes := [], ports := [] }, pwr := { s.pwr with doms := [] } }

theorem eq_of_sansLink {s t : State} (h : t.sansLink = s.sansLink) :
    t = { s with lnk := { s.lnk with lanes := t.lnk.lanes, ports := t.lnk.ports }, pwr := { s.pwr with doms := t.pwr.doms } } :=
  congrArg (fun u : State =>
    { u with lnk := { u.lnk with lanes := t.lnk.lanes, ports := t.lnk.ports }, pwr := { u.pwr with doms := t.pwr.doms } }) h

theorem sansLink_modDom (d : Nat) (f : Dom → Dom) (s : State) : (modDom d f s).sansLink = s.sansLink := rfl
theorem sansLink_mustLock (c i : Nat) (s : State) : (mustLock c i s).sansLink = s.sansLink := rfl
theorem sansLink_modCPort (c : Nat) (f : CPort → CPort) (s : State) : (modCPort c f s).sansLink = s.sansLink := rfl

theorem eachBelow_keeps {β : Type} {p : State → β} {f : Nat → State → State} (h : ∀ k x, p (f k x) = p x) (n : Nat) (s : State) :
    p (eachBelow n f s) = p s := foldl_keeps (fun x k => h k x) _ s

theorem sansLink_startWake (d : Nat) (s : State) : (startWake d s).sansLink = s.sansLink := by
  simp only [startWake]
  split
  · rfl
  · split
    · exact (eachBelow_keeps (p := State.sansLink) (fun i => sansLink_modDom (144 + i) Dom.roused) 64 _).trans
        (sansLink_modDom d _ s)
    · exact sansLink_modDom d _ s

theorem sansLink_wakeLanes (c : Nat) (s : State) : (wakeLanes c s).sansLink = s.sansLink :=
  eachBelow_keeps (p := State.sansLink) (fun i => sansLink_startWake (128 + 4 * c + i)) 4 s

theorem sansLink_wakeIn {s : State} {c : Nat} (hasleep : (getCPort s c).rxAsleep = true) :
    (wakeIn c s).sansLink = s.sansLink := by
  rw [wakeIn_asleep hasleep, eachBelow_keeps (p := State.sansLink) (sansLink_mustLock c), sansLink_wakeLanes, sansLink_modCPort]

theorem lnk_startWake (d : Nat) (s : State) : (startWake d s).lnk = s.lnk := by
  simp only [startWake]
  split
  · rfl
  · split
    · exact eachBelow_keeps (p := State.lnk) (fun i => modDom_lnk (144 + i) Dom.roused) 64 _
    · rfl

theorem lnk_wakeLanes (c : Nat) (s : State) : (wakeLanes c s).lnk = s.lnk :=
  eachBelow_keeps (p := State.lnk) (fun i => lnk_startWake (128 + 4 * c + i)) 4 s

theorem getCPort_mustLocks (c k : Nat) (s : State) : getCPort (eachBelow 4 (mustLock c) s) k = getCPort s k :=
  eachBelow_keeps (p := fun a => getCPort a k) (fun i a => (rfl : getCPort (mustLock c i a) k = getCPort a k)) 4 s

theorem getDom_mustLocks (c d : Nat) (s : State) : getDom (eachBelow 4 (mustLock c) s) d = getDom s d :=
  eachBelow_keeps (p := fun a => getDom a d) (fun i a => (rfl : getDom (mustLock c i a) d = getDom a d)) 4 s

/-- A WAKE ends the port's sleep, rouses the domains of the lanes that are on, and asks for every lane's lock. -/
theorem rxAsleep_wakeIn {s : State} {c : Nat} (hasleep : (getCPort s c).rxAsleep = true) :
    (getCPort (wakeIn c s) c).rxAsleep = false := by
  rw [wakeIn_asleep hasleep, getCPort_mustLocks, getCPort_of_lnk (lnk_wakeLanes _ _), getCPort_modCPort]

theorem getLane_wakeIn {s : State} {c i : Nat} (hasleep : (getCPort s c).rxAsleep = true) (hi : i < 4) :
    getLane (wakeIn c s) (4 * c + i) = { getLane s (4 * c + i) with wakeLock := true } := by
  rw [wakeIn_asleep hasleep, getLane_mustLocks hi]
  simp only [getLane, lnk_wakeLanes]
  rfl

theorem getDom_wakeIn {s : State} {c i : Nat} (hasleep : (getCPort s c).rxAsleep = true) (hc : c < 4) (hi : i < 4)
    (hon : laneOn s (4 * c + i) = true) : getDom (wakeIn c s) (128 + 4 * c + i) = (getDom s (128 + 4 * c + i)).roused := by
  rw [wakeIn_asleep hasleep, getDom_mustLocks, getDom_wakeLanes hc hi]
  exact if_pos hon

/-! The own transmitter sleeps and wakes (R257). -/

theorem lpiWake_due {s : State} {c : Nat} (hasleep : (getCPort s c).asleep = true) (hwork : hasWork s c = true) :
    lpiWake c s = alignRow c (modCPort c (fun C => { C with asleep := false })
      (eachBelow (4 * wakeRows (wakeLanes c s) c) (fun k s => putLane (4 * c + k % 4) wakeBlock s)
        (newLines c (wakeLanes c s)))) := if_pos (by simp [hasleep, hwork])

theorem lpiWake_idle {s : State} {c : Nat} (hidle : hasWork s c = false) : lpiWake c s = s := if_neg (by simp [hidle])

end Sys2Proof.Machine

namespace Sys2Proof.Proofs

open Sys2Proof.Machine

/-- Settles O47: each command by its port's state; a PAUSE takes its classes one by one (`pauseIn_up`, `paused_pauseSet`), and a WAKE
rouses the domains of the port's lanes and asks for their locks (`getDom_wakeLanes`, `getLane_mustLocks`). -/
theorem linkPausesAndSleep : Obligations.LinkPausesAndSleep := by
  refine ⟨?paused, ?classes, ?expiry, ?refresh, ?slept, ?woken, ?wokenLanes, ?enter, ?wakes, ?waits, ?late⟩
  case paused =>
    intro s c enable quanta hs
    exact ⟨fun hdown => next_whenRunning hs (pauseIn_down hdown enable quanta),
      fun hup => next_whenRunning hs (pauseIn_up hup enable quanta)⟩
  case classes =>
    intro s c enable quanta hs hup
    refine ⟨_, next_whenRunning hs (pauseIn_up hup enable quanta), ?lanes, fun k hk => ?paused⟩
    case lanes =>
      refine (lanes_of_aside (eachBelow_aside 8 _ (pauseSet_aside c enable quanta) _)).trans ?_
      rw [lstat_lnk, lnk_countRx]
    case paused =>
      have hport : getCPort (lstat c 17 1 (countRx c 18 (access 213 s))) c = getCPort s c :=
        getCPort_of_lnk ((lstat_lnk _ _ _ _).trans (lnk_countRx _ _ _)) c
      rw [← hport]
      exact (eachBelow_pointwise (P := fun _ => True) (get := fun a k => tfind (getCPort a c).paused k)
        (g := pausedBy enable quanta) (fun _ _ _ => trivial) (fun a k _ _ j => paused_pauseSet c enable quanta k j a)
        trivial k).trans (if_pos hk)
  case expiry => exact fun s c k hs => next_whenRunning hs rfl
  case refresh =>
    intro s c k hs hup hoff hfull
    exact next_whenRunning hs (pauseAgain_holds hup hoff hfull)
  case slept => exact fun s c hs hup => next_whenRunning hs (sleepIn_up hup)
  case woken =>
    intro s c hs
    exact ⟨fun hawake => next_whenRunning hs (wakeIn_awake hawake), fun hasleep => next_whenRunning hs (wakeIn_asleep hasleep)⟩
  case wokenLanes =>
    intro s c hs hasleep
    exact ⟨wakeIn c s, next_whenRunning hs rfl, rxAsleep_wakeIn hasleep,
      fun i hi => ⟨getLane_wakeIn hasleep hi, getDom_wakeIn hasleep c.isLt hi⟩, eq_of_sansLink (sansLink_wakeIn hasleep)⟩
  case enter =>
    intro s c hs hup hawake hidle hwork
    exact next_whenRunning hs (lpiEnter_due hup hawake hidle hwork)
  case wakes =>
    rintro s u c hs hasleep hwork rfl
    exact next_whenRunning hs (lpiWake_due hasleep hwork)
  case waits => exact fun s c hs _ hidle => next_whenRunning hs (lpiWake_idle hidle)
  case late =>
    intro s l hs hactive hlock
    exact next_whenRunning hs (if_pos (by simp [hactive, hlock]))

end Sys2Proof.Proofs
end

section
/-! Reports of events (R279, R284, R304): the write of an event entry reaches the fabric's core unit. -/

namespace Sys2Proof.Machine

/-- A running block whose event ring 0 takes entries, with the fabric's core unit (domain 208) at bench. -/
def benchedFabric : State :=
  { phase := .running, hif := { queues := [(7168, { st := .active, cfg := { log2 := 4 } })] },
    pwr := { doms := [(208, { depth := 1 })] } }

/-- Its report of EV_FABRIC_READ_ERR writes an entry, and the write wakes the unit (R304). -/
theorem emit_wakes_benchedFabric :
    (getDom benchedFabric 208).waking = false ∧ (getDom (emit 0x110 0 0 benchedFabric) 208).waking = true := by decide

end Sys2Proof.Machine

namespace Sys2Proof.Proofs

open Sys2Proof.Machine

/-- Refutes O30: an event entry is a write on the fabric, whose core unit, at bench, wakes for it; so a report changes the power
state (`emit_wakes_benchedFabric`). -/
theorem not_reportsTouchOnlyTheirPath : ¬ Obligations.ReportsTouchOnlyTheirPath := by
  rintro ⟨-, -, -, hreport⟩
  obtain ⟨hasleep, hwakes⟩ := emit_wakes_benchedFabric
  obtain ⟨-, -, -, -, -, -, -, hpwr, -⟩ := hreport 0x110 0 0 benchedFabric
  have hsame : (getDom (emit 0x110 0 0 benchedFabric) 208).waking = (getDom benchedFabric 208).waking := by
    simp only [getDom, hpwr]
  exact Bool.false_ne_true (hasleep.symm.trans (hsame.symm.trans hwakes))

end Sys2Proof.Proofs
end

section
/-! The patrol scrub (R291–R294): what it does with an item by its error, and three of the stores' rows. Open in the manual, these
are the model's: the numbers of the items (log 147), the second report in a row as stuck (log 148), a pass's length from the end of
the pass before (log 14), and any store's item for a parity error on an internal bus (log 209). -/

namespace Sys2Proof.Machine

/-! An item by its error, while its word's domain is reached. -/

theorem scrub_passEnd (w item err : Nat) (s : State) : scrub 0 w item err s =
    s.modErr fun e => { e with scrubMs := sat 4095 ((s.uptime - e.scrubAt) / 1000000), scrubAt := s.uptime } := if_pos rfl

section Word
variable {s : State} {st w : Nat} (hst : st ≠ 0)
include hst

theorem scrub_unreached (hasleep : unscrubbed s st w = true) (item err : Nat) : scrub st w item err s = s := by
  rw [scrub, if_neg hst, if_pos hasleep]

variable (hreached : unscrubbed s st w = false) (item : Nat)
include hreached

theorem scrub_corrected : scrub st w item 1 s = corrected st w s := by
  rw [scrub, if_neg hst, if_neg (by simp [hreached]), if_pos rfl]

/-- Without an error that the code corrects, the word is no longer one that had such an error last. -/
theorem scrub_uncorrected {err : Nat} (herr : err ≠ 1) : scrub st w item err s =
    let u := s.modErr fun e => { e with sbSeen := e.sbSeen.filter fun x => x ≠ (st, w) }
    if err = 2 then uncorrected st w item u else if err = 3 then busParity (contain st item u) else u := by
  rw [scrub, if_neg hst, if_neg (by simp [hreached]), if_neg herr]

end Word

section Corrected
variable {s : State} {st w : Nat}

theorem corrected_first (hnew : s.err.sbSeen.contains (st, w) = false) : corrected st w s =
    raise 0xA10 (wordOf st) (wordOf w) (addCtr (errCtr 6) 1 (s.modErr fun e =>
      { e with sbStore := st, sbWord := w % 4294967296, sbSeen := (st, w) :: e.sbSeen })) := by
  simp only [corrected, hnew, Bool.false_eq_true, if_false]

theorem corrected_again (hseen : s.err.sbSeen.contains (st, w) = true) : corrected st w s =
    raise 0xA12 (wordOf st) (wordOf w) (raise 0xA10 (wordOf st) (wordOf w) (addCtr (errCtr 6) 1 (s.modErr fun e =>
      { e with sbStore := st, sbWord := w % 4294967296 }))) := by
  simp only [corrected, hseen, if_true]

end Corrected

/-! The end of an admin command leaves the grant engine's records. -/

theorem gnt_modAdm (q : Nat) (idx : Word) (f : Adm → Adm) (s : State) : (modAdm q idx f s).gnt = s.gnt := rfl
theorem gnt_enterLet (q : Nat) (req : Word) (st : Nat) (s : State) : (enterLet q req st s).gnt = s.gnt := rfl
theorem gnt_countDrained (q n : Nat) (s : State) : (countDrained q n s).gnt = s.gnt := rfl
theorem gnt_readyCpl (ring : Nat) (c : Cpl) (s : State) : (readyCpl ring c s).gnt = s.gnt := rfl

theorem gnt_admEnd (q : Nat) (idx : Word) (st : Nat) (rs : List Word) (s : State) : (admEnd q idx st rs s).gnt = s.gnt := by
  simp only [admEnd]
  split
  · rfl
  · split
    · rfl
    · refine (foldl_keeps (p := State.gnt) (fun x d => (gnt_readyCpl _ _ _).trans (gnt_modAdm _ _ _ x)) _ _).trans ?_
      rw [gnt_readyCpl, gnt_countDrained]
      split
      · exact gnt_modAdm _ _ _ s
      · exact (gnt_enterLet _ _ _ _).trans (gnt_modAdm _ _ _ s)

theorem gnt_drainDone (q : Nat) (s : State) : (drainDone q s).gnt = s.gnt := by
  simp only [drainDone]
  split
  · split
    · exact (gnt_admEnd _ _ _ _ _).trans (modQueue_gnt _ _ s)
    · rfl
  · rfl

theorem gnt_armDone (h : Nat) (rs : List Word) (s : State) : (armDone h rs s).gnt = s.gnt := by
  unfold armDone
  split
  · exact (gnt_drainDone _ _).trans (gnt_admEnd _ _ _ _ s)
  · rfl

/-! Rows of R291. -/

theorem flagged_containRec (h : Nat) (s : State) : (getRec (contain 0x04 h s) h).flagged = true := by
  have hgnt : (contain 0x04 h s).gnt = (modRec h (fun r => { r with flagged := true }) s).gnt := gnt_armDone _ _ _
  have hrec : getRec (contain 0x04 h s) h = getRec (modRec h (fun r => { r with flagged := true }) s) h := by
    simp only [getRec, hgnt]
  rw [hrec, getRec_modRec]

theorem flagged_containCurve (i : Nat) (s : State) : (getCurve (contain 0x0A i s) i).flagged = true :=
  congrArg Curve.flagged (getCurve_modCurve i (fun c => { c with flagged := true }) s)

/-- A counter restarts at 0; one of the performance counters in its upper half says so first, which may count. -/
theorem getCtr_containCtr {off : Nat} {s : State} (h : off < 0xB4000 ∨ (getCtr s off).getLsbD 47 = false) :
    getCtr (contain 0x12 off s) off = 0 := by
  have hquiet : (decide (0xB4000 ≤ off) && (getCtr s off).getLsbD 47) = false := by
    obtain h | h := h
    · rw [decide_eq_false (Nat.not_le.2 h), Bool.false_and]
    · rw [h, Bool.and_false]
  have hspoil : contain 0x12 off s = { s with ctrs := tset s.ctrs 0 off 0 } := if_neg (ne_true_of_eq_false hquiet)
  rw [hspoil]
  exact tget_tset_same s.ctrs 0 off 0

end Sys2Proof.Machine

namespace Sys2Proof.Proofs

open Sys2Proof.Machine

/-- Settles O56: the domain of the word and the kind of its error decide what the scrub does (`scrub_unreached`,
`scrub_corrected`, `scrub_uncorrected`); of the rows, each has its lemma. -/
theorem patrolScrub : Obligations.PatrolScrub := by
  refine ⟨?passEnd, ?unreached, ?corrected, ?others, ?rows⟩
  case passEnd => exact fun s w item e hs => next_whenRunning hs (scrub_passEnd w item e s)
  case unreached =>
    intro s st w item e hs hst hasleep
    exact next_whenRunning hs (scrub_unreached (Fin.val_ne_iff.2 hst) hasleep item e)
  case corrected =>
    intro s st w item hs hst hreached
    have hscrub := scrub_corrected (Fin.val_ne_iff.2 hst) hreached item
    exact ⟨fun hnew => next_whenRunning hs (hscrub.trans (corrected_first hnew)),
      fun hseen => next_whenRunning hs (hscrub.trans (corrected_again hseen))⟩
  case others =>
    intro s st w item hs hst hreached u
    have hscrub {err : Nat} (herr : err ≠ 1) := scrub_uncorrected (Fin.val_ne_iff.2 hst) hreached item herr
    exact ⟨next_whenRunning hs (hscrub (err := 0) (by decide)), next_whenRunning hs (hscrub (err := 2) (by decide)),
      next_whenRunning hs (hscrub (err := 3) (by decide))⟩
  case rows => exact fun s h => ⟨flagged_containRec h s, flagged_containCurve h s, getCtr_containCtr⟩

end Sys2Proof.Proofs
end

section
/-! Time exchanges between cluster ports (R250, R251): the master's Sync and its answer, the slave's four stamps, and how an exchange
ends. Open in the manual, these are the model's: both ends count, and a new Sync takes the place of an exchange uncounted (log 128);
time messages have no hops (log 203). -/

namespace Sys2Proof.Machine

theorem modCPort_congr {c : Nat} {f g : CPort → CPort} {s : State} (h : f (getCPort s c) = g (getCPort s c)) :
    modCPort c f s = modCPort c g s := by
  rw [getCPort] at h
  simp only [modCPort, State.modLnk, h]

/-- A master's exchange starts with its Sync (R250). -/
theorem timeStart_due {s : State} {c : Nat} (hup : (getCPort s c).up = true) (hmaster : master s c = true)
    (hivl : timeIvl s c ≠ 0) (hfree : (getCPort s c).exch = none) : timeStart c s =
      pushOwn c 0 (.time 0 (getCPort s c).seqId {}) (modCPort c (fun C =>
        { C with seqId := (C.seqId + 1) % 65536, exch := some { step := 1, seqId := (getCPort s c).seqId } }) s) := by
  rw [timeStart, if_neg (by simp [hup, hmaster, hivl, hfree])]
  exact congrArg (pushOwn c 0 _) (modCPort_congr rfl)

section TimeMessage
variable {s u : State} {c : Nat} (hup : (getCPort s c).up = true) (hu : u = countRx c 20 (access 213 s))
include hup hu

theorem timeOn_taken {ok : Bool} (hok : ok = true) (f : State → State) : timeOn c ok f s = f u := by
  rw [timeOn, rxOn_up hup, ← hu, if_pos hok]

theorem timeOn_ignored {ok : Bool} (hok : ok = false) (f : State → State) : timeOn c ok f s = u := by
  rw [timeOn, rxOn_up hup, ← hu, if_neg (by simp [hok])]

theorem syncIn_slave (hslave : slave s c = true) (n sub : Nat) :
    syncIn c n sub s = modExch c (some { step := 3, seqId := n, t2 := rxStamp s c sub }) u := timeOn_taken hup hu hslave _

theorem syncIn_other (hslave : slave s c = false) (n sub : Nat) : syncIn c n sub s = u := timeOn_ignored hup hu hslave _

variable {x : Exch} (hx : (getCPort u c).exch = some x) {n : Nat} (hseq : x.seqId = n)
include hx hseq

theorem delayReqIn_awaited (hmaster : master s c = true) (hstep : x.step = 2) (sub : Nat) : delayReqIn c n sub s =
    pushOwn c 0 (.time 9 n (rxStamp u c sub)) (lstat c 19 1 (modExch c none u)) := by
  rw [delayReqIn, timeOn_taken hup hu hmaster]
  simp [hx, hstep, hseq]

theorem followUpIn_awaited (hslave : slave s c = true) (hstep : x.step = 3) (t : LinkStamp) : followUpIn c n t s =
    pushOwn c 0 (.time 1 n {}) (modExch c (some { x with step := 4, t1 := stampOf t }) u) := by
  rw [followUpIn, timeOn_taken hup hu hslave]
  simp [hx, hstep, hseq]

theorem delayRespIn_awaited (hslave : slave s c = true) (hstep : x.step = 5) (t : LinkStamp) :
    delayRespIn c n t s = timeResult c x (stampOf t) u := by
  rw [delayRespIn, timeOn_taken hup hu hslave]
  simp [hx, hstep, hseq]

end TimeMessage

/-! The results (R251). -/

theorem resValid_modExch (c : Nat) (x : Option Exch) (s : State) :
    (getCPort (modExch c x s) c).resValid = (getCPort s c).resValid := by
  rw [modExch, getCPort_modCPort]

theorem timeResult_held {s : State} {c : Nat} (hfree : (getCPort s c).resValid = false) (x : Exch) (t : FullStamp) :
    timeResult c x t s = raise 0x81B (wordOf c) (wordOf x.seqId) (lstat c 19 1 (modCPort c (fun C =>
      { C with resValid := true, resSeq := x.seqId, res := [x.t1, x.t2, x.t3, t] }) (modExch c none s))) :=
  if_neg (by simp [resValid_modExch, hfree])

theorem timeResult_lost {s : State} {c : Nat} (hheld : (getCPort s c).resValid = true) (x : Exch) (t : FullStamp) :
    timeResult c x t s = raise 0x81C (wordOf c) (wordOf x.seqId) (lstat c 20 1 (modExch c none s)) :=
  if_pos ((resValid_modExch c none s).trans hheld)

end Sys2Proof.Machine

namespace Sys2Proof.Proofs

open Sys2Proof.Machine

/-- Settles O48: a message on an up port is taken by the port's role (`timeOn_taken`, `timeOn_ignored`) and by the step of its
exchange; the results wait or are lost by whether the last ones are held (`timeResult_held`, `timeResult_lost`). -/
theorem timeExchange : Obligations.TimeExchange := by
  refine ⟨?start, ?requests, ?answers, ?results, ?timeout⟩
  case start =>
    intro s c hs hup hmaster hivl hfree
    exact next_whenRunning hs (timeStart_due hup hmaster hivl hfree)
  case requests =>
    intro s u c n sub hs hup hu
    exact ⟨fun hslave => next_whenRunning hs (syncIn_slave hup hu hslave _ _),
      fun hslave => next_whenRunning hs (syncIn_other hup hu hslave _ _), fun x hmaster hx hstep hseq =>
        next_whenRunning hs (delayReqIn_awaited hup hu hx hseq hmaster hstep sub)⟩
  case answers =>
    intro s u c n t x hs hup hslave hu hx hseq
    exact ⟨fun hstep => next_whenRunning hs (followUpIn_awaited hup hu hx hseq hslave hstep t),
      fun hstep => next_whenRunning hs (delayRespIn_awaited hup hu hx hseq hslave hstep t)⟩
  case results => exact fun s c x t => ⟨fun hfree => timeResult_held hfree x t, fun hheld => timeResult_lost hheld x t⟩
  case timeout => exact fun s c hs hexch => next_whenRunning hs (if_pos hexch)

end Sys2Proof.Proofs
end

section
/-! What an up cluster port sends (R243, R247, R248): the end of the message in progress, the next one by rank, and what an
acknowledgement or a time-out does. Open in the manual, these are the model's: ACK, PAUSE and TIME are never paused (log 205), the
block's own messages to its neighbour have the header of log 203, and within rank 4 the order is that of log 118. -/

namespace Sys2Proof.Machine

/-! LINK_TRANSMIT. -/

theorem linkTransmit_shut {s : State} {x : LinkSend} (h : (getCPort s x.c).up = false ∨ (getCPort s x.c).asleep = true) :
    linkTransmit x s = s := by
  have hshut : (!(getCPort s x.c).up || (getCPort s x.c).asleep) = true := by
    obtain h | h := h
    · simp [h]
    · simp [h]
  exact if_pos hshut

theorem finishMsg_none {s : State} {c : Nat} (hcur : (getCPort s c).cur = none) : finishMsg c s = s := by
  rw [finishMsg, hcur]

section Transmit
variable {s : State} {x : LinkSend} (hup : (getCPort s x.c).up = true) (hawake : (getCPort s x.c).asleep = false)
include hup hawake

theorem linkTransmit_ends {m : Msg} (hcur : (getCPort s x.c).cur = some m) : linkTransmit x s =
    nextMsg x.c x.sub (finishMsg x.c (sendMsg x.c x.bad m (access 213 s))) := by
  simp [linkTransmit, hup, hawake, hcur]

theorem linkTransmit_starts (hcur : (getCPort s x.c).cur = none) :
    linkTransmit x s = nextMsg x.c x.sub (access 213 s) := by
  have hcur' : (getCPort (access 213 s) x.c).cur = none := by rw [getCPort_of_lnk (access_lnk 213 s), hcur]
  simp [linkTransmit, hup, hawake, hcur, finishMsg_none hcur']

end Transmit

/-! The next message by rank (R243). -/

section Next
variable {s : State} {c : Nat} (sub : Nat)

theorem nextMsg_urgent {m : Msg} (h : (getCPort s c).txq.find? (fun m => isUrgent m.body) = some m) :
    nextMsg c sub s = startMsg c sub m (modCPort c (fun C => { C with txq := dropFirst (fun x => x = m) C.txq }) s) := by
  simp only [nextMsg, h]

variable (hurgent : (getCPort s c).txq.find? (fun m => isUrgent m.body) = none)
include hurgent

theorem nextMsg_time {m : Msg} (h : (getCPort s c).txq.find? (fun m => isTime m.body) = some m) :
    nextMsg c sub s = startMsg c sub m (modCPort c (fun C => { C with txq := dropFirst (fun x => x = m) C.txq }) s) := by
  simp only [nextMsg, hurgent, h]

variable (htime : (getCPort s c).txq.find? (fun m => isTime m.body) = none)
include htime

theorem nextMsg_retx {m : Msg} {r : List Msg} (hretx : (getCPort s c).retx = m :: r) (hfree : held (getCPort s c) m = false) :
    nextMsg c sub s = startMsg c sub m (lstat c 14 1 (modCPort c (fun C => { C with retx := r }) s)) := by
  have hretx' : modCPort c (fun C => { C with retx := C.retx.tail }) s = modCPort c (fun C => { C with retx := r }) s :=
    modCPort_congr (by rw [hretx, List.tail_cons])
  simp [nextMsg, hurgent, htime, hretx, hfree, hretx', Option.filter]

variable (hretx : (getCPort s c).retx = [])
include hretx

theorem nextMsg_control {m : Msg} {r : List Msg} (htxq : (getCPort s c).txq = m :: r)
    (hfree : held (getCPort s c) m = false) (hwindow : (getCPort s c).unacked.length < 128) : nextMsg c sub s =
      startMsg c sub (numbered c m (modCPort c (fun C => { C with txq := r }) s)).1
        (numbered c m (modCPort c (fun C => { C with txq := r }) s)).2 := by
  have htxq' : modCPort c (fun C => { C with txq := dropFirst (fun x => x = m) C.txq }) s =
      modCPort c (fun C => { C with txq := r }) s := modCPort_congr (by simp [htxq, dropFirst])
  rw [htxq] at hurgent htime
  simp [nextMsg, hurgent, htime, hretx, htxq, hfree, htxq', windowOpen, hwindow, Option.filter]

end Next

/-! With nothing of its own to send, a port takes the waiting message of the highest class (R243). -/

section Waiting
variable {s : State} {c : Nat} (sub : Nat) (htxq : (getCPort s c).txq = []) (hretx : (getCPort s c).retx = [])
include htxq hretx

theorem nextMsg_idle (hnone : pickOut (purgeOut s) c = none) : nextMsg c sub s = purgeOut s := by
  simp [nextMsg, htxq, hretx, hnone]

theorem nextMsg_waiting {m : Msg} (hpick : pickOut (purgeOut s) c = some m) {u : State}
    (hu : u = (purgeOut s).modLnk fun l => { l with out := dropFirst (fun x => sameMsg x m) l.out }) :
    nextMsg c sub s = startMsg c sub (numbered c m u).1 (numbered c m u).2 := by
  simp [nextMsg, htxq, hretx, hpick, hu]

end Waiting

/-- A class that the far end has paused starts no waiting message. -/
theorem unpaused_of_pickOut {s : State} {c : Nat} {m : Msg} (h : pickOut s c = some m) :
    tfind (getCPort s c).paused m.cls = none := by
  obtain ⟨k, -, hk⟩ := List.exists_of_findSome?_eq_some h
  obtain ⟨n, hn, rfl⟩ := Option.map_eq_some_iff.1 hk
  have hsend : sendable s c k n = true := List.find?_some hn
  simp only [sendable, Bool.and_eq_true, Option.isNone_iff_eq_none] at hsend
  obtain ⟨⟨⟨-, hfree⟩, -⟩, -⟩ := hsend
  exact hfree

/-! Acknowledgements (R247, R248). -/

theorem ackIn_up {s : State} {c : Nat} (hup : (getCPort s c).up = true) (next : Word) (gap : Bool) : ackIn c next gap s =
    let u := modCPort c (fun C =>
      { C with unacked := C.unacked.filter fun m => decide (seqGap m.seq next.toNat < 2147483648),
               retx := C.retx.filter fun m => decide (seqGap m.seq next.toNat < 2147483648) }) (lstat c 3 28 (lstat c 2 1 s))
    if gap then retransmit c u else u := if_neg (by simp [hup])

section Retransmit
variable {s : State} {c : Nat} {m : Msg} {r : List Msg} (hkept : (getCPort s c).unacked = m :: r)
include hkept

theorem retransmit_reports (hfirst : (getCPort s c).retxEp = false) : retransmit c s =
    raise 0x81A (wordOf c) (wordOf m.seq) (modCPort c (fun C => { C with retx := m :: r, retxEp := true }) s) := by
  simp [retransmit, hkept, hfirst]

theorem retransmit_again (hep : (getCPort s c).retxEp = true) : retransmit c s =
    modCPort c (fun C => { C with retx := m :: r, retxEp := true }) s := by
  simp [retransmit, hkept, hep]

end Retransmit

end Sys2Proof.Machine

namespace Sys2Proof.Proofs

open Sys2Proof.Machine

/-- Settles O45: what the port has, rank by rank, gives its next message (`nextMsg_urgent` to `nextMsg_waiting`), and what it keeps
unacknowledged gives what a time-out or a gap brings again (`retransmit_reports`, `retransmit_again`). -/
theorem linkSending : Obligations.LinkSending := by
  refine ⟨?shut, ?transmit, ?urgent, ?own, ?waiting, ?paused, ?acked, ?timeout, ?ended, ?due⟩
  case shut => exact fun s x h => next_whenRunning_of_fixed (linkTransmit_shut h)
  case transmit =>
    intro s x hs hup hawake
    exact ⟨fun m hcur => next_whenRunning hs (linkTransmit_ends hup hawake hcur),
      fun hcur => next_whenRunning hs (linkTransmit_starts hup hawake hcur)⟩
  case urgent =>
    intro s c sub m h
    obtain hurgent | ⟨hnone, htime⟩ := h
    · exact nextMsg_urgent sub hurgent
    · exact nextMsg_time sub hnone htime
  case own =>
    intro s c sub m r hurgent htime hfree
    exact ⟨fun hretx => nextMsg_retx sub hurgent htime hretx hfree,
      fun hretx htxq hwindow => nextMsg_control sub hurgent htime hretx htxq hfree hwindow⟩
  case waiting =>
    intro s c sub htxq hretx
    exact ⟨nextMsg_idle sub htxq hretx, fun m u hpick hu => nextMsg_waiting sub htxq hretx hpick hu⟩
  case paused =>
    rintro s c k m hpick rfl
    exact unpaused_of_pickOut hpick
  case acked =>
    rintro s u c next hs hup rfl
    exact ⟨next_whenRunning hs (ackIn_up hup next false), next_whenRunning hs (ackIn_up hup next true)⟩
  case timeout =>
    intro s c m r hs hup hkept
    exact ⟨fun hfirst => next_whenRunning hs ((if_pos hup).trans (retransmit_reports hkept hfirst)),
      fun hep => next_whenRunning hs ((if_pos hup).trans (retransmit_again hkept hep))⟩
  case ended => exact fun s c => rfl
  case due =>
    intro s c hs hup
    exact ⟨fun hdue => next_whenRunning hs (if_pos (by simp [hup, hdue])),
      fun hnone => next_whenRunning hs (if_neg (by simp [hnone]))⟩

end Sys2Proof.Proofs
end

section
/-! What a cluster port receives (R242, R246, R248, R249, R253, R254, R256). Open in the manual, these are the model's: a message of
a class that the port does not accept is discarded and no counter names it (log 204), and a message finds its cells before its
number is looked at (log 132). -/

namespace Sys2Proof.Machine

/-! A message that takes cells arrives on an up port (R254, R256). -/

theorem rxIn_refused {s : State} {c : Nat} {h : MsgHdr} (hclass : bitOf (portCfg s c) h.cls = false) (len : Nat)
    (f : State → State) : rxIn c h len f s = s := if_neg (ne_true_of_eq_false hclass)

section Arrival
variable {s u : State} {c : Nat} {h : MsgHdr} {len : Nat} (hup : (getCPort s c).up = true)
  (hclass : bitOf (portCfg s c) h.cls = true) (hu : u = countRx c len (access 213 s))
include hup hclass hu

theorem rxIn_full (hfull : 8192 < storeUsed (getCPort u c) + cellsOf (20 + len)) (f : State → State) :
    rxIn c h len f s = raise 0x81E (wordOf c) (wordOf h.cls) (lstat c 10 1 u) := by
  rw [rxIn, if_pos hclass, rxOn_up hup, ← hu, storeRoom, if_pos hfull]

theorem rxIn_room (hroom : storeUsed (getCPort u c) + cellsOf (20 + len) ≤ 8192) (f : State → State) :
    rxIn c h len f s = f u := by
  rw [rxIn, if_pos hclass, rxOn_up hup, ← hu, storeRoom, if_neg (Nat.not_lt.2 hroom)]

end Arrival

/-- The number expected: the message is accepted, and no acknowledgement is due yet (R248). -/
theorem seqTake_expected {s u : State} {c : Nat} {q : Word} (hexp : seqGap q.toNat (getCPort s c).expect = 0)
    (hfew : (getCPort s c).accepted + 1 < 16)
    (hu : u = modCPort c (fun C => { C with expect := (C.expect + 1) % 4294967296, accepted := C.accepted + 1 }) s)
    (f : State → State) : seqTake c q f s = f u := by
  have hdue : ¬16 ≤ (getCPort u c).accepted := by
    rw [hu, getCPort_modCPort]
    exact Nat.not_le.2 hfew
  rw [seqTake, if_pos hexp, ← hu]
  exact congrArg f (if_neg hdue)

theorem rxIn_accepted {s u : State} {c : Fin 4} {h : MsgHdr} {len : Nat} (hacc : Accepted c h len s u) (f : State → State) :
    rxIn c h len (seqTake c h.seq f) s = f u := by
  obtain ⟨hup, hclass, hroom, hexp, hfew, hu⟩ := hacc
  rw [rxIn_room hup hclass rfl hroom]
  exact seqTake_expected hexp hfew hu f

/-! DATA (R246). -/

theorem forward_noHops {c : Nat} {h : MsgHdr} (hhops : h.hops = 0) (b : Body) (s : State) :
    forward c h b s = raise 0x818 (wordOf c) (wordOf h.origin) (lstat c 12 1 s) := if_pos hhops

/-! Messages that fail a check (R242). -/

section Invalid
variable {s : State} {c : Nat} {bs : List Byte}

theorem msgBad_valid (hfault : msgFault bs = 0) : msgBad c bs s = s := if_pos (by simp [hfault])

variable (hup : (getCPort s c).up = true)
include hup

theorem msgBad_malformed (hfault : msgFault bs = 2 ∨ msgFault bs = 3) : msgBad c bs s = lstat c 9 1 s := by
  obtain hfault | hfault := hfault
  · simp [msgBad, hup, hfault]
  · simp [msgBad, hup, hfault]

variable (hfault : msgFault bs = 1)
include hfault

theorem msgBad_crcReported (hlong : ∀ t, (getCPort (lstat c 8 1 s) c).crcAt = some t → t + 1000000 ≤ (lstat c 8 1 s).uptime) :
    msgBad c bs s = raise 0x819 (wordOf c) 0
      (modCPort c (fun C => { C with crcAt := some (lstat c 8 1 s).uptime }) (lstat c 8 1 s)) := by
  cases hlast : (getCPort (lstat c 8 1 s) c).crcAt with
  | none => simp [msgBad, hup, hfault, hlast]
  | some t => simp [msgBad, hup, hfault, hlast, Nat.not_lt.2 (hlong t hlast)]

theorem msgBad_crcCounted {t : Nat} (hlast : (getCPort (lstat c 8 1 s) c).crcAt = some t)
    (hsoon : (lstat c 8 1 s).uptime < t + 1000000) : msgBad c bs s = lstat c 8 1 s := by
  simp [msgBad, hup, hfault, hlast, hsoon]

end Invalid

/-! A forwarded message that stays past its time (R246). -/

section Transit
variable {s : State} {c : Nat}

theorem transitLate_none
    (h : (getCPort s c).store.find? (fun e => !e.local_ && s.lnk.out.any fun m => m.store = some (c, e.id)) = none) :
    transitLate c s = s := by
  simp only [transitLate, h]

theorem transitLate_oldest {e : Stored}
    (h : (getCPort s c).store.find? (fun e => !e.local_ && s.lnk.out.any fun m => m.store = some (c, e.id)) = some e) :
    transitLate c s = raise 0x81D (wordOf c) (wordOf e.msg.dest) (lstat c 13 1 (storeFree c e.id
      (s.modLnk fun l => { l with out := l.out.filter fun m => m.store ≠ some (c, e.id) }))) := by
  simp only [transitLate, h]

end Transit

end Sys2Proof.Machine

namespace Sys2Proof.Proofs

open Sys2Proof.Machine

/-- Settles O46: the class, the cells and the destination decide what becomes of DATA (`rxIn_refused`, `rxIn_full`, `rxIn_room`);
a numbered message in order is taken at once (`rxIn_accepted`); the check that fails says what is counted. -/
theorem linkReceiving : Obligations.LinkReceiving := by
  refine ⟨?data, ?invalid, ?snap, ?cap, ?late, ?none⟩
  case data =>
    intro s u c h d hs hup hu
    have hcells : 36 + d.bytes.length = 20 + (16 + d.bytes.length) := by omega
    rw [hcells]
    refine ⟨fun hclass => next_whenRunning hs (rxIn_refused hclass _ _),
      fun hclass hfull => next_whenRunning hs (rxIn_full hup hclass hu hfull _), fun hclass hroom => ?_⟩
    have hdata := rxIn_room (h := h) hup hclass hu hroom
    exact ⟨fun hhere => next_whenRunning hs ((hdata _).trans (if_pos hhere)),
      fun haway hhops => next_whenRunning hs ((hdata _).trans ((if_neg haway).trans (forward_noHops hhops _ u))),
      fun haway _ => next_whenRunning hs ((hdata _).trans (if_neg haway))⟩
  case invalid =>
    rintro s u c bs hs hup rfl
    exact ⟨fun hvalid => next_whenRunning hs (msgBad_valid hvalid), fun hbad => next_whenRunning hs (msgBad_malformed hup hbad),
      fun hcrc hlong => next_whenRunning hs (msgBad_crcReported hup hcrc hlong),
      fun t hcrc hlast hsoon => next_whenRunning hs (msgBad_crcCounted hup hcrc hlast hsoon)⟩
  case snap => exact fun s u c h n sec ns hs hacc => next_whenRunning hs (rxIn_accepted hacc _)
  case cap => exact fun s u c h ps hs hacc => next_whenRunning hs (rxIn_accepted hacc _)
  case late => exact fun s c e hs h => next_whenRunning hs (transitLate_oldest h)
  case none => exact fun s c hs h => next_whenRunning hs (transitLate_none h)

end Sys2Proof.Proofs
end

section
/-! Migration of a tree (R252, R270–R273, R276), at its source and at its destination. Open in the manual, these are the model's:
MIGRATION_DRAIN_END comes twice, without the list and with it (log 197); entries of the list that name no live flow are skipped
(log 144), and a migration that stays out is sent once more (log 142). -/

namespace Sys2Proof.Machine

/-! At the source: the command at its turn (R271). -/

section Out
variable {s : State} {a : Adm}

theorem migrateOut_starts {t : Nat} (ht : treeOn s (target a) = some t)
    (hstate : portState (getPort s (target a)) = 1 ∨ portState (getPort s (target a)) = 4) (hfree : portBusy s (target a) = false) :
    migrateOut a s = migStart t (aParam a.ws).toNat (some (a.q, a.idx)) (freeze t (admHold a s)) := by
  have hok : ¬(portState (getPort s (target a)) ≠ 1 ∧ portState (getPort s (target a)) ≠ 4) := by omega
  rw [target] at ht hok hfree
  simp [migrateOut, ht, hok, hfree]

theorem migrateOut_refused (h : treeOn s (target a) = none ∨ portBusy s (target a) = true ∨
    (portState (getPort s (target a)) ≠ 1 ∧ portState (getPort s (target a)) ≠ 4)) :
    migrateOut a s = admDone a.q a.idx 2 [] s := by
  rw [target] at h
  simp only [migrateOut]
  split
  · rfl
  · next t ht =>
    obtain hnone | hbusy | hstate := h
    · cases ht.symm.trans hnone
    · exact if_pos (by simp [hbusy])
    · exact if_pos (by simp [hstate])

end Out

/-! At the source: the drain, the list, and an answer that stays out (R270, R271, R273). -/

section Drain
variable {s : State} {t : Nat} {m : MigOut} (hmig : (getProt s t).mig = some m)
include hmig

section Draining
variable (hphase : (getProt s t).phase = 3)
include hphase

theorem drainEnd_unmoved (hcmd : m.cmd = none) (hside : (getProt s t).target = (getProt s t).side) :
    drainEnd t none s = treeResumes t s := by
  simp [drainEnd, hmig, hphase, hcmd, hside]

/-- A migration that goes on: the list is read, unless it has no entry. -/
theorem drainEnd_lists (hmove : m.cmd.isSome = true ∨ (getProt s t).target ≠ (getProt s t).side) {n : Nat}
    (hn : n = bitsOf (reg s (0x10080 + t * 0x400)) 0 15) {u : State}
    (hu : u = modProt t (fun r => { r with phase := 4, mig := some { m with terms := migTerms s t, count := n } }) s) :
    drainEnd t none s = if n = 0 then listIn t [] u else fabRead (.migList t) (migListAddr s t) (8 * n) u := by
  have hgoes : ¬(m.cmd.isNone && decide ((getProt s t).target = (getProt s t).side)) = true := by
    obtain hcmd | hside := hmove
    · obtain ⟨c, hc⟩ := Option.isSome_iff_exists.1 hcmd
      simp [hc]
    · simp [hside]
  have hregs : migListAddr u t = migListAddr s t := by rw [hu]; rfl
  simp only [drainEnd, hmig, hphase, ne_eq, not_true_eq_false, if_false, if_neg hgoes, ← hn, ← hu, hregs]

end Draining

variable (hphase : (getProt s t).phase = 4)
include hphase

theorem drainEnd_listed {list : List (Word × Word)} (hread : reading s (.migList t) = true) (hlen : list.length = m.count) :
    drainEnd t (some list) s = listIn t list (returnReads (fun x => x = .migList t) s) := by
  simp [drainEnd, hmig, hphase, hread, hlen]

theorem migDoneLate_again (hended : m.ended = true) (hfirst : m.attempt = 0) :
    migDoneLate t s = migSend t (modMig t (fun x => { x with attempt := 1 }) s) := by
  simp [migDoneLate, hmig, hphase, hended, hfirst]

theorem migDoneLate_fails (hended : m.ended = true) (hagain : m.attempt ≠ 0) : migDoneLate t s = migFail t 0xFF m s := by
  simp [migDoneLate, hmig, hphase, hended, hagain]

end Drain

/-! At the destination: the port is armed (R272). -/

/-- The port once its record and its place among those that install are set. -/
def migArmed (fc : FramerConst) (a : Adm) (s : State) : State :=
  State.modTpt (fun x => { x with migIn := tput x.migIn (target a) (some { origin := (aParam a.ws).toNat, mid := 0 }) })
    (modPort (target a) (fun P =>
      { P with armed := some (a.q, a.idx), consts := some fc, sPulse := none, cycLost := false }) (admHold a s))

section In
variable {s : State} {fc : FramerConst} {a : Adm}

theorem migrateIn_refused (h : portState (getPort s (target a)) ≠ 0 ∨ (getPort s (target a)).good = false) :
    migrateIn fc a s = admDone a.q a.idx 2 [] s := by
  rw [target] at h
  refine if_pos ?_
  obtain hstate | hbad := h
  · simp [hstate]
  · simp [hbad]

variable (hstate : portState (getPort s (target a)) = 0) (hgood : (getPort s (target a)).good = true)
include hstate hgood

theorem migrateIn_badConsts (hbad : constsOk s (target a) fc = false) : migrateIn fc a s = admDone a.q a.idx 4 [] s := by
  rw [target] at hstate hgood hbad
  refine (if_neg ?_).trans (if_pos ?_)
  · simp [hstate, hgood]
  · simp [hbad]

theorem migrateIn_arms (hok : constsOk s (target a) fc = true) {w : State}
    (hnone : treeOn (migArmed fc a s) (target a) = none → w = migArmed fc a s)
    (hsome : ∀ t, treeOn (migArmed fc a s) (target a) = some t → w = restartTree t (migArmed fc a s)) :
    migrateIn fc a s =
      modProt (target a) (fun r => if r.phase = 0 then { r with phase := 5 } else r) (wakePort (target a) w) := by
  cases htree : treeOn (migArmed fc a s) (target a) with
  | none =>
    rw [hnone htree]
    simp only [migArmed, target] at htree hstate hgood hok ⊢
    simp [migrateIn, hstate, hgood, hok, htree]
  | some t =>
    rw [hsome t htree]
    simp only [migArmed, target] at htree hstate hgood hok ⊢
    simp [migrateIn, hstate, hgood, hok, htree]

end In

/-! At the destination: the messages (R252, R272, R273). -/

section Message
variable {s u : State} {c : Fin 4} {h : MsgHdr} {b : Body} (hacc : Accepted c h (bodyLen b) s u) (act : State → State)
include hacc

theorem migIn_here (hdest : h.dest = ownInstance u) : migIn c h b act s =
    storeFree c u.lnk.storeNext (act (hold c h.cls (bodyLen b) { body := b } true u)) :=
  (rxIn_accepted hacc _).trans (if_pos hdest)

theorem migIn_away (hdest : h.dest ≠ ownInstance u) : migIn c h b act s = forward c h b u :=
  (rxIn_accepted hacc _).trans (if_neg hdest)

end Message

theorem migTermIn_installs {s : State} {origin mid term p : Nat} (hport : migPort s origin mid = some p)
    (hidle : (getRec s (p * 512 + term)).state = 0) (hwhole : (getRec s (p * 512 + term)).flagged = false) (ws : List Word) :
    migTermIn origin mid term ws s = setPend (p * 512 + term) (shiftRec (protDelta s p) (recOf ws)).rangePend
      (modMigIn p (fun m => { m with terms := m.terms ++ [term] })
        (modRec (p * 512 + term) (fun _ => shiftRec (protDelta s p) (recOf ws)) s)) := by
  simp [migTermIn, hport, hidle, hwhole]

theorem getRec_setPend (h k : Nat) (on : Bool) (s : State) : getRec (setPend h on s) k = getRec s k := rfl

theorem getRec_modMigIn (p k : Nat) (f : MigIn → MigIn) (s : State) : getRec (modMigIn p f s) k = getRec s k := rfl

section Late
variable {s : State} {p : Nat} {m : MigIn} (hmig : getMigIn s p = some m)
include hmig

theorem migEndLate_open (hbegun : m.begun = true) (hended : m.ended = false) : migEndLate p s = uninstall p s := by
  simp [migEndLate, hmig, hbegun, hended]

theorem migEndLate_idle (h : m.begun = false ∨ m.ended = true) : migEndLate p s = s := by
  obtain hbegun | hended := h
  · simp [migEndLate, hmig, hbegun]
  · simp [migEndLate, hmig, hended]

end Late

/-! CANCEL_IN (R273): a write of one bit that keeps nothing, never refused. -/

/-- The row of the ports' CANCEL_IN. -/
def cancelInRow : RRow := { base := 0x10088, s1 := 0x400, n1 := 64, fields := [fOf .wo 0 1] }

theorem rowOf_cancelIn : ∀ p : Fin 64, rowOf (0x10088 + p * 0x400) = some cancelInRow := by decide

theorem refusal_cancelIn (p : Fin 64) (s : State) : refusal s (0x10088 + p * 0x400) 4 1 = none :=
  refusal_of_unchecked (by omega) (rowOf_cancelIn p) rfl rfl s 1

theorem cancelIn_armed {s : State} {p q : Nat} {idx : Word} (harmed : (getPort s p).armed = some (q, idx)) : cancelIn p s =
    admDone q idx 7 [] (portOff p (State.modTpt (fun x => { x with migIn := tput x.migIn p none })
      (modProt p (fun r => if r.phase = 5 then { r with phase := 0 } else r) (uninstall p s)))) := by
  simp only [cancelIn, harmed]

end Sys2Proof.Machine

namespace Sys2Proof.Proofs

open Sys2Proof.Machine

/-- Settles O50: at the source the tree's phase decides each step (`drainEnd_lists`, `migDoneLate_again`); at the destination a
message in order is taken here or forwarded (`migIn_here`, `migIn_away`), and what ends an installation too early undoes it
(`migEndLate_open`, `cancelIn_armed`). -/
theorem migration : Obligations.Migration := by
  refine ⟨?out, ?outRefused, ?drained, ?listed, ?doneLate, ?arm, ?here, ?away, ?record, ?endLate, ?cancel, ?cancelled⟩
  case out =>
    intro s q idx a t hs hturn ht hstate hfree
    exact next_atTurn hs hturn (migrateOut_starts ht hstate hfree)
  case outRefused => exact fun s q idx a hs hturn h => next_atTurn hs hturn (migrateOut_refused h)
  case drained =>
    intro s u t m n hs hmig hphase
    refine ⟨fun hcmd hside => next_whenRunning hs (drainEnd_unmoved hmig hphase hcmd hside), fun hmove hn hu => ?_⟩
    have hlists := drainEnd_lists hmig hphase hmove hn hu
    exact ⟨fun hnone => next_whenRunning hs (hlists.trans (if_pos hnone)),
      fun hsome => next_whenRunning hs (hlists.trans (if_neg hsome))⟩
  case listed =>
    rintro s u t m list hs hmig hphase hread hlen rfl
    exact next_whenRunning hs (drainEnd_listed hmig hphase hread hlen)
  case doneLate =>
    intro s t m hs hmig hphase hended
    exact ⟨fun hfirst => next_whenRunning hs (migDoneLate_again hmig hphase hended hfirst),
      fun hagain => next_whenRunning hs (migDoneLate_fails hmig hphase hended hagain)⟩
  case arm =>
    intro s q idx fc a hs hturn
    refine ⟨fun h => next_atTurn hs hturn (migrateIn_refused h),
      fun hstate hgood hbad => next_atTurn hs hturn (migrateIn_badConsts hstate hgood hbad), ?_⟩
    rintro v w hstate hgood hok rfl hnone hsome
    exact next_atTurn hs hturn (migrateIn_arms hstate hgood hok hnone hsome)
  case here =>
    intro s u c h hs
    exact ⟨fun b hacc hdest => next_whenRunning hs (migIn_here (b := .migBegin b) hacc _ hdest),
      fun mid k ws hacc hdest => next_whenRunning hs (migIn_here (b := .migTerm mid.toNat k ws) hacc _ hdest),
      fun mid f ws hacc hdest => next_whenRunning hs (migIn_here (b := .migFlow mid.toNat f ws) hacc _ hdest),
      fun mid n k hacc hdest => next_whenRunning hs (migIn_here (b := .migEnd mid.toNat n k) hacc _ hdest),
      fun mid st hacc hdest => next_whenRunning hs (migIn_here (b := .migDone mid.toNat st.toNat) hacc _ hdest)⟩
  case away =>
    intro s u c h hs hdest
    exact ⟨fun b hacc => next_whenRunning hs (migIn_away (b := .migBegin b) hacc _ hdest),
      fun mid k ws hacc => next_whenRunning hs (migIn_away (b := .migTerm mid.toNat k ws) hacc _ hdest),
      fun mid f ws hacc => next_whenRunning hs (migIn_away (b := .migFlow mid.toNat f ws) hacc _ hdest),
      fun mid n k hacc => next_whenRunning hs (migIn_away (b := .migEnd mid.toNat n k) hacc _ hdest),
      fun mid st hacc => next_whenRunning hs (migIn_away (b := .migDone mid.toNat st.toNat) hacc _ hdest)⟩
  case record =>
    intro s origin mid term p ws hport hidle hwhole
    rw [migTermIn_installs hport hidle hwhole, getRec_setPend, getRec_modMigIn, getRec_modRec]
  case endLate =>
    intro s p m hs hmig
    exact ⟨fun hbegun hended => next_whenRunning hs (migEndLate_open hmig hbegun hended),
      fun h => next_whenRunning hs (migEndLate_idle hmig h)⟩
  case cancel =>
    intro s p hs
    exact congrArg Host.Outcome.next (windowWrite_of_allowed hs (refusal_cancelIn p s) _)
  case cancelled => exact fun s p q idx harmed => cancelIn_armed harmed

end Sys2Proof.Proofs
end

section
/-! Power domains (R301–R308, R310): the depths they take, their wakes, and what ends a sleep. Open in the manual, these are the
model's: an entry to locker that stops at dugout, and an entry that ends before its wake starts (log 161), where within its ns a
command comes and which event was known (log 160), and what follows a wake that fails (log 163). -/

namespace Sys2Proof.Machine

/-! The depth that a domain takes (R303). -/

/-- A depth that a domain's cap and its next event allow. -/
def depthOk (s : State) (d : Nat) (now : Int) (next : Option Int) (k : Nat) : Bool :=
  decide (k ≤ capOf s d) && (k ≠ 3 || lockerOk s d) && fits s now next k

theorem depthOk_iff {s : State} {d : Nat} {now : Int} {next : Option Int} {k : Nat} : depthOk s d now next k = true ↔
    k ≤ capOf s d ∧ (k = 3 → lockerOk s d = true) ∧ fits s now next k = true := by
  simp [depthOk, and_assoc, imp_iff_not_or]

theorem fits_some_iff {s : State} {now e : Int} {k : Nat} : fits s now (some e) k = true ↔
    16 * ((reach k + guardNs s : Nat) : Int) ≤ e - now := by simp [fits]

/-- A search from 3 down to 1 finds the deepest. -/
theorem deepest_of_find? {p : Nat → Bool} {k : Nat} (h : [3, 2, 1].find? p = some k) :
    1 ≤ k ∧ k ≤ 3 ∧ p k = true ∧ ∀ j, k < j → j ≤ 3 → p j = false := by
  have hp : p k = true := List.find?_some h
  have hmem : k ∈ [3, 2, 1] := List.mem_of_find?_eq_some h
  simp only [List.mem_cons, List.not_mem_nil, or_false] at hmem
  have hthree (h3 : p 3 = true) : k = 3 := Option.some.inj (h.symm.trans (List.find?_cons_of_pos h3))
  have htwo (h3 : p 3 = false) (h2 : p 2 = true) : k = 2 :=
    Option.some.inj (h.symm.trans ((List.find?_cons_of_neg (by simp [h3])).trans (List.find?_cons_of_pos h2)))
  refine ⟨by omega, by omega, hp, fun j hlo hhi => Bool.eq_false_iff.2 fun hj => ?_⟩
  have h3 : p 3 = false := Bool.eq_false_iff.2 fun h3 => by have := hthree h3; omega
  obtain rfl | rfl : j = 3 ∨ j = 2 := by omega
  · exact Bool.false_ne_true (h3.symm.trans hj)
  · have := htwo h3 hj
    omega

theorem deepest_of_chooseDepth {s : State} {d k : Nat} {now : Int} {next : Option Int} (h : chooseDepth s d now next = some k) :
    1 ≤ k ∧ k ≤ 3 ∧ depthOk s d now next k = true ∧ ∀ j, k < j → j ≤ 3 → depthOk s d now next j = false :=
  deepest_of_find? h

section Idle
variable {s : State} {d : Nat} {sub : Nat} {now : Int} {next : Option Int} (hnow : now = now16 s + sub) (hnext : next = nextEvent s d now)
include hnow

theorem domainIdle_busy (h : spanOpen s d now = true ∨ domWork s d = true) : domainIdle d sub s = s := by
  rw [hnow] at h
  refine if_neg ?_
  obtain hspan | hwork := h
  · simp [hspan]
  · simp [hwork]

include hnext

theorem domainIdle_stays (h : ∀ k, chooseDepth s d now next = some k → k ≤ (getDom s d).depth) : domainIdle d sub s = s := by
  simp only [domainIdle, ← hnow, ← hnext]
  split
  · cases hk : chooseDepth s d now next with
    | none => rfl
    | some k => exact if_neg (Nat.not_lt.2 (h k hk))
  · rfl

theorem domainIdle_enters {k : Nat} (hon : sleepOn s = true) (hused : domUsed s d = true) (hwaking : (getDom s d).waking = false)
    (hentering : (getDom s d).entering = none) (hspan : spanOpen s d now = false) (hwork : domWork s d = false)
    (hk : chooseDepth s d now next = some k) (hdeeper : (getDom s d).depth < k) : domainIdle d sub s =
      modDom d (fun D => { D with entering := some k, wakeAt := next.map (wakeTime s k), known := next }) s := by
  simp only [domainIdle, ← hnow, ← hnext, hon, hused, hwaking, hentering, hspan, hwork, hk, hdeeper]
  rfl

end Idle

/-! The end of an entry (R301). -/

/-- The domain at the depth that it entered; locker needs it empty. -/
def entered (s : State) (d k : Nat) (D : Dom) : Dom :=
  { D with depth := if k = 3 ∧ lockerOk s d = false then 2 else k, entering := none, wakeDue := false }

theorem depthEntered_none {s : State} {d : Nat} (h : (getDom s d).entering = none) : depthEntered d s = s := by
  simp only [depthEntered, h]

theorem depthEntered_some {s : State} {d k : Nat} (h : (getDom s d).entering = some k) : depthEntered d s =
    if (getDom s d).wakeDue = true then startWake d (modDom d (entered s d k) s) else modDom d (entered s d k) s := by
  have hdepth : entered s d k = fun D =>
      { D with depth := if k = 3 && !lockerOk s d then 2 else k, entering := none, wakeDue := false } := by
    funext D
    simp [entered]
  simp only [depthEntered, h, hdepth]

theorem entered_of_ok {s : State} {d k : Nat} {D : Dom} (hok : k = 3 → lockerOk s d = true) (hdue : D.wakeDue = false) :
    entered s d k D = { D with depth := k, entering := none } := by
  have hdepth : ¬(k = 3 ∧ lockerOk s d = false) := fun ⟨hk, hbad⟩ => Bool.false_ne_true (hbad.symm.trans (hok hk))
  simp [entered, hdepth, hdue]

/-! Wakes (R301, R304). -/

theorem roused_entering {D : Dom} (h : D.entering.isSome = true) : D.roused = { D with wakeDue := true } := if_pos h

theorem roused_awake {D : Dom} (hnone : D.entering = none) (hdepth : D.depth = 0) : D.roused = D := by
  simp [Dom.roused, hnone, hdepth]

theorem roused_asleep {D : Dom} (hnone : D.entering = none) (hdepth : D.depth ≠ 0) :
    D.roused = { D with waking := true, wakeDue := false, wakeAt := none } := by
  simp [Dom.roused, hnone, hdepth]

theorem roused_roused (D : Dom) : D.roused.roused = D.roused := by
  cases hentering : D.entering with
  | some k => rw [roused_entering (D := D) (by simp [hentering]), roused_entering (by simp [hentering])]
  | none =>
    by_cases hdepth : D.depth = 0
    · rw [roused_awake hentering hdepth, roused_awake hentering hdepth]
    · rw [roused_asleep (D := D) hentering hdepth]
      exact roused_asleep hentering hdepth

/-- The shared groups wake with a port core that starts to wake. -/
theorem startWake_core {s : State} {d : Nat} (hused : domUsed s d = true) (hd : d < 64) (hnone : (getDom s d).entering = none)
    (hdepth : (getDom s d).depth ≠ 0) :
    startWake d s = eachBelow 64 (fun i => modDom (144 + i) Dom.roused) (modDom d Dom.roused s) := by
  have hwaking : (getDom (modDom d Dom.roused s) d).waking = true := by
    rw [getDom_modDom, roused_asleep hnone hdepth]
  exact (if_neg (by simp [hused])).trans (if_pos (by simp only [hd, hwaking, decide_true, Bool.and_self]))

/-! The end of a wake (R306, R307, R311). -/

theorem getDom_wakeDom (d : Nat) (s : State) : getDom (wakeDom d s) d = (getDom s d).woken := by
  simp only [wakeDom]
  split
  · exact getDom_modDom d Dom.woken s
  · exact getDom_modDom d Dom.woken s

theorem lateWake_inTime {D : Dom} {now : Int} (h : ∀ e, D.known = some e → now ≤ e) (d : Nat) (s : State) :
    lateWake d D now s = s := by
  cases hknown : D.known with
  | none => simp [lateWake, hknown]
  | some e => simp [lateWake, hknown, not_lt.2 (h e hknown)]

theorem lateWake_late {D : Dom} {now e : Int} (hknown : D.known = some e) (hlate : e < now) (d : Nat) (s : State) :
    lateWake d D now s =
      raise 0x910 (wordOf d) (wordOf (sat 0xFFFFFFFF ((now - e) / 16).toNat)) (addCtr (pwrCtr 6) 1 s) := by
  simp [lateWake, hknown, hlate]

section Awake
variable {s : State} {d : Nat}

theorem domainAwake_idle (h : (getDom s d).waking = false) (sub : Nat) (bad : Bool) : domainAwake d sub bad s = s :=
  if_pos (by simp [h])

variable (h : (getDom s d).waking = true)
include h

theorem domainAwake_waking (sub : Nat) (bad : Bool) : domainAwake d sub bad s =
    let v := lateWake d (getDom s d) (now16 s + sub) (wakeDom d s)
    if (getDom s d).depth = 3 ∧ (bad = true ∨ (getDom s d).shadowBad = true) then shadowFault d v else v := by
  simp [domainAwake, h]

/-- The domain that failed to wake counts as awake at once, and takes bench at most from now on (R307). -/
def wakeGivenUp (d : Nat) (s : State) : State :=
  raise 0x911 (wordOf d) 1 (addCtr (pwrCtr 8) 1 (modDom d (fun D => { D.woken with failed := true }) s))

/-- What a failed wake brings to the domain's port, lane or stores. -/
theorem wakeFailed_waking : wakeFailed d s =
    let v := lateWake d (getDom s d) (now16 (wakeGivenUp d s)) (wakeGivenUp d s)
    if d < 128 then clockGone (domPort d) 0 (if d < 64 then listGone d v else v)
    else if d < 144 then laneReset (d - 128) v else containAll d v := if_neg (by simp [h])

end Awake

/-! `PWR_CTRL` and the caps (R310). -/

/-- The row of `PWR_CTRL`. -/
def pwrCtrlRow : RRow := { base := 0x90000, fields := [fRW 0 1, fRW 8 16 500], check := .pwrCtrl }

theorem rowOf_pwrCtrl : rowOf 0x90000 = some pwrCtrlRow := by decide

theorem sleepOn_storeFields (v : Word) (s : State) : sleepOn (storeFields 0x90000 v s) = bitOf v 0 := by
  have hkeep : pwrCtrlRow.keep v = bitsOf v 0 1 + bitsOf v 8 16 * 256 := by
    simp [RRow.keep, pwrCtrlRow, fRW, RField.stored]
  rw [sleepOn, storeFields_of_row rowOf_pwrCtrl, reg_setReg, hkeep, bitOf_wordOf (by decide), Nat.testBit_zero]
  simp only [bitOf, bitsOf]
  refine decide_eq_decide.2 ?_
  omega

theorem pwrCtrlWrite_allowed {s : State} (hs : s.phase = .running) {v : Word} (h : refusal s 0x90000 4 v = none) :
    pwrCtrlWrite 4 v s = if bitOf v 0 = true then storeFields 0x90000 v s
      else wakeAll (fun _ _ => true) (storeFields 0x90000 v s) := by
  rw [pwrCtrlWrite, windowWrite_of_allowed hs h, sleepOn_storeFields]

theorem exec_powerCapWrite_other {off : BitVec 20} (h : isCap off.toNat = false) (v : Word) (s : State) :
    exec (.powerCapWrite off v) s = .next s := congrArg Host.Outcome.next (if_neg (by simp [h]))

/-! Every domain wakes (R310). -/

theorem domUsed_congr {s t : State} (htpt : t.tpt = s.tpt) (hregs : t.regs = s.regs) (d : Nat) : domUsed t d = domUsed s d := by
  simp only [domUsed, getPort, laneOn, reg, htpt, hregs]

theorem domUsed_startWake (e d : Nat) (s : State) : domUsed (startWake e s) d = domUsed s d :=
  domUsed_congr (startWake_tpt e s) (regs_of_kept (startWake_kept e s)) d

theorem domUsed_shared (s : State) {d : Nat} (hd : 144 ≤ d) : domUsed s d = true := by
  rw [domUsed, if_neg (by omega), if_neg (by omega)]

/-- The domain as a wake of all leaves it. -/
def allRoused (s : State) (d : Nat) : Dom := if domUsed s d then (getDom s d).roused else getDom s d

theorem getDom_rousedGroups (s : State) (j : Nat) : getDom (eachBelow 64 (fun i => modDom (144 + i) Dom.roused) s) j = getDom s j ∨
    (144 ≤ j ∧ getDom (eachBelow 64 (fun i => modDom (144 + i) Dom.roused) s) j = (getDom s j).roused) := by
  by_cases hj : 144 ≤ j
  · obtain ⟨i, rfl⟩ := Nat.exists_eq_add_of_le hj
    have hi := eachBelow_pointwise (P := fun _ => True) (f := fun i => modDom (144 + i) Dom.roused) (n := 64)
      (get := fun a i => getDom a (144 + i)) (g := fun _ => Dom.roused) (fun _ _ _ => trivial)
      (fun a k _ _ i => (getDom_modDom_any _ _ _ a).trans (if_congr (by omega) rfl rfl)) (a := s) trivial i
    split at hi
    · exact .inr ⟨hj, hi⟩
    · exact .inl hi
  · exact .inl (eachBelow_keeps (p := fun a => getDom a j) (fun i a => getDom_modDom_ne (by omega) _ a) 64 s)

/-- The start of one wake: its own domain as a wake of all leaves it, any other so or as it was. -/
theorem getDom_startWake_same (d : Nat) (s : State) : getDom (startWake d s) d = allRoused s d := by
  cases hused : domUsed s d with
  | false => rw [startWake_unused hused, allRoused, hused, if_neg (by decide)]
  | true =>
    rw [allRoused, hused, if_pos rfl]
    by_cases hd : 64 ≤ d
    · rw [startWake_alone hused hd, getDom_modDom]
    · simp only [startWake, hused, Bool.not_true, Bool.false_eq_true, if_false]
      split
      · obtain h | ⟨hlo, -⟩ := getDom_rousedGroups (modDom d Dom.roused s) d
        · rw [h, getDom_modDom]
        · omega
      · exact getDom_modDom d Dom.roused s

theorem getDom_startWake_ne {d j : Nat} (hj : j ≠ d) (s : State) :
    getDom (startWake d s) j = getDom s j ∨ getDom (startWake d s) j = allRoused s j := by
  simp only [startWake]
  split
  · exact .inl rfl
  · split
    · obtain h | ⟨hlo, h⟩ := getDom_rousedGroups (modDom d Dom.roused s) j
      · exact .inl (h.trans (getDom_modDom_ne hj _ s))
      · refine .inr (h.trans ?_)
        rw [getDom_modDom_ne hj, allRoused, domUsed_shared s hlo, if_pos rfl]
    · exact .inl (getDom_modDom_ne hj _ s)

/-- A domain that a wake of all has reached is left so by the wakes that follow. -/
theorem allRoused_allRoused {s t : State} {d : Nat} (hused : domUsed t d = domUsed s d) (h : getDom t d = allRoused s d) :
    allRoused t d = allRoused s d := by
  rw [allRoused, hused, h, allRoused]
  split
  · exact roused_roused _
  · rfl

/-- Wakes of the domains below `n`, one after another: each has been reached, and the others have been or stand as they were. -/
theorem getDom_startWakes (s : State) (n : Nat) : ∀ d, domUsed (eachBelow n startWake s) d = domUsed s d ∧
    (getDom (eachBelow n startWake s) d = allRoused s d ∨ (n ≤ d ∧ getDom (eachBelow n startWake s) d = getDom s d)) := by
  induction n with
  | zero => exact fun d => ⟨rfl, .inr ⟨Nat.zero_le d, rfl⟩⟩
  | succ n ih =>
    intro d
    have hlast : eachBelow (n + 1) startWake s = startWake n (eachBelow n startWake s) := by simp [eachBelow, List.range_succ]
    obtain ⟨hused, hdom⟩ := ih d
    rw [hlast, domUsed_startWake]
    refine ⟨hused, ?_⟩
    have hnow : allRoused (eachBelow n startWake s) d = allRoused s d := by
      obtain h | ⟨-, h⟩ := hdom
      · exact allRoused_allRoused hused h
      · rw [allRoused, hused, h, allRoused]
    by_cases hd : d = n
    · subst hd
      exact .inl ((getDom_startWake_same _ _).trans hnow)
    · obtain h | h := getDom_startWake_ne hd (eachBelow n startWake s)
      · rw [h]
        exact hdom.imp_right (And.imp_left fun hle => by omega)
      · exact .inl (h.trans hnow)

theorem getDom_wakeAll {s : State} {d : Nat} (hd : d < 216) :
    getDom (wakeAll (fun _ _ => true) s) d = if domUsed s d then (getDom s d).roused else getDom s d := by
  obtain ⟨-, h | ⟨hle, -⟩⟩ := getDom_startWakes s 216 d
  · exact h
  · omega

end Sys2Proof.Machine

namespace Sys2Proof.Proofs

open Sys2Proof.Machine

/-- Settles O55: each command by the state of its domain; a depth is the deepest that is allowed (`deepest_of_chooseDepth`), and a
wake of all domains reaches each once for all, the shared groups also with a port core (`getDom_startWakes`). -/
theorem powerDomains : Obligations.PowerDomains := by
  refine ⟨?idle, ?deepest, ?entered, ?enteredFrame, ?wakeStart, ?roused, ?notWaking, ?awake, ?late, ?woken, ?failed, ?enable,
    ?wakeAll, ?cap⟩
  case idle =>
    intro s d sub now next hs hon hused hwaking hentering hnow hnext
    refine ⟨fun h => next_whenRunning hs (domainIdle_busy hnow h), fun k hspan hwork hk hdeeper => ?_, fun k hk hle => ?_,
      fun hnone => ?_⟩
    · exact next_whenRunning hs (domainIdle_enters hnow hnext hon hused hwaking hentering hspan hwork hk hdeeper)
    · refine next_whenRunning hs (domainIdle_stays hnow hnext fun j hj => ?_)
      obtain rfl : k = j := Option.some.inj (hk.symm.trans hj)
      exact hle
    · exact next_whenRunning hs (domainIdle_stays hnow hnext fun j hj => by cases hnone.symm.trans hj)
  case deepest =>
    intro s d k now next hk
    obtain ⟨hlo, hhi, hok, hdeeper⟩ := deepest_of_chooseDepth hk
    obtain ⟨hcap, hlocker, hfits⟩ := depthOk_iff.1 hok
    refine ⟨hlo, hhi, hcap, hlocker, ?_, fun j hkj hj hjcap hjlocker => ?_⟩
    · rintro e rfl
      exact fits_some_iff.1 hfits
    · by_contra hfit
      have hall := depthOk_iff.2 ⟨hjcap, hjlocker, Bool.eq_true_of_not_eq_false hfit⟩
      exact Bool.false_ne_true ((hdeeper j hkj hj).symm.trans hall)
  case entered =>
    intro s v d hs
    refine ⟨fun hnone => next_whenRunning hs (depthEntered_none hnone), ?_⟩
    rintro k hk rfl
    have henters := depthEntered_some hk
    exact ⟨fun hdue => next_whenRunning hs (henters.trans (if_neg (by simp [hdue]))),
      fun hdue => next_whenRunning hs (henters.trans (if_pos hdue))⟩
  case enteredFrame =>
    intro s d k hs hk hdue hok
    refine ⟨modDom d (entered s d k) s, next_whenRunning hs ((depthEntered_some hk).trans (if_neg (by simp [hdue]))), ?_,
      fun e he => getDom_modDom_ne he _ s, rfl⟩
    rw [getDom_modDom, entered_of_ok hok hdue]
  case wakeStart =>
    intro s d hs
    exact ⟨fun hused => next_whenRunning hs (startWake_unused hused), fun hused hd => next_whenRunning hs (startWake_alone hused hd),
      fun hused hd hnone hdepth => next_whenRunning hs (startWake_core hused hd hnone hdepth)⟩
  case roused => exact fun D => ⟨roused_entering, roused_awake, roused_asleep⟩
  case notWaking => exact fun s d sub bad hs hidle => next_whenRunning hs (domainAwake_idle hidle sub bad)
  case awake =>
    rintro s v d sub bad hs hwaking rfl
    have hawake := domainAwake_waking hwaking sub bad
    refine ⟨fun hgood => next_whenRunning hs (hawake.trans (if_neg ?_)),
      fun hdepth hbad => next_whenRunning hs (hawake.trans (if_pos ⟨hdepth, hbad⟩))⟩
    rintro ⟨hdepth, hbad⟩
    obtain hne | ⟨hok, hshadow⟩ := hgood
    · exact hne hdepth
    · simp [hok, hshadow] at hbad
  case late => exact fun s d D now => ⟨fun h => lateWake_inTime h d s, fun e hknown hlate => lateWake_late hknown hlate d s⟩
  case woken =>
    intro s d
    rw [getDom_wakeDom]
    exact ⟨rfl, rfl⟩
  case failed =>
    rintro s u v d hs hwaking rfl rfl
    have hfailed := wakeFailed_waking hwaking
    refine ⟨fun hcore => ?_, fun hlo hhi => ?_, fun hlo hhi => ?_, fun hlo => ?_⟩
    · refine next_whenRunning hs (hfailed.trans ((if_pos (by omega)).trans ?_))
      rw [domPort, Nat.mod_eq_of_lt hcore, if_pos hcore]
      rfl
    · exact next_whenRunning hs (hfailed.trans ((if_pos hhi).trans (congrArg _ (if_neg (by omega)))))
    · exact next_whenRunning hs (hfailed.trans ((if_neg (by omega)).trans (if_pos hhi)))
    · exact next_whenRunning hs (hfailed.trans ((if_neg (by omega)).trans (if_neg (by omega))))
  case enable =>
    intro s v hs
    refine ⟨fun k hk => congrArg Host.Outcome.next (windowWrite_of_refused hs hk _), fun hnone => ?_⟩
    have hstored := pwrCtrlWrite_allowed hs hnone
    exact ⟨fun hon => congrArg Host.Outcome.next (hstored.trans (if_pos hon)),
      fun hoff => congrArg Host.Outcome.next (hstored.trans (if_neg (by simp [hoff])))⟩
  case wakeAll => exact fun s d hd => getDom_wakeAll hd
  case cap =>
    intro s u off v hs
    refine ⟨fun hother => exec_powerCapWrite_other hother v s, fun hcap hnone hu => ?_, fun k hcap hk => ?_⟩
    · rw [exec_powerCapWrite hcap, hu]
      exact congrArg Host.Outcome.next (windowWrite_of_allowed hs hnone _)
    · rw [exec_powerCapWrite hcap]
      exact congrArg Host.Outcome.next (windowWrite_of_refused hs hk _)

end Sys2Proof.Proofs
end
